-- ==== Sys2Proof/Word.lean ====
section
/-! DEFINITION. The plainest types of the module: bytes, words and sorted tables. Byte order (R7), bit fields and arithmetic helpers
stand in Machine/Bytes.lean, where a repair may mend them. -/
namespace Sys2Proof

/-- One byte. -/
abbrev Byte := BitVec 8

/-- A byte string, first byte first. -/
abbrev Bytes := List (BitVec 8)

/-- A 32-bit register word (R102). -/
abbrev Word32 := BitVec 32

/-- An IEEE 754 binary64 value, held as its bits (R199, R201). -/
abbrev F64 := BitVec 64

/-- A sparse table by number: pairs in strictly rising order of the key (Machine/Ops.lean keeps the form). -/
abbrev Tab (α : Type) := List (Nat × α)

end Sys2Proof
end

