-- ==== Sys2Proof/Records.lean ====
section
/-! DEFINITION. The records that the ledger, the balance engine and the meter table keep, and the journal records that carry their
changes (chapters 06, 08, 10, 11, 12, 19). They stand below the commands because JOURNAL_RX carries journal records. Every field's
comment names its width, its rule and file, and its value at reset or creation, parted by bars. -/
namespace Sys2Proof

/-- Meter table entry (R130). An entry with VALID = 0 is a free slot and is not listed. -/
structure MEntry where
  /-- 64 bits, METER_ID; R130, 06; - -/
  id : Nat
  /-- 20 bits, SHORT_INDEX; R130, 06; - -/
  short : Nat
  /-- 12 bits, HOME; R130, 06; - -/
  home : Nat
  stale : Bool
  pinned : Bool
  homeSelf : Bool
  retired : Bool
  /-- 4 bits, LINK and ALT_LINK; R130, 06; 0xF at enrolment (R142) -/
  link : Nat
  altLink : Nat
  /-- 16 bits, ROUTE; R130, 06; 0 -/
  route : Nat
  /-- 32 bits, LAST_HEARD; R130, 06; operating seconds at enrolment (R142) -/
  lastHeard : Nat
  /-- 8 bits signed, QUALITY and ALT_QUALITY; R130, 06; 0 and -128 -/
  quality : Int
  altQuality : Int
  /-- 16 bits, SWITCH_COUNT; R130, 06; 0 -/
  switches : Nat
  /-- 32 bits, LINK_HEARD; R130, 06; 0 -/
  linkHeard : Nat
  deriving DecidableEq, Repr

/-- Meter state record, 128 bytes (R180). -/
structure MState where
  /-- 32 bits, LAST_COUNTER; R180, 08; 0 at enrolment -/
  lastCounter : Nat
  /-- 32 bits, DOWN_COUNTER; R180, 08; 0 at enrolment -/
  downCounter : Nat
  /-- REKEY_REQUIRED; R183, 08; 0 -/
  rekey : Bool
  /-- 2 bits, LAST_OUTCOME; R180, 08; 3 -/
  lastOutcome : Nat
  /-- 16 bits, AUTH_FAIL; R180, 08; 0 -/
  authFail : Nat
  /-- 16 bits, REPLAYS; R180, 08; 0 -/
  replays : Nat
  /-- 48 bits, LAST_TIME, network time; R180, 08; 0 -/
  lastTime : Nat
  /-- LAST_N values of 64 bits, signed; R180, 08; none -/
  lastValues : List Int
  /-- cold flag METER_NO_HISTORY; R99, 04; set at enrolment -/
  noHistory : Bool
  deriving DecidableEq, Repr

/-- PREPAY word, bytes 22 and 23 of the standard record (R252). -/
structure Prepay where
  enabled : Bool
  /-- 2 bits, EMERG_LEVEL; R252, 11; 0 -/
  level : Nat
  inEmergency : Bool
  /-- 3 bits, VALVE: 0 Open, 1 ClosePending, 2 CloseSent, 3 Closed, 4 ArmSent, 5 Armed; R252, 11; 0 -/
  valve : Nat
  armQueued : Bool
  /-- 3 bits, TRIES; R252, 11; 0 -/
  tries : Nat
  hostHold : Bool
  deriving DecidableEq, Repr

/-- The valve command in flight of a meter and what is kept beside PREPAY (R254, R257, R262). -/
structure ValveState where
  /-- 16 bits, CMD_SEQ last given; R255, 11; 0 DESIGN CHOICE, log 8 -/
  cmdSeq : Nat
  /-- command in flight: CMD, its CMD_SEQ, NOT_AFTER, REASON; R257, 11; none -/
  flight : Option (Nat × Nat × Nat × Nat)
  /-- when it was last sent, ns; R257, 11; 0 -/
  sentAt : Nat
  /-- VALVE before ClosePending; R254, 11; 0 -/
  before : Nat
  /-- REASON of the close that is due, and that it must not wait for friendly hours; R258, 11; 1, false -/
  reason : Nat
  override : Bool
  deriving DecidableEq, Repr

/-- Standard record, 256 bytes (R222). -/
structure Std where
  /-- 16 bits, BILL_NO; R222, 10; 0 -/
  billNo : Nat
  mdPartial : Bool
  mdEstimated : Bool
  /-- ROLL_0 and ROLL_1, 7 bits each; R222, 10; 0 -/
  roll : List Nat
  /-- 32 bits signed, DEM_ACC; R222, 10; 0 -/
  demAcc : Int
  /-- 32 bits signed, MD; R222, 10; 0 -/
  md : Int
  /-- 32 bits, MD_TIME; R222, 10; 0 -/
  mdTime : Nat
  /-- 48 bits signed, CREDIT; R222, 10; 0 -/
  credit : Int
  prepay : Prepay
  /-- RESIDUAL_0, RESIDUAL_1; R203, R222; 0 at enrolment -/
  resid : List F64
  /-- TOT by register 16q + k, 50 bits; R222, 10; 0 (not listed) -/
  tot : Tab Int
  /-- SNAP_0 and SNAP_1: BILL_NO and SEQ, SEQ 0 none; R222, 10; 0 -/
  snap0 : Nat × Nat
  snap1 : Nat × Nat
  /-- the open demand interval carries an estimated part, a part of an outage; R229, R243; false -/
  accEstimated : Bool
  accPartial : Bool
  /-- a reading of the open billing period was posted while the clock was invalid (snapshot FLAGS); R224, R228, 10; false -/
  periodInvalid : Bool
  /-- TAI seconds up to which demand intervals are closed (the model's own mark of R233); R233, 10; 0 -/
  closedTo : Nat
  deriving DecidableEq, Repr

/-- Snapshot, 576 bytes (R224). -/
structure Snapshot where
  billNo : Nat
  /-- FLAGS; R224, 10; 0 -/
  flags : Nat
  /-- CLOSE_TIME, READ_TIME format; R224, 10; 0 -/
  closeTime : Nat
  tot : Tab Int
  roll : List Nat
  fixMd : Int
  fixMdTime : Nat
  fixMdFlags : Nat
  slideMd : Int
  slideMdTime : Nat
  slideMdFlags : Nat
  deriving DecidableEq, Repr

/-- Audit entry, 32 bytes (R245). -/
structure Audit where
  time : Nat
  kind : Nat
  flags : Nat
  seq : Nat
  data0 : Nat
  data1 : Nat
  deriving DecidableEq, Repr

/-- Minute entry, 64 bytes (R246); its CRC is computed when it is read. -/
structure Minute where
  minute : Nat
  tariff : Nat
  flags : Nat
  q : List Int
  deriving DecidableEq, Repr

/-- Custody record, 4,096 bytes (R224). -/
structure Cust where
  /-- FLAGS bit 0 ENABLED, 1 SINGLE_PATH in force, 2 CLOCK_INVALID in force; R224, 10; 0 -/
  enabled : Bool
  single : Bool
  invalid : Bool
  billNo : Nat
  short : Nat
  /-- FIX_START, SUB_START, TAI seconds; R224, 10; 0 -/
  fixStart : Nat
  subStart : Nat
  resid : List F64
  tot : Tab Int
  roll : List Nat
  fixAcc : Int
  fixMd : Int
  fixMdTime : Nat
  fixMdFlags : Nat
  slideMd : Int
  slideMdTime : Nat
  slideMdFlags : Nat
  /-- SUB_ACC_0..14, and the flags of each slot; R224, 10; 0 -/
  subAcc : List Int
  subFlags : List Nat
  subHead : Nat
  subFilled : Nat
  /-- accumulation in the open subinterval; R232, 10; 0 -/
  subOpen : Int
  minAcc : List Int
  minIndex : Nat
  minFlags : Nat
  /-- flags of the open fixed interval and of the open subinterval; R224, R238, 10; 0 -/
  fixFlags : Nat
  subOpenFlags : Nat
  /-- clock steps since the last posting: old and new TAI in ns; R229, R238, 10; none -/
  steps : List (Int × Int)
  /-- TAI seconds up to which a billing close since the last posting closed the intervals (the model's own mark of R233); 10; 0 -/
  closedTo : Nat
  /-- CLOCK_INVALID or SINGLE_PATH during the billing period; R224, 10; 0 -/
  periodFlags : Nat
  snap0 : Option Snapshot
  snap1 : Option Snapshot
  /-- newest first, at most 28 in AUDIT_RING; R224, R245, 10; none -/
  ring : List Audit
  deriving DecidableEq, Repr

/-- A pending slot of a balance node, 64 bytes (R265). -/
structure BalSlot where
  start : Nat
  estimated : Bool
  clockInvalid : Bool
  overflow : Bool
  reported : Nat
  target : Nat
  supply : Int
  imbal : Int
  var : Nat
  deriving DecidableEq, Repr

/-- Node record, 128 bytes (R265), with its pending slots. -/
structure Node where
  /-- PARENT, none 0xFFFF; R265, 12; - -/
  parent : Option Nat
  depth : Nat
  balQ : Nat
  balLen : Nat
  eNode : Int
  enabled : Bool
  learning : Bool
  suspectLoss : Bool
  suspectGain : Bool
  judgeEst : Bool
  reportAll : Bool
  k : Nat
  h : Nat
  wait : Nat
  suppliers : Nat
  members : Nat
  learnCount : Nat
  complete : Nat
  incomplete : Nat
  offsetRel : F64
  learnI : F64
  learnS : F64
  sPos : F64
  sNeg : F64
  lastR : F64
  nextClose : Nat
  /-- pending membership changes, first first: CHANGE_AT, SUPPLIERS and MEMBERS after it, and that it restarts learning; R265, R267,
  12; none -/
  changes : List (Nat × Nat × Nat × Bool)
  /-- operating seconds at which the module clock first passed the ends of NEXT_CLOSE and the intervals after it; R271, 12; none -/
  passes : List Nat
  /-- pending slots, oldest first, at most 32; R265, 12; none -/
  slots : List BalSlot
  /-- alarms of the last 8 judged intervals, newest first: 0 none, 1 loss, 2 gain, 3 both; R275, 12; none -/
  alarms : List Nat
  /-- SUPPLY of the last interval closed was above 0; R276, 12; false -/
  supplied : Bool
  deriving DecidableEq, Repr

/-- Membership record, 32 bytes (R266). -/
structure Memb where
  supplyOf : Option Nat
  memberOf : Option Nat
  /-- LEAVE_AT: the minute from which the meter leaves SUPPLY_OF, MEMBER_OF; R266, R267, 12; none -/
  leaveS : Option Nat
  leaveM : Option Nat
  accS : Int
  accM : Int
  endS : Nat
  endM : Nat
  deriving DecidableEq, Repr

/-- Indicator record, 32 bytes (R276). -/
structure Ind where
  ind : Nat
  phase : Nat
  phaseRun : Nat
  zeroCount : Nat
  skewRun : Nat
  radioRun : Nat
  replayWin : Nat
  replayBase : Nat
  rssiRef : Int
  cfoRef : Int
  radioCount : Nat
  /-- both radio references frozen; R280, 12; false -/
  radioFrozen : Bool
  /-- the first measurement after a step is discarded; R360, 16; false -/
  skipSkew : Bool
  deriving DecidableEq, Repr

/-- Power-line fingerprint reference, 48 bytes (R278). -/
structure FpRef where
  mags : List Int
  timing : Int
  count : Nat
  run : Nat
  frozen : Bool
  deriving DecidableEq, Repr

/-- Balance report, 64 bytes (R282): its bytes as written. -/
structure Report where
  seq : Nat
  kind : Nat
  bytes : Bytes
  deriving DecidableEq, Repr

/-- Prepayment log entry, 32 bytes (R261). -/
structure PrepayLog where
  time : Nat
  seq : Nat
  kind : Nat
  result : Nat
  short : Nat
  ref : Nat
  credit : Int
  deriving DecidableEq, Repr

/-- A quarantine entry (R193). -/
structure Quar where
  /-- 64 bits, SEQ; R193, 08; - -/
  seq : Nat
  id : Nat
  short : Nat
  /-- REASON: 1 validation, 2 keyless, 3 custody without majority; R193, 08; - -/
  reason : Nat
  link : Nat
  valFlags : Nat
  /-- 64 bits, ARRIVAL; R169, 08; - -/
  arrival : Nat
  counter : Nat
  /-- header and plaintext, or the whole frame for reason 2; R193, 08; - -/
  bytes : Bytes
  /-- its conversion cannot be computed; R194, R211; false -/
  outOfRange : Bool
  /-- the meta word of the frame, for a later posting; R169, 08; - -/
  meta16 : Bytes
  deriving DecidableEq, Repr

/-- A prefix of the trie (R144). The key is held with the prefix's bits at the top: 64 bits in table 0, 72 in table 1. -/
structure Pfx where
  table : Nat
  len : Nat
  key : Nat
  value : Nat
  deriving DecidableEq, Repr

/-- What a CONFIG record states (KIND 0x0B; its body is not laid out in the manual: log 13). -/
inductive CfgChange where
  | profile (id : Nat) (body : Bytes)
  | pfxAdd (p : Pfx)
  | pfxDel (table len key : Nat)
  | virial (table : Nat) (points : List (F64 × F64))
  | node (id : Nat) (n : Option Node)
  | memb (short : Nat) (m : Option Memb) (id : Nat) (n : Node)
  | indClear (short mask : Nat) (relearn : Bool)
  | quarRemove (seq : Nat)
  | mirror (sync : Bool)
  | custody (channel : Nat) (c : Option Cust) (short : Nat) (std : Option Std)
  | ledger (short : Nat) (std : Option Std) (channel : Nat) (c : Option Cust)
  deriving DecidableEq, Repr

/-- The body of a POSTING record (R248): after-images, as items FIELD and VALUE. -/
structure PostBody where
  counter : Nat
  /-- OUTCOME: 0 ACK, 1 HELD, 2 VOID; R248, 10; - -/
  outcome : Nat
  /-- frame TYPE: 0 READING, 1 CMD_RESULT, 2 METER_EVENT; R248, 10; - -/
  type : Nat
  tariff : Nat
  valFlags : Nat
  convVersion : Nat
  values : List Int
  readTime : Nat
  items : List (Nat × Nat)
  /-- the increments posted per quantity, for delivery and for step 14; R269, 12; empty -/
  ns : List Int
  /-- the runs of the clock from t_last to t in 1/65,536 s, for step 14; none without history; R229, R238, R269; empty -/
  runs : List (Int × Int)
  /-- the profile copy bound to the reading, for step 14; R146, R270; 0 -/
  profile : Nat
  pver : Nat
  /-- the delivered records, POST_TIME zero; R122, 05; empty where nothing is delivered -/
  recs : List Bytes
  /-- the frame sets REKEY_REQUIRED; R183, 08; false -/
  rekey : Bool
  /-- a reading held: its quarantine entry; R193, 08; none -/
  quar : Option Quar
  /-- DOWN_COUNTER with the answer to this frame, AUTH_FAIL and REPLAYS, for replay; R180, 08; 0 (log 102) -/
  down : Nat
  authFail : Nat
  replays : Nat
  /-- totalisers estimated at the boundaries between t_last and t: instant in 1/65,536 s, and one value per totaliser; R190, 08; none -/
  ests : List (Int × List Int)
  deriving DecidableEq, Repr

/-- The body of a journal record, by KIND (R247). -/
inductive JBody where
  | posting (p : PostBody)
  | table (e : MEntry) (purge : Bool)
  | close (s : Snapshot) (std : Option Std) (cust : Option Cust)   -- with the record as it is after the close (log 18)
  | calCross (cal count instant : Nat) (bill : Int)   -- with the boundary's billing second (log 18)
  | tariff (period old source instant : Nat) (unknown : Bool)
  | clockStep (old new : Int) (cause : Nat) (first : Bool)
  | outage (start rest : Nat)
  | audit (a : Audit)
  | balance (node : Nat) (after : Node) (r : Report)
  | report (rs : List Report)
  | minute (m : Minute)
  | keyState (action flags counter : Nat) (wrapped : Bytes)
  | prepay (l : PrepayLog) (credit : Int) (word : Prepay) (v : ValveState)
  | config (c : CfgChange)
  | store (q : Quar)            -- a keyless frame appended to the keyless quarantine (R191)
  deriving DecidableEq, Repr

/-- A journal record (R247). -/
structure JRec where
  /-- 8 bits, KIND; R247, 10; - -/
  kind : Nat
  /-- 64 bits, SEQ; R247, 10; - -/
  seq : Nat
  global : Bool
  /-- 7 bits, CHANNEL, 127 none; R247, 10; - -/
  channel : Nat
  /-- 20 bits, SHORT_INDEX; R247, 10; - -/
  short : Nat
  /-- 64 bits, TIME; R247, 10; - -/
  time : Nat
  /-- 32 bits, FLAGS; R247, 10; - -/
  flags : Nat
  body : JBody
  deriving DecidableEq, Repr

/-- A poll entry (R338) with what the engine keeps beside it. -/
structure PollEntry where
  /-- 144 bytes as loaded; R338, 15; - -/
  bytes : Bytes
  short : Nat
  id : Nat
  /-- 32 bits, uplink counter; R344, 15; - -/
  counter : Nat
  /-- 65,536 is owed before first use after a start; R344, 15; false -/
  bump : Bool
  /-- sealed frame not yet answered; R344, 15; none -/
  held : Option Bytes
  /-- LAST_RESULT and LAST_EXC; R342, 15; 0 -/
  lastResult : Nat
  lastExc : Nat
  /-- failed polls in a row; R342, 15; 0 -/
  failed : Nat
  silent : Bool
  /-- suspended by REKEY; R345, 15; false -/
  suspended : Bool
  /-- network seconds of the last due instant served; R339, 15; none -/
  lastDue : Option Nat
  deriving DecidableEq, Repr

/-- One profile (R146, R147): the copy in force and the one before it while a reading in flight still uses it. -/
structure Profile where
  /-- 1,024 bytes; R147, 06; not loaded -/
  body : Bytes
  /-- number of the copy in force, counted by the module; R146, 06; - -/
  version : Nat
  /-- the other copy: its number and body; R146, 06; none -/
  old : Option (Nat × Bytes)
  deriving DecidableEq, Repr

/-- Wrapped key record (R413). -/
structure Wrapped where
  /-- 32 bytes; R413, 19; none -/
  current : Option Bytes
  pending : Option Bytes
  pendingReset : Bool
  relayQueued : Bool
  /-- 8 bits, GEN; R413, 19; 0 -/
  gen : Nat
  /-- 32 bits, COUNTER; R413, 19; 0 -/
  counter : Nat
  /-- counter of the message that set PENDING, for the record of its promotion (the model's own); R421, 19; 0 -/
  pendCounter : Nat
  /-- 24 bytes; R413, 19; empty -/
  blob : Bytes
  deriving DecidableEq, Repr

/-- A virial table (R209, R215): the copy in force and the other one. -/
structure Virial where
  /-- points T, B as binary64; R209, 09; never loaded -/
  points : List (F64 × F64)
  version : Nat
  old : Option (Nat × List (F64 × F64))
  deriving DecidableEq, Repr

/-- The structures that live in DRAM and are copied to flash with each map checkpoint, or are carried by journal records
(R137, R180, R222, R224, R241, R265, R266, R276, R278, R338, R413, R441), and the parts of LOG and PROFILE that records fill. -/
structure Db where
  /-- entries of the meter table by short index; R137, 06; none -/
  entries : Tab MEntry
  /-- short indexes whose purge is not yet durable, with the SEQ; R143, 06; none -/
  purging : Tab Nat
  /-- meter state records by short index; R180, 08; none -/
  mstate : Tab MState
  /-- standard records by short index; R222, 10; none -/
  std : Tab Std
  /-- custody records by channel; R224, 10; none -/
  cust : Tab Cust
  /-- custody records of channels no longer enabled: profile and audit kept; R250, 10; none -/
  minutes : Tab (List Minute)
  /-- audit entries by channel, newest first; R245, 10; none -/
  audits : Tab (List Audit)
  /-- wrapped key records by short index; R413, 19; none -/
  keys : Tab Wrapped
  /-- valve commands by short index; R257, R262, 11; none -/
  valves : Tab ValveState
  /-- balance nodes by node ID; R265, 12; none -/
  nodes : Tab Node
  /-- membership records by short index; R266, 12; none -/
  memb : Tab Memb
  /-- indicator records by short index; R276, 12; none -/
  inds : Tab Ind
  /-- fingerprint references by 4 x short index + class; R278, 12; none -/
  fps : Tab FpRef
  /-- poll entries by 256 x port + address; R338, 15; none -/
  polls : Tab PollEntry
  /-- profiles by ID; R147, 06; none loaded -/
  profiles : Tab Profile
  /-- prefixes of the trie; R144, 06; none -/
  pfxs : List Pfx
  /-- virial tables by number; R209, 09; none loaded -/
  virials : Tab Virial
  /-- METER_CLOSE snapshots by short index, newest first, at most two, with their SEQ; R223, 10; none -/
  snaps : Tab (List (Nat × Snapshot))
  /-- quarantine entries, in order of SEQ; R191, R193, 08; none -/
  quars : List Quar
  /-- prepayment log, newest first; R261, 11; none -/
  plog : List PrepayLog
  /-- balance reports, newest first; R282, 12; none -/
  reports : List Report
  /-- tariff timeline, newest first, at most 256: instant (TAI ns), period, previous period, unknown instant; R227, 10; none -/
  timeline : List (Int × Nat × Nat × Bool)
  /-- outages that ended in an instant-unknown change, and other outages: start, rest (TAI ns), unknown; R242, R243, 10; none -/
  outages : List (Int × Int × Bool)
  /-- crossing count, last crossed instant (TAI ns) and its billing second per billing calendar; R234, R236, 10; 0 -/
  crossings : List (Nat × Int × Int)
  /-- last translated period in force from the inputs; R242, 10; 0 -/
  inputPeriod : Nat
  /-- when each entry was enrolled, as READ_TIME, by short index (the model's own mark); R235, 10; none -/
  enrolled : Tab Nat
  /-- highest SEQ whose after-images stand here: replaying a record again changes nothing; R241, 10; 0 -/
  applied : Nat
  /-- SEQ of the last posting that step 14 has taken (the model's own mark); R269, R283, 12; 0 -/
  folded : Nat
  deriving DecidableEq, Repr

end Sys2Proof
end

