-- ==== Sys2Proof/Syntax.lean ====
section
/-! DEFINITION. The commands of the block: one constructor of Instr per row of spec/opcode_table.json, with the row's operands.
A row that stands for a host ring command carries the number of the started descriptor that asks for it: its fields are read from
the descriptor's 64 bytes, which the state holds. -/
namespace Sys2Proof

/-- What happened to a codeword of the (144,128) code on its way (R23): no error, one failing symbol, two, or three and more. -/
inductive Ecc where
  | none
  | one (sym : Nat)
  | two
  | many
  deriving DecidableEq, Repr

/-- One transfer of a strait message (R16, R17). `copyOk`: the two copies of every sideband bit agree.
`again` is the state of the one repeat that a RESEND asks for (R27). -/
structure StraitXfer where
  src : Nat
  dst : Nat
  data : BitVec 128
  first : Bool
  last : Bool
  kind : Nat
  copyOk : Bool
  err : Ecc
  again : Ecc
  deriving DecidableEq, Repr

/-- Where a word that was read belongs, for the table of R27. -/
inductive Loc where
  | flashCopy (slot : Nat)      -- DRAM word of a structure with a flash copy; the work item that touched it
  | noCopy (slot : Nat)         -- DRAM word without a flash copy; the work item it belongs to
  | bucket (slot : Nat)         -- a bucket of the exact-match table (R139)
  | overflow                    -- the overflow store of LOOKUP (R139)
  | custody (channel : Nat)     -- the LEDGER custody store
  | sram (island : Nat)         -- any other SRAM
  deriving DecidableEq, Repr

/-- One request of a sound port (R19): a read or a write of one 16-byte unit. The command carries the weights that CAPE writes before it. -/
structure SoundReq where
  port : Nat
  write : Bool
  addr : Nat
  data : BitVec 128
  err : Ecc
  loc : Loc
  /-- what happened to the word while the sound carried it (R23) -/
  carry : Ecc
  deriving DecidableEq, Repr

/-- Requests that reach the sound together, and the weights that CAPE sets before them: port and weight (R19). -/
structure SoundBurst where
  reqs : List SoundReq
  weights : List (Nat × Nat)
  deriving DecidableEq, Repr

/-- What a register write carries: its size in bytes, and the value in the low bits (R102). -/
structure RegData where
  size : Nat
  value : BitVec 64
  deriving DecidableEq, Repr

/-- Where a PCIe link goes that leaves L0 or a low-power state (R100): training again, L1, or a substate of L1. -/
inductive LinkDown where
  | training | l1 | l11 | l12
  deriving DecidableEq, Repr

/-- What a lost flash sector held (R447): the root of checkpoint n or its copy of the meter table, the JOURNAL record of a SEQ, the backlog
entries of a posting's SEQ, a channel's k-th minute or audit entry from the newest, a recorder slot, or nothing that State keeps elsewhere. -/
inductive FlashLoss where
  | root (n : Nat)
  | tableCopy (n : Nat)
  | record (seq : Nat)
  | posted (seq : Nat)
  | minute (channel k : Nat)
  | audit (channel k : Nat)
  | slot (k : Nat)
  deriving DecidableEq, Repr

/-- Who asks for a work item (R151): INTAKE for the oldest taken frame of a queue, NET for a started descriptor, or CAPE and the
firmware with every field given. -/
inductive ItemAsk where
  | reading (queue : Nat)
  | host (desc : Nat)
  | other (cls prio space key handler : Nat) (noFlow : Bool) (depCount : Nat) (notify0 notify1 : Option Nat) (deadline : Nat)
  deriving DecidableEq, Repr

/-- How a read of host memory ended (R118, HOST_DMA_COMPLETION). -/
inductive DmaEnd where
  | data (b : Bytes)
  | unsupported
  | completerAbort
  | poisoned
  | timeout
  deriving DecidableEq, Repr

/-- A write of the MSI-X structures (R127). -/
inductive MsixWrite where
  | vector (n : Nat) (masked : Bool)
  | functionMask (on : Bool)
  | enable (on : Bool)
  deriving DecidableEq, Repr

/-- The result block of one conversion path, when a disturbed path returned another block than the computation gives (R213). -/
structure AltBlock where
  outcome : Nat
  valFlags : Nat
  ns : List Int
  residuals : List F64
  deriving DecidableEq, Repr

/-- A power-line frame as the receiver decoded it (R292 to R303, R309): FC bytes, the physical blocks decoded with their payload,
the best receivers' SNR, the 32 group magnitudes. -/
structure PlcRx where
  phase : Nat
  fcOk : Bool
  fc : Bytes
  pbs : List (Nat × Bytes)
  snr : List Int
  margin : Int
  mags : List Nat
  deriving DecidableEq, Repr

/-- A radio frame as the receiver decoded it (R311 to R325). `source`: METER_ID of the child that it comes from or goes to; `start`:
milliseconds from the slot start to the synchronisation header; `stamp`: network time at that header's end (R313). -/
structure RadioRx where
  radio : Nat
  fcsOk : Bool
  layoutOk : Bool
  panId : Nat
  source : Nat
  macSeq : Nat
  kind : Nat
  flags : Nat
  linkByte : Nat
  time : Nat
  payload : Bytes
  mode : Nat
  channel : Nat
  rssi : Int
  cfo : Int
  start : Nat
  stamp : Nat
  deriving DecidableEq, Repr

/-- What ended on an RS-485 bus (R340, R341). -/
inductive WiredRx where
  | values (raw : List Nat)         -- the response to the request under way: registers of a Modbus answer in order; value or scaler of a GET answer
  | modbusException (code : Nat)
  | refused (code : Nat)
  | crcError
  deriving DecidableEq, Repr

/-- A PTP message as received (R354, R355). Times are nanoseconds since the epoch; stamps are MAC stamps before PTP_LAT. -/
inductive PtpMsg where
  | announce (gm : Nat) (priority1 clockClass priority2 : Nat) (utcOffset : Nat) (utcValid leap61 leap59 : Bool)
  | sync (gm seq : Nat) (twoStep : Bool) (origin corr : Int) (speed : Nat) (stamp : Int)
  | followUp (gm seq : Nat) (origin corr : Int)
  | delayResp (gm seq : Nat) (received corr : Int)
  | pdelayResp (seq : Nat) (turnaround : Int) (speed : Nat) (stamp : Int)   -- the peer's response, with its follow-up where it sends one
  | delayReq (seq speed : Nat) (stamp : Int)                                -- a delay request of another clock, of either mechanism
  | management
  deriving DecidableEq, Repr

/-- What the module's PTP engine is due to send (R354). -/
inductive PtpTx where
  | sync
  | announce
  | delayReq (speed : Nat) (stamp : Int)
  deriving DecidableEq, Repr

/-- A certificate of R368 as its fields: the signed part, the authority's signature over it, and what the signed part states. -/
structure Cert where
  tbs : Bytes
  sigR : Nat
  sigS : Nat
  pubX : Nat
  pubY : Nat
  member : Nat
  unit : Nat
  notBefore : Nat
  notAfter : Nat
  deriving DecidableEq, Repr

/-- A HELLO or HELLO_REPLY body (R369) with its certificate's fields. `isthmus`: it came over the isthmus lane (R388). -/
structure Hello where
  isthmus : Bool
  body : Bytes
  cert : Cert
  sigR : Nat
  sigS : Nat
  deriving DecidableEq, Repr

/-- What a background item finds (R25, R449, R481): the completed fraction of each activity in 1/10,000; for the DRAM patrol its unit, the
codeword read and whether a write of the sound hit the unit; for the flash patrol the block read, the corrected bits of each codeword (more
than 40: uncorrectable) and what its lost sectors held; for a test whether it passed. -/
structure BgRun where
  progress : List Nat
  scrubErr : Ecc
  scrubAddr : Nat
  hitByWrite : Bool
  die : Nat
  block : Nat
  corrected : List Nat
  lost : List FlashLoss
  pass : Bool
  deriving DecidableEq, Repr

/-- The commands of the block. -/
inductive Instr where
  -- straits, sound, scheduler and reading path
  | straitMessage (x : StraitXfer)
  | soundRequest (x : SoundBurst)
  | frameArrival (queue : Nat) (aborted : Bool)
  | queuePoll (queue : Nat) (err : Ecc) (tagOk : Bool)
  | workItemCreate (a : ItemAsk)
  | itemDispatch
  | itemResume (slot : Nat)
  | itemEnd (slot : Nat) (failed : Bool)
  | prioAgeTick (slot : Nat)
  | budgetWindow
  | itemRunTimeout (core : Nat)
  | coreDrain (core : Nat)
  | coreDrained (core : Nat)
  | authDone (slot : Nat)
  | validationDone (slot : Nat)
  | conversionDone (slot : Nat) (altA altB : Option AltBlock)
  | firmwarePathResult (slot : Nat) (alt : Option AltBlock)
  | postingAppend (slot : Nat)
  | groupCommitStart
  | groupCommitComplete
  | balanceFold (seq : Nat)
  | balWaitExpire (node : Nat)
  | replayWindowEnd
  -- supply, reset and start-up
  | vinWarn (vin : Nat)
  | vinWarnClear (vin : Nat)
  | vinBo
  | vinOn (vin : Nat)
  | vbatLost
  | holmPowerOn (vin : Nat)
  | holmWdtExpire
  | sysWdtExpire
  | islWdtExpire (island : Nat)
  | resetNAssert
  | resetNRelease
  | resetEpisodeEnd
  | thermalSample (tj : Int)
  | admitRequest (island cls credits : Nat)
  | admitRelease (island credits : Nat)
  | admitTick
  | admitWaitExpire (island : Nat)
  | powerSet (d : Nat)
  | holdWakeAlarm
  | idleAck (island : Nat)
  | idleTmoExpire (island : Nat)
  | resetHoldEnd (island : Nat)
  | pllLockHeld (island : Nat)
  | pllLockFail (island : Nat)
  | lockRetryExpire (island : Nat)
  | p1PowerSwitch
  | phaseP0End
  | phaseP1End
  | phaseP2End
  | phaseP3End
  | phaseP4End
  | phaseP5End
  | phaseP6End
  -- host attachment
  | pcieLinkUp (speed width : Nat)
  | perstNAssert
  | perstNRelease
  | lagoonRead (d : Nat)
  | lagoonWrite (d : Nat)
  | registerWrite (bar off : Nat) (v : RegData)
  | setupDoneWrite
  | sysResetWrite (v : BitVec 32)
  | islCtrlReset (v : BitVec 32)
  | resetCauseClear (v : BitVec 32)
  | qctrlFlush (queue : Nat)
  | ringEnable (ring : Nat)
  | ringDisable (ring : Nat)
  | ringStopDone (ring : Nat)
  | doorbellSqTail (ring : Nat) (v : BitVec 32)
  | doorbellCqHead (ring : Nat) (v : BitVec 32)
  | descriptorFetch
  | completionWrite (d : Nat) (dmaOk : Bool)
  | coalTimeExpire (ring : Nat)
  | msixVectorUnmask (w : MsixWrite)
  | evtStatusClear (half : Nat) (v : BitVec 32)
  | fenceZlrReturn (ring : Nat)
  | fenceZlrTimeout (ring : Nat)
  | nop (d : Nat)
  | deliverBuf (d : Nat)
  | deliverFlushExpire (ring : Nat)
  | deliverConfirm (d : Nat)
  | steerSet (d : Nat)
  -- meter table and profiles
  | meterEnrol (d : Nat)
  | meterRemove (d : Nat)
  | meterQuery (d : Nat)
  | routePin (d : Nat)
  | profileSet (d : Nat)
  | prefixAdd (d : Nat)
  | prefixDel (d : Nat)
  | tableReseed (d : Nat)
  | reseedShadowDone
  | tableSweep
  | tableRebuildDone
  | bucketReloadDone (slot : Nat)
  | ovfStoreReloadDone
  -- scheduler, intake and conversion commands
  | schedSet (d : Nat)
  | schedStats (d : Nat)
  | schedSatClear (v : BitVec 32)
  | quarRead (d : Nat)
  | quarRelease (d : Nat)
  | intakeStats (d : Nat)
  | intakeSet (d : Nat)
  | virialSet (d : Nat)
  | convTest (d : Nat)
  | convStats (d : Nat)
  | katRun (passA passB : Bool)
  -- ledger and tariffs
  | tariffCodeStable (code : Nat)
  | tariffOverrideExpire
  | calendarCross (cal : Nat)
  | billingSweep (cal : Nat)
  | tariffMapSet (d : Nat)
  | tariffOverride (d : Nat)
  | tariffFollow (d : Nat)
  | billCalSet (d : Nat)
  | custodySet (d : Nat)
  | ledgerRead (d : Nat)
  | profileRead (d : Nat)
  | auditRead (d : Nat)
  | ledgerSet (d : Nat)
  | ledgerStats (d : Nat)
  -- prepayment
  | friendlyEnd
  | valveRetry (short : Nat)
  | prepaySet (d : Nat)
  | topup (d : Nat)
  | valveCmd (d : Nat)
  | friendlySet (d : Nat)
  | prepayRead (d : Nat)
  | prepayLogRead (d : Nat)
  | prepayStats (d : Nat)
  -- balance, loss and theft
  | nodeSet (d : Nat)
  | nodeMember (d : Nat)
  | nodeRead (d : Nat)
  | nodeRelearn (d : Nat)
  | balReportRead (d : Nat)
  | indicatorRead (d : Nat)
  | indicatorClear (d : Nat)
  | balStats (d : Nat)
  -- power line
  | beaconPeriodStart (phase zcOffset : Nat)
  | plcFrameRx (f : PlcRx)
  | plcDownlinkTx (phase : Nat)
  | loadClassMeasure (phase noise imped period lag : Nat)
  | toneMapSend (tei : Nat)
  | pbHoldExpire (tei seq : Nat)
  | plcSet (d : Nat)
  | plcStationRead (d : Nat)
  | plcTonemapReset (d : Nat)
  | plcStats (d : Nat)
  -- radio
  | radioSlotStart (radio : Nat)
  | radioFrameRx (f : RadioRx)
  | childSilent (short : Nat)
  | radioSet (d : Nat)
  | radioProfileSet (d : Nat)
  | radioChildRead (d : Nat)
  | radioStats (d : Nat)
  -- wired ports
  | wiredPollDue (port address : Nat)
  | wiredResponse (port : Nat) (r : WiredRx)
  | wiredRespTimeout (port : Nat)
  | wiredSet (d : Nat)
  | wiredPollSet (d : Nat)
  | wiredPollRead (d : Nat)
  | wiredStats (d : Nat)
  -- time
  | rtcSetTick
  | ptpMessageRx (port : Nat) (m : PtpMsg)
  | ptpTxDue (port : Nat) (m : PtpTx)
  | ptpSourceLost
  | ppsEdge
  | ppsSourceLost
  | clockStepItem
  | leapSecond
  | clockValidChange
  | timeCheckDue (tei : Nat)
  | tpulseInstant (output : Nat)
  | timeCfg (d : Nat)
  | timeSet (d : Nat)
  | timeZoneSet (d : Nat)
  | tpulseSet (d : Nat)
  | timeRead (d : Nat)
  | timeStats (d : Nat)
  | timeNowNsRead
  -- archipelago
  | helloRx (h : Hello)
  | helloReplyRx (h : Hello)
  | confirmRx (isthmus : Bool) (member : Nat) (sigR sigS : Nat)
  | urrResetRx (member : Nat)
  | urrDatagramRx (bytes : Bytes)
  | urrHandshakeTimeout (member : Nat)
  | urrRekey (member : Nat)
  | urrKeepaliveDue (member : Nat)
  | urrSessionDead (member : Nat)
  | urrResend (member msgId : Nat)
  | urrGiveUp (member msgId : Nat)
  | urrJoinRetry
  | forwardSend (home : Nat)
  | fwdWaitExpire (home msgId : Nat)
  | fwdBusyExpire (home meter : Nat)
  | memWriteZlrDone (member msgId : Nat)
  | timeBroadcastDue
  | tariffBroadcastDue
  | bcastHoldLapse
  | archSet (d : Nat)
  | archDirSet (d : Nat)
  | archPeers (d : Nat)
  | rhostSet (d : Nat)
  | remoteReg (d : Nat)
  | archLeave (d : Nat)
  | archStats (d : Nat)
  -- pair
  | isthmusTrained
  | isthmusDown (lane : Bool)
  | renewSend
  | renewRx (renewNo leaseCyc guardCyc lastSeq : Nat)
  | renewAckRx (renewNo health : Nat)
  | leaseExpire
  | takeoverTimerExpire
  | leaseRxChange (level : Bool)
  | releaseRx (lastSeq : Nat)
  | journalRx (records : List JRec)
  | journalAckRx (seq : Nat)
  | mirrorTmoExpire
  | confirmedRx (seqs : List Nat)
  | catchupReqRx (fromSeq : Nat)
  | pairSet (d : Nat)
  | pairSwitch (d : Nat)
  | pairForce (d : Nat)
  | pairHealthRead (d : Nat)
  | pairStats (d : Nat)
  -- keys and tamper
  | keyUpdate (d : Nat)
  | keyEntryApply (d entry : Nat)
  | tamperSourceActive (source : Nat) (on : Bool)
  | killSequenceDone
  | keyStatusRead (d : Nat)
  | deviceKeyRead (d : Nat)
  | tamperClear (d : Nat)
  | tamperLatchW1c (v : BitVec 32)
  | debugChallenge (d : Nat)
  | debugUnlock (d : Nat)
  | debugLock (d : Nat)
  | keyStats (d : Nat)
  | challengeExpire
  | jtagDbgChal
  | jtagDbgResp (sigR sigS : Nat)
  | jtagScan
  | jtagBypass (code : Nat)
  -- flash store
  | checkpointStart
  | checkpointDone
  | flashPageProgram (stream : Nat)
  | collection (die : Nat)
  | programFail (die block : Nat)
  | eraseFail (die block : Nat)
  | dieFail (die : Nat)
  | nandTempSample (t : Int)
  | poolReclaim
  | hostnsSet (d : Nat)
  | hostnsRead (d : Nat) (corrected : List Nat)
  | hostnsWrite (d : Nat)
  | hostnsDiscard (d : Nat)
  | flashHealthRead (d : Nat)
  | flashCheckpoint (d : Nat)
  | flashStats (d : Nat)
  -- images and campaigns
  | imageBegin (d : Nat)
  | imageData (d : Nat)
  | imageEnd (d : Nat)
  | imageActivate (d : Nat)
  | activationGroupDone
  | imageRevert (d : Nat)
  | imageStatusRead (d : Nat)
  | trialWindowEnd (type : Nat)
  | imageConfirm (type : Nat)
  | campaignStart (d : Nat)
  | campaignQueryRound (campaign : Nat)
  | campaignStatus (d : Nat)
  | campaignCancel (d : Nat)
  | stageForward (d : Nat)
  | stageFree (d : Nat)
  -- recorder, background and debug
  | recorderSample (channel : Nat) (v : Int)
  | recorderFlushDue
  | recorderThawDue
  | recCursorWrite (v : BitVec 32)
  | recWindowLoaded
  | recWindowAutoInc
  | recStatusClear (v : BitVec 32)
  | cntSatClear (v : BitVec 32)
  | bgActivityDispatch (r : BgRun)
  | bgPeriodEnd (activity : Nat)
  | dramRetrain
  | recorderRead (d : Nat)
  | recorderFreeze (d : Nat)
  | recorderThaw (d : Nat)
  | recorderFlush (d : Nat)
  | recorderExtReset (d : Nat)
  | eccLogRead (d : Nat)
  | eccStats (d : Nat)
  | eccSet (d : Nat)
  | bgStats (d : Nat)
  | slewCtrlWrite (v : BitVec 32)
  | dbgItem0Read
  | pllLockLost (island : Nat)
  | ethLinkChange (port : Nat) (up : Bool) (speed : Nat) (full : Bool)
  | pcieLinkDown (dest : LinkDown)
  | mainsZeroCrossing (phase : Nat)
  | plcSackTimeout (tei : Nat)
  | radioPartnerFrameRx (f : RadioRx)
  | catchupCheckpointRx (n j seqs : Nat) (image : Db)
  | hostDmaCompletion (tag : Nat) (e : DmaEnd)
  deriving DecidableEq, Repr

end Sys2Proof
end

