-- ==== Sys2Proof/Decode.lean ====
section
/-! DEFINITION. The command that a word spells. No row of spec/opcode_table.json gives bits, so no word spells one. -/
namespace Sys2Proof

/-- The command spelled by a word of nbits bits: none, since the table gives no row a word. -/
def decodeTableWord (_nbits _w : Nat) : Option Instr := none

end Sys2Proof
end

