-- ==== Sys2Proof/Machine/Bytes.lean ====
section
/-! DEFINITION. Byte order, bit fields, signed numbers, saturation, and the tables sorted by number (R7, R102). -/
namespace Sys2Proof.Machine
open Sys2Proof

/-- Byte k of a string; 0 past its end. -/
def u8 (b : Bytes) (k : Nat) : Nat := (b.getD k 0).toNat

/-- n bytes from offset k, padded with zero bytes past the end. -/
def slice (b : Bytes) (k n : Nat) : Bytes := (List.range n).map (fun i => b.getD (k + i) 0)

/-- Unsigned number, least significant byte first (R7). -/
def leNat : Bytes → Nat
  | [] => 0
  | b :: r => b.toNat + 256 * leNat r

/-- Unsigned number, most significant byte first. -/
def beNat (b : Bytes) : Nat := b.foldl (fun a x => a * 256 + x.toNat) 0

/-- n bytes of a number, least significant first (R7). -/
def toLE (n v : Nat) : Bytes := (List.range n).map (fun i => BitVec.ofNat 8 (v / 256 ^ i))

/-- n bytes of a number, most significant first. -/
def toBE (n v : Nat) : Bytes := (toLE n v).reverse

def u16 (b : Bytes) (k : Nat) : Nat := u8 b k + 256 * u8 b (k + 1)
def u24 (b : Bytes) (k : Nat) : Nat := u16 b k + 65536 * u8 b (k + 2)
def u32 (b : Bytes) (k : Nat) : Nat := u16 b k + 65536 * u16 b (k + 2)
def u48 (b : Bytes) (k : Nat) : Nat := u32 b k + 2 ^ 32 * u16 b (k + 4)
def u64 (b : Bytes) (k : Nat) : Nat := u32 b k + 2 ^ 32 * u32 b (k + 4)

/-- Bits hi down to lo of a number. -/
def bits (v hi lo : Nat) : Nat := v / 2 ^ lo % 2 ^ (hi + 1 - lo)

/-- One bit of a number. -/
def bit (v k : Nat) : Bool := v / 2 ^ k % 2 == 1

/-- A truth value as 0 or 1. -/
def b2n (b : Bool) : Nat := if b then 1 else 0

/-- A bit mask number with bit k set, cleared. -/
def setBit (v k : Nat) : Nat := if bit v k then v else v + 2 ^ k
def clrBit (v k : Nat) : Nat := if bit v k then v - 2 ^ k else v

/-- v without the bits of m, of w bits. -/
def andNot (w v m : Nat) : Nat := ((BitVec.ofNat w v) &&& ~~~(BitVec.ofNat w m)).toNat

/-- Two's complement reading of w bits. -/
def toInt (w v : Nat) : Int := if v % 2 ^ w < 2 ^ (w - 1) then (v % 2 ^ w : Nat) else ((v % 2 ^ w : Nat) : Int) - 2 ^ w

/-- Two's complement of w bits. -/
def ofInt (w : Nat) (i : Int) : Nat := (i % (2 ^ w : Nat)).toNat

def i8 (b : Bytes) (k : Nat) : Int := toInt 8 (u8 b k)
def i16 (b : Bytes) (k : Nat) : Int := toInt 16 (u16 b k)
def i32 (b : Bytes) (k : Nat) : Int := toInt 32 (u32 b k)
def i64 (b : Bytes) (k : Nat) : Int := toInt 64 (u64 b k)

/-- Clamp to lo..hi. -/
def clampInt (lo hi v : Int) : Int := if v < lo then lo else if hi < v then hi else v

/-- Saturation to a signed number of w bits. -/
def satInt (w : Nat) (v : Int) : Int := clampInt (-(2 ^ (w - 1))) (2 ^ (w - 1) - 1) v

/-- Saturation to an unsigned number of w bits. -/
def satNat (w v : Nat) : Nat := if v < 2 ^ w then v else 2 ^ w - 1

/-- Floor division of integers rounding half away from zero. -/
def roundDiv (a : Int) (b : Nat) : Int :=
  if a < 0 then -(((2 * a.natAbs + b) / (2 * b) : Nat) : Int) else (((2 * a.natAbs + b) / (2 * b) : Nat) : Int)

/-- All bytes zero. -/
def allZero (b : Bytes) : Bool := b.all (· == 0)

/-- Replace element k of a list; unchanged where there is none. -/
def setAt {α : Type} : List α → Nat → α → List α
  | [], _, _ => []
  | _ :: r, 0, x => x :: r
  | y :: r, k + 1, x => y :: setAt r k x

/-- Change element k of a list; unchanged where there is none. -/
def modAt {α : Type} : List α → Nat → (α → α) → List α
  | [], _, _ => []
  | y :: r, 0, f => f y :: r
  | y :: r, k + 1, f => y :: modAt r k f

/-- Change the elements that satisfy p. -/
def modWhere {α : Type} (p : α → Bool) (f : α → α) (l : List α) : List α := l.map (fun x => if p x then f x else x)

/-- Cut a string into pieces of n bytes. -/
def chunksF : Nat → Nat → Bytes → List Bytes
  | 0, _, _ => []
  | k + 1, n, b => if b.isEmpty then [] else b.take n :: chunksF k n (b.drop n)

def chunks (n : Nat) (b : Bytes) : List Bytes := chunksF b.length n b

/-- Pad with zero bytes to n bytes. -/
def padTo (n : Nat) (b : Bytes) : Bytes := b ++ List.replicate (n - b.length) 0

/-- Bitwise sum of two strings, of the first's length. -/
def xorBytes (a b : Bytes) : Bytes := (List.range a.length).map (fun i => a.getD i 0 ^^^ b.getD i 0)

/-! Tables sorted by number. -/

/-- The value at a key. -/
def Tab.get {α : Type} (t : Tab α) (k : Nat) : Option α := (t.find? (fun p => p.1 == k)).map (·.2)

def Tab.getD {α : Type} (t : Tab α) (k : Nat) (d : α) : α := (Tab.get t k).getD d

/-- Set a key, keeping strictly rising keys. -/
def Tab.set {α : Type} : Tab α → Nat → α → Tab α
  | [], k, v => [(k, v)]
  | (j, x) :: r, k, v => if k < j then (k, v) :: (j, x) :: r else if k = j then (k, v) :: r else (j, x) :: Tab.set r k v

/-- Take a key out. -/
def Tab.del {α : Type} (t : Tab α) (k : Nat) : Tab α := t.filter (fun p => p.1 != k)

/-- Set or take out. -/
def Tab.put {α : Type} (t : Tab α) (k : Nat) : Option α → Tab α
  | some v => Tab.set t k v
  | none => Tab.del t k

/-- Change the value at a key; unchanged where there is none. -/
def Tab.mod {α : Type} (t : Tab α) (k : Nat) (f : α → α) : Tab α := t.map (fun p => if p.1 == k then (p.1, f p.2) else p)

/-- A table of integers that lists no zero. -/
def Tab.setInt (t : Tab Int) (k : Nat) (v : Int) : Tab Int := if v = 0 then Tab.del t k else Tab.set t k v

/-- A table of counters that lists no zero. -/
def Tab.setNat (t : Tab Nat) (k : Nat) (v : Nat) : Tab Nat := if v = 0 then Tab.del t k else Tab.set t k v

/-- CRC-32 of one byte: polynomial 0x04C11DB7 reflected (R8). -/
def crcByte (c : BitVec 32) (b : BitVec 8) : BitVec 32 :=
  (List.range 8).foldl (fun x _ => if x.getLsbD 0 then (x >>> 1) ^^^ 0xEDB88320 else x >>> 1) (c ^^^ b.setWidth 32)

/-- CRC-32 (R8): preset all ones, reflected, final inversion. -/
def crc32 (b : Bytes) : BitVec 32 := ~~~(b.foldl crcByte (BitVec.allOnes 32))

end Sys2Proof.Machine
end

