-- ==== Sys2Proof/Machine/Crypto.lean ====
section
/-! DEFINITION. The published algorithms that chapters 08, 17, 19 and 21 name: AES (FIPS 197), GCM (SP 800-38D), key wrap (SP 800-38F),
SHA-384 (FIPS 180-4), HMAC and HKDF (RFC 2104, RFC 5869), and ECDSA and ECDH on P-384 (FIPS 186-4). PRESUMED from those publications,
which the manual names and does not restate: log 14. -/
namespace Sys2Proof.Machine
open Sys2Proof

/-! AES. -/

def aesXtime (x : Nat) : Nat := if x < 128 then 2 * x else (2 * x - 256) ^^^ 0x1B

def aesMulF : Nat → Nat → Nat → Nat
  | 0, _, _ => 0
  | k + 1, a, b => (if b % 2 = 1 then a else 0) ^^^ aesMulF k (aesXtime a) (b / 2)

def aesMul (a b : Nat) : Nat := aesMulF 8 a b

/-- Inverse in GF(2^8): the 254th power. -/
def aesInv (x : Nat) : Nat :=
  let x2 := aesMul x x
  let x4 := aesMul x2 x2
  let x8 := aesMul x4 x4
  let x16 := aesMul x8 x8
  let x32 := aesMul x16 x16
  let x64 := aesMul x32 x32
  let x128 := aesMul x64 x64
  aesMul x128 (aesMul x64 (aesMul x32 (aesMul x16 (aesMul x8 (aesMul x4 x2)))))

def rotl8 (x k : Nat) : Nat := (x * 2 ^ k) % 256 + x / 2 ^ (8 - k)

def aesSbox (x : Nat) : Nat :=
  let i := aesInv x
  i ^^^ rotl8 i 1 ^^^ rotl8 i 2 ^^^ rotl8 i 3 ^^^ rotl8 i 4 ^^^ 0x63

def aesInvSbox (x : Nat) : Nat := aesInv (rotl8 x 1 ^^^ rotl8 x 3 ^^^ rotl8 x 6 ^^^ 5)

/-- Expanded key: 4-byte words, newest last; nk = 4 or 8 words of key. -/
def aesExpandF (nk : Nat) : Nat → Nat → Nat → List (List Nat) → List (List Nat)
  | 0, _, _, ws => ws
  | f + 1, i, rcon, ws =>
    let t := ws.getD (i - 1) []
    let old := ws.getD (i - nk) []
    let t' := if i % nk = 0 then
        match (t.drop 1 ++ t.take 1).map aesSbox with
        | a :: r => (a ^^^ rcon) :: r
        | [] => []
      else if nk = 8 ∧ i % nk = 4 then t.map aesSbox else t
    aesExpandF nk f (i + 1) (if i % nk = 0 then aesXtime rcon else rcon) (ws ++ [List.zipWith (· ^^^ ·) old t'])

def groups4F : Nat → List Nat → List (List Nat)
  | 0, _ => []
  | f + 1, l => if l.isEmpty then [] else l.take 4 :: groups4F f (l.drop 4)

/-- Round keys of 16 bytes each: 11 for a 16-byte key, 15 for a 32-byte key. -/
def aesRoundKeys (key : Bytes) : List (List Nat) :=
  let nk := key.length / 4
  let ws := aesExpandF nk (4 * (nk + 7) - nk) nk 1 (groups4F nk (key.map (·.toNat)))
  (List.range (nk + 7)).map (fun r => (ws.drop (4 * r)).take 4 |>.flatten)

def aesShiftRows (s : List Nat) : List Nat := (List.range 16).map (fun i => s.getD ((i + 4 * (i % 4)) % 16) 0)
def aesInvShiftRows (s : List Nat) : List Nat := (List.range 16).map (fun i => s.getD ((i + 12 * (i % 4)) % 16) 0)

def aesMix (c : List Nat) (s : List Nat) : List Nat :=
  (List.range 16).map (fun i =>
    let col := 4 * (i / 4)
    (List.range 4).foldl (fun a j => a ^^^ aesMul (c.getD ((j + 4 - i % 4) % 4) 0) (s.getD (col + j) 0)) 0)

def xorNats (a b : List Nat) : List Nat := List.zipWith (· ^^^ ·) a b

def aesEncWith (ks : List (List Nat)) (b : List Nat) : List Nat :=
  let last := ks.length - 1
  let mid := (ks.drop 1).take (last - 1)
  let s := mid.foldl (fun s k => xorNats (aesMix [2, 3, 1, 1] (aesShiftRows (s.map aesSbox))) k) (xorNats b (ks.getD 0 []))
  xorNats (aesShiftRows (s.map aesSbox)) (ks.getD last [])

def aesDecWith (ks : List (List Nat)) (b : List Nat) : List Nat :=
  let last := ks.length - 1
  let mid := ((ks.drop 1).take (last - 1)).reverse
  let s := mid.foldl (fun s k => aesMix [14, 11, 13, 9] (xorNats ((aesInvShiftRows s).map aesInvSbox) k)) (xorNats b (ks.getD last []))
  xorNats ((aesInvShiftRows s).map aesInvSbox) (ks.getD 0 [])

def ofNats (l : List Nat) : Bytes := l.map (BitVec.ofNat 8)

/-- AES encryption of one block under a 16- or 32-byte key. -/
def aesEnc (key block : Bytes) : Bytes := ofNats (aesEncWith (aesRoundKeys key) (block.map (·.toNat)))

/-! GCM. -/

def ghashMulF : Nat → Nat → Nat → Nat → Nat
  | 0, _, _, z => z
  | k + 1, x, v, z =>
    ghashMulF k x (if v % 2 = 1 then (v / 2) ^^^ (0xE1 * 2 ^ 120) else v / 2) (if bit x k then z ^^^ v else z)

def ghashMul (x y : Nat) : Nat := ghashMulF 128 x y 0

def ghash (h : Nat) (b : Bytes) : Nat := (chunks 16 b).foldl (fun y c => ghashMul (y ^^^ beNat (padTo 16 c)) h) 0

def pad16 (b : Bytes) : Bytes := b ++ List.replicate ((16 - b.length % 16) % 16) 0

/-- Counter-mode key stream over the text, first counter c. -/
def gcmCtr (ks : List (List Nat)) (iv : Bytes) (c : Nat) (text : Bytes) : Bytes :=
  ((chunks 16 text).zipIdx.map (fun p =>
    xorBytes p.1 (ofNats (aesEncWith ks ((iv ++ toBE 4 (c + p.2)).map (·.toNat)))))).flatten

def gcmTag (ks : List (List Nat)) (iv aad ct : Bytes) : Bytes :=
  let h := beNat (ofNats (aesEncWith ks (List.replicate 16 0)))
  let y := ghash h (pad16 aad ++ pad16 ct ++ toBE 8 (8 * aad.length) ++ toBE 8 (8 * ct.length))
  xorBytes (toBE 16 y) (ofNats (aesEncWith ks ((iv ++ toBE 4 1).map (·.toNat))))

/-- AES-GCM with a 12-byte nonce: ciphertext and 16-byte tag. -/
def gcmSeal (key iv aad text : Bytes) : Bytes × Bytes :=
  let ks := aesRoundKeys key
  let ct := gcmCtr ks iv 2 text
  (ct, gcmTag ks iv aad ct)

/-- Opens a GCM text whose tag is the first bytes of the full tag; none where the tag fails. -/
def gcmOpen (key iv aad ct tag : Bytes) : Option Bytes :=
  let ks := aesRoundKeys key
  if (gcmTag ks iv aad ct).take tag.length = tag then some (gcmCtr ks iv 2 ct) else none

/-! Key wrap of SP 800-38F (KW): n 64-bit halves. -/

def kwWrapF (ks : List (List Nat)) (n : Nat) : Nat → Nat → Nat → List Nat → Nat × List Nat
  | 0, _, a, r => (a, r)
  | f + 1, t, a, r =>
    let i := (t - 1) % n
    let b := beNat (ofNats (aesEncWith ks ((toBE 8 a ++ toBE 8 (r.getD i 0)).map (·.toNat))))
    kwWrapF ks n f (t + 1) ((b / 2 ^ 64) ^^^ t) (setAt r i (b % 2 ^ 64))

def kwUnwrapF (ks : List (List Nat)) (n : Nat) : Nat → Nat → List Nat → Nat × List Nat
  | 0, a, r => (a, r)
  | t + 1, a, r =>
    let i := t % n
    let b := beNat (ofNats (aesDecWith ks ((toBE 8 (a ^^^ (t + 1)) ++ toBE 8 (r.getD i 0)).map (·.toNat))))
    kwUnwrapF ks n t (b / 2 ^ 64) (setAt r i (b % 2 ^ 64))

def kwWrap (key text : Bytes) : Bytes :=
  let r := (chunks 8 text).map beNat
  let (a, r') := kwWrapF (aesRoundKeys key) r.length (6 * r.length) 1 0xA6A6A6A6A6A6A6A6 r
  toBE 8 a ++ (r'.map (toBE 8)).flatten

def kwUnwrap (key text : Bytes) : Option Bytes :=
  match (chunks 8 text).map beNat with
  | [] => none
  | a :: r =>
    let (a', r') := kwUnwrapF (aesRoundKeys key) r.length (6 * r.length) a r
    if a' = 0xA6A6A6A6A6A6A6A6 then some ((r'.map (toBE 8)).flatten) else none

/-! SHA-384. -/

/-- The fractions of the cube roots of the first 80 primes, 64 bits each: one number for five primes. -/
def shaCubeRoots : List Nat :=
  [0x428a2f98d728ae227137449123ef65cdb5c0fbcfec4d3b2fe9b5dba58189dbbc3956c25bf348b538,
   0x59f111f1b605d019923f82a4af194f9bab1c5ed5da6d8118d807aa98a303024212835b0145706fbe,
   0x243185be4ee4b28c550c7dc3d5ffb4e272be5d74f27b896f80deb1fe3b1696b19bdc06a725c71235,
   0xc19bf174cf692694e49b69c19ef14ad2efbe4786384f25e30fc19dc68b8cd5b5240ca1cc77ac9c65,
   0x2de92c6f592b02754a7484aa6ea6e4835cb0a9dcbd41fbd476f988da831153b5983e5152ee66dfab,
   0xa831c66d2db43210b00327c898fb213fbf597fc7beef0ee4c6e00bf33da88fc2d5a79147930aa725,
   0x06ca6351e003826f142929670a0e6e7027b70a8546d22ffc2e1b21385c26c9264d2c6dfc5ac42aed,
   0x53380d139d95b3df650a73548baf63de766a0abb3c77b2a881c2c92e47edaee692722c851482353b] ++
  [0xa2bfe8a14cf10364a81a664bbc423001c24b8b70d0f89791c76c51a30654be30d192e819d6ef5218,
   0xd69906245565a910f40e35855771202a106aa07032bbd1b819a4c116b8d2d0c81e376c085141ab53,
   0x2748774cdf8eeb9934b0bcb5e19b48a8391c0cb3c5c95a634ed8aa4ae3418acb5b9cca4f7763e373,
   0x682e6ff3d6b2b8a3748f82ee5defb2fc78a5636f43172f6084c87814a1f0ab728cc702081a6439ec,
   0x90befffa23631e28a4506cebde82bde9bef9a3f7b2c67915c67178f2e372532bca273eceea26619c,
   0xd186b8c721c0c207eada7dd6cde0eb1ef57d4f7fee6ed17806f067aa72176fba0a637dc5a2c898a6,
   0x113f9804bef90dae1b710b35131c471b28db77f523047d8432caab7b40c724933c9ebe0a15c9bebc,
   0x431d67c49c100d4c4cc5d4becb3e42b6597f299cfc657e2a5fcb6fab3ad6faec6c44198c4a475817]

/-- Round constants of SHA-384. -/
def shaK : List Nat :=
  shaCubeRoots.flatMap fun five => [256, 192, 128, 64, 0].map fun at_ => five / 2 ^ at_ % 2 ^ 64

/-- Initial value of SHA-384: fractions of the square roots of the 9th to 16th primes. -/
def sha384Init : List Nat :=
  [0xcbbb9d5dc1059ed8629a292a367cd5079159015a3070dd17152fecd8f70e5939, 0x67332667ffc00b318eb44a8768581511db0c2e0d64f98fa747b5481dbefa4fa4].flatMap fun four =>
    [192, 128, 64, 0].map fun at_ => four / 2 ^ at_ % 2 ^ 64

/-- What FIPS 180-4 makes of a word for one size of hash: the word's bits, the rotations whose sum a round takes of its first and of its fifth
word, and the two rotations and the shift for a word of the schedule from 15 and from 2 words before. -/
structure ShaSize where
  bits : Nat
  first : List Nat
  fifth : List Nat
  from15 : List Nat × Nat
  from2 : List Nat × Nat
deriving DecidableEq, Repr

def shaSize64 : ShaSize := { bits := 64, first := [28, 34, 39], fifth := [14, 18, 41], from15 := ([1, 8], 7), from2 := ([19, 61], 6) }
def shaSize32 : ShaSize := { bits := 32, first := [2, 13, 22], fifth := [6, 11, 25], from15 := ([7, 18], 3), from2 := ([17, 19], 10) }

/-- Exclusive or of a word's rotations to the right. -/
def shaTurns (z : ShaSize) (ks : List Nat) (x : Nat) : Nat :=
  ks.foldl (fun acc k => acc ^^^ (x >>> k ||| (x % 2 ^ k) <<< (z.bits - k))) 0

/-- The schedule, n words longer. -/
def shaSchedule (z : ShaSize) : Nat → List Nat → List Nat
  | 0, w => w
  | n + 1, w =>
    let back := fun k => w.getD (w.length - k) 0
    let mix := fun (p : List Nat × Nat) x => shaTurns z p.1 x ^^^ x >>> p.2
    shaSchedule z n (w ++ [(mix z.from15 (back 15) + mix z.from2 (back 2) + back 16 + back 7) % 2 ^ z.bits])

/-- One round: from the eight words, the round constant and word of the schedule. A bit of the fifth word picks the sixth's or the seventh's,
and the first three words' bits vote. -/
def shaRound (z : ShaSize) (v : List Nat) (kw : Nat × Nat) : List Nat :=
  let x := fun n => v.getD n 0
  let pick := x 6 ^^^ (x 4 &&& (x 5 ^^^ x 6))
  let vote := (x 0 &&& (x 1 ||| x 2)) ||| (x 1 &&& x 2)
  let t := x 7 + shaTurns z z.fifth (x 4) + pick + kw.1 + kw.2
  ((t + shaTurns z z.first (x 0) + vote) % 2 ^ z.bits) :: v.take 3 ++ ((x 3 + t) % 2 ^ z.bits) :: (v.drop 4).take 3

/-- The hash so far and a block of sixteen words. -/
def shaBlock (z : ShaSize) (ks h : List Nat) (block : Bytes) : List Nat :=
  let w := shaSchedule z (ks.length - 16) ((chunks (z.bits / 8) block).map beNat)
  List.zipWith (fun a b => (a + b) % 2 ^ z.bits) h ((ks.zip w).foldl (shaRound z) h)

/-- The hash of a message: one bit 1, zeros, and its length in bits in the last two words of the last block. -/
def shaOf (z : ShaSize) (ks init : List Nat) (m : Bytes) : Bytes :=
  let len := z.bits / 4
  let fill := (2 * z.bits - (m.length + 1 + len) % (2 * z.bits)) % (2 * z.bits)
  ((chunks (2 * z.bits) (m ++ [0x80] ++ List.replicate fill 0 ++ toBE len (8 * m.length))).foldl (shaBlock z ks) init).flatMap (toBE (z.bits / 8))

/-- SHA-384: 48 bytes. -/
def sha384 (m : Bytes) : Bytes := (shaOf shaSize64 shaK sha384Init m).take 48

def hmac384 (key m : Bytes) : Bytes :=
  let k := padTo 128 (if key.length > 128 then sha384 key else key)
  sha384 (k.map (· ^^^ 0x5C) ++ sha384 (k.map (· ^^^ 0x36) ++ m))

/-! SHA-256: the same primes give its constants, in the upper 32 bits. -/

def shaK256 : List Nat := (shaK.take 64).map (· / 2 ^ 32)
/-- Initial value: fractions of the square roots of the first 8 primes, 32 bits each. -/
def sha256Init : List Nat :=
  [7, 6, 5, 4, 3, 2, 1, 0].map fun at_ => 0x6a09e667bb67ae853c6ef372a54ff53a510e527f9b05688c1f83d9ab5be0cd19 / 2 ^ (32 * at_) % 2 ^ 32

/-- SHA-256: 32 bytes. -/
def sha256 (m : Bytes) : Bytes := shaOf shaSize32 shaK256 sha256Init m

/-- HMAC with SHA-256 (R91). -/
def hmac256 (key m : Bytes) : Bytes :=
  let k := padTo 64 (if key.length > 64 then sha256 key else key)
  sha256 (k.map (· ^^^ 0x5C) ++ sha256 (k.map (· ^^^ 0x36) ++ m))

def hkdfExpandF (prk info : Bytes) : Nat → Nat → Bytes → Bytes
  | 0, _, _ => []
  | f + 1, i, t =>
    let t' := hmac384 prk (t ++ info ++ [BitVec.ofNat 8 i])
    t' ++ hkdfExpandF prk info f (i + 1) t'

/-- HKDF with SHA-384: n bytes. -/
def hkdf384 (salt ikm info : Bytes) (n : Nat) : Bytes :=
  (hkdfExpandF (hmac384 salt ikm) info ((n + 47) / 48) 1 []).take n

/-! P-384. -/

def p384P : Nat := 2 ^ 384 - 2 ^ 128 - 2 ^ 96 + 2 ^ 32 - 1
def p384N : Nat := 0xffffffffffffffffffffffffffffffffffffffffffffffffc7634d81f4372ddf581a0db248b0a77aecec196accc52973
def p384B : Nat := 0xb3312fa7e23ee7e4988e056be3f82d19181d9c6efe8141120314088f5013875ac656398d8a2ed19d2a85c8edd3ec2aef
def p384G : Nat × Nat :=
  (0xaa87ca22be8b05378eb1c71ef320ad746e1d3b628ba79b9859f741e082542a385502f25dbf55296c3a545e3872760ab7,
   0x3617de4a96262c6f5d9e98bf9292dc29f8f41dbd289a147ce9da3113b5f0b8c00a60b1ce1d7e819d7a431d7c90ea0e5f)

/-- Square and multiply, four bits of the exponent at a time (the top digit first). -/
def powModF (m b e : Nat) : Nat → Nat → Nat
  | 0, r => r
  | k + 1, r => powModF m b e k (r ^ 16 % m * (b ^ (e / 16 ^ k % 16) % m) % m)

/-- Inverse modulo a prime below 2^384. -/
def invMod (x m : Nat) : Nat := powModF m (x % m) (m - 2) 96 1

def subP (a b : Nat) : Nat := (a + p384P - b % p384P) % p384P

/-- Affine addition; none is the point at infinity. -/
def ecAdd : Option (Nat × Nat) → Option (Nat × Nat) → Option (Nat × Nat)
  | none, q => q
  | p, none => p
  | some (x1, y1), some (x2, y2) =>
    if x1 = x2 ∧ (y1 + y2) % p384P = 0 then none
    else
      let l := if x1 = x2 then (subP (3 * x1 * x1 % p384P) 3) * invMod (2 * y1) p384P % p384P
        else subP y2 y1 * invMod (subP x2 x1) p384P % p384P
      let x3 := subP (subP (l * l % p384P) x1) x2
      some (x3, subP (l * subP x1 x3 % p384P) y1)

/-- A point as (X, Y, Z), standing for (X / Z², Y / Z³); Z = 0 is the point at infinity. -/
structure Jac where
  x : Nat
  y : Nat
  z : Nat
deriving DecidableEq, Repr

/-- Twice a point of the curve y² = x³ - 3 x + b. -/
def jacDouble (p : Jac) : Jac :=
  if p.z = 0 ∨ p.y = 0 then ⟨1, 1, 0⟩
  else
    let d := p.z * p.z % p384P
    let g := p.y * p.y % p384P
    let b := p.x * g % p384P
    let a := 3 * subP p.x d * (p.x + d) % p384P
    let x3 := subP (a * a % p384P) (8 * b)
    ⟨x3, subP (a * subP (4 * b) x3 % p384P) (8 * g * g), 2 * p.y * p.z % p384P⟩

/-- A point and an affine point together. -/
def jacAdd (p : Jac) (q : Nat × Nat) : Jac :=
  if p.z = 0 then ⟨q.1, q.2, 1⟩
  else
    let zz := p.z * p.z % p384P
    let h := subP (q.1 * zz) p.x
    let r := subP (q.2 * zz * p.z) p.y
    if h = 0 then (if r = 0 then jacDouble p else ⟨1, 1, 0⟩)
    else
      let hh := h * h % p384P
      let v := p.x * hh % p384P
      let x3 := subP (r * r % p384P) (h * hh + 2 * v)
      ⟨x3, subP (r * subP v x3 % p384P) (p.y * h * hh), p.z * h % p384P⟩

def ecMulF (k : Nat) (p : Nat × Nat) : Nat → Jac → Jac
  | 0, r => r
  | i + 1, r => ecMulF k p i (if bit k i then jacAdd (jacDouble r) p else jacDouble r)

/-- k times an affine point, k below 2^384. -/
def ecMul (k : Nat) (p : Nat × Nat) : Option (Nat × Nat) :=
  let r := ecMulF k p 384 ⟨1, 1, 0⟩
  if r.z = 0 then none
  else
    let w := invMod r.z p384P
    some (r.x * w * w % p384P, r.y * w * w * w % p384P)

def ecOnCurve (p : Nat × Nat) : Bool :=
  p.1 < p384P && p.2 < p384P && (p.2 * p.2 % p384P == (p.1 * p.1 * p.1 + (p384P - 3) * p.1 + p384B) % p384P)

/-- ECDSA verification over a message, hash SHA-384. -/
def ecdsaVerify (pub : Nat × Nat) (m : Bytes) (r s : Nat) : Bool :=
  if r = 0 ∨ s = 0 ∨ p384N ≤ r ∨ p384N ≤ s ∨ ecOnCurve pub = false then false
  else
    let e := beNat (sha384 m)
    let w := invMod s p384N
    match ecAdd (ecMul (e * w % p384N) p384G) (ecMul (r * w % p384N) pub) with
    | none => false
    | some (x, _) => x % p384N == r

/-- ECDSA signature with private key d and the drawn number k. -/
def ecdsaSign (d k0 : Nat) (m : Bytes) : Nat × Nat :=
  let k := k0 % (p384N - 1) + 1
  let r := ((ecMul k p384G).map (·.1)).getD 0 % p384N
  (r, invMod k p384N * (beNat (sha384 m) + r * d) % p384N)

/-- Public key of a private key. -/
def ecPub (d : Nat) : Nat × Nat := (ecMul d p384G).getD (0, 0)

/-- ECDH: the x coordinate of the shared point, 48 bytes. -/
def ecdh (d : Nat) (pub : Nat × Nat) : Bytes := toBE 48 (((ecMul d pub).map (·.1)).getD 0)

end Sys2Proof.Machine
end

