-- ==== Sys2Proof/Config.lean ====
section
/-! DEFINITION. What an implementation fixes and the free values: constants without a body, so that nothing can be proved of
their value. A meaning applies one to State.free (a plain counter) or to the operands it depends on. -/
namespace Sys2Proof.Config

/-- Keyed 64-bit hash of a meter identity: root secret, HASH_EPOCH, identity (R133: internal to the die). Log entry 3. -/
opaque meterHash : Nat → Nat → Nat → BitVec 64

/-- Keyed flow hash of the scheduler: TRNG draw at the release of ATOLL, FLOW_SPACE, FLOW_KEY (R157). Log entry 3. -/
opaque flowHash : Nat → Nat → Nat → Nat

/-- A draw of the TRNG (R97, R157, R369, R410, R414, R430, R468): nothing constrains it. Log entry 4. -/
opaque trng : Nat → BitVec 512

/-- A byte whose value the manual leaves undefined. Log entry 5. -/
opaque freeByte : Nat → BitVec 8

/-- A choice the manual leaves open between two outcomes (R23: a word with three or more failing symbols). Log entry 5. -/
opaque freeBool : Nat → Bool

/-- A number the manual leaves open. Log entry 5. -/
opaque freeNat : Nat → Nat

/-- The resonator's rate error in ppb (R74). Log entry 6. -/
opaque resonator : Int

/-- The module's own clock identity (R354). Log entry 7. -/
opaque clockIdentity : BitVec 64

/-- A signed number the manual leaves open (R350: the offset of the loaded counter). Log entry 6. -/
opaque freeInt : Nat → Int

/-- The 128-bit content read from a word that was miscorrected (R23). Log entry 5. -/
opaque freeWord : Nat → BitVec 128

/-- UNIT_ID, one-time bits programmed at module test (R408). Log entry 7. -/
opaque unitId : BitVec 96

/-- Hash of the Ovkeja image public key is in one-time bits (R457); the key itself: affine coordinates. Log entry 7. -/
opaque imageKey : Nat × Nat

/-- Factory value of PTP_LAT_p_s (R355, table of chapter 16): port, speed; EGRESS in [31:16], INGRESS in [15:0]. Log entry 7. -/
opaque ptpLatFactory : Nat → Nat → BitVec 32

/-- Air time in µs of an OFDM frame of a mode and a number of octets: the standard's, which the manual does not restate (R311).
Log entry 5. -/
opaque ofdmAir : Nat → Nat → Nat

/-- PA credits for a conducted power below +27 dBm, by power + 10 (R70: not stated). Log entry 5. -/
opaque paCredits : Nat → Nat

/-- HANDLER codes of the firmware (R151: not stated): 0 readings, 1 host commands. Log entry 5. -/
opaque handler : Nat → Nat

/-- Idle grant of an island in credits of 50 mW, which P1 gives it (R65, R69: not stated). Log entry 5. -/
opaque idleGrant : Nat → Nat

/-- Factory bad blocks of a die (R431: at most 220 per die). Log entry 7. -/
opaque factoryBad : Nat → Nat

/-- VERSION and TYPE_INFO of the image of a type that the module left the factory with (R457). Log entry 7. -/
opaque factoryImage : Nat → Nat × Nat

/-- What the lagoon's scrambler adds to a unit: draw and unit (R97: not stated). Log entry 100. -/
opaque scramble : Nat → Nat → BitVec 128

/-- Check symbols of the (144,128) code for 128 data bits (R23: not stated). Log entry 100. -/
opaque checkSymbols : BitVec 128 → BitVec 16

end Sys2Proof.Config
end

