-- ==== Sys2Proof/Machine/Float.lean ====
section
/-! DEFINITION. IEEE 754 binary64 as R201 uses it: every operation correctly rounded to nearest, ties to even. Values are the 64 bits.
A result that is not a number is held as one fixed pattern (log 15). -/
namespace Sys2Proof.Machine
open Sys2Proof

def fNan : F64 := 0x7FF8000000000000
def fInf (s : Bool) : F64 := if s then 0xFFF0000000000000 else 0x7FF0000000000000
def fZero : F64 := 0
def fSign (x : F64) : Bool := x.getLsbD 63
def fExpField (x : F64) : Nat := x.toNat / 2 ^ 52 % 2048
def fFrac (x : F64) : Nat := x.toNat % 2 ^ 52
def fFinite (x : F64) : Bool := fExpField x != 2047
def fIsNan (x : F64) : Bool := fExpField x == 2047 && fFrac x != 0

/-- Integer mantissa and exponent of a finite value. -/
def fMant (x : F64) : Nat := if fExpField x = 0 then fFrac x else fFrac x + 2 ^ 52
def fExp (x : F64) : Int := if fExpField x = 0 then -1074 else (fExpField x : Int) - 1075

/-- v times 2^e, as a fraction. -/
def scaleNum (v : Nat) (e : Int) : Nat := if e < 0 then v else v * 2 ^ e.toNat
def scaleDen (d : Nat) (e : Int) : Nat := if e < 0 then d * 2 ^ (-e).toNat else d

/-- n / d rounded to the nearest integer, ties to even. -/
def halfEven (n d : Nat) : Nat :=
  let q := n / d
  let r := 2 * (n % d)
  if r < d then q else if d < r then q + 1 else if q % 2 = 0 then q else q + 1

/-- The binary64 value nearest to n / d, with sign s (R201). -/
def fRound (s : Bool) (n d : Nat) : F64 :=
  let sg : Nat := if s then 2 ^ 63 else 0
  if n = 0 then BitVec.ofNat 64 sg
  else
    let e0 : Int := (n.log2 : Int) - d.log2 - 52
    let e1 : Int := if scaleNum n (-e0) < 2 ^ 52 * scaleDen d (-e0) then e0 - 1 else e0
    let e : Int := if e1 < -1074 then -1074 else e1
    let q := halfEven (scaleNum n (-e)) (scaleDen d (-e))
    let b : Nat := if q < 2 ^ 52 then q else (e + 1075).toNat * 2 ^ 52 + (q - 2 ^ 52)
    if 2047 * 2 ^ 52 ≤ b then fInf s else BitVec.ofNat 64 (sg + b)

/-- A finite value as a fraction: signed numerator, denominator a power of two. -/
def fNum (x : F64) : Int :=
  let v : Int := scaleNum (fMant x) (fExp x)
  if fSign x then -v else v
def fDen (x : F64) : Nat := scaleDen 1 (fExp x)

def fOfRat (n : Int) (d : Nat) : F64 := fRound (n < 0) n.natAbs d

/-- The binary64 value nearest to an integer (R202). -/
def fOfInt (n : Int) : F64 := fOfRat n 1
def fOfNat (n : Nat) : F64 := fRound false n 1

/-- The binary64 value nearest to m × 10^k (decimal constants, R201). -/
def fDec (m k : Int) : F64 := if k < 0 then fOfRat m (10 ^ (-k).toNat) else fOfRat (m * 10 ^ k.toNat) 1

def fNeg (x : F64) : F64 := x ^^^ 0x8000000000000000

def fAdd (x y : F64) : F64 :=
  if fIsNan x || fIsNan y then fNan
  else if !fFinite x then (if !fFinite y && fSign x != fSign y then fNan else x)
  else if !fFinite y then y
  else if fMant x == 0 && fMant y == 0 then (if fSign x && fSign y then x else fZero)
  else
    let n : Int := fNum x * fDen y + fNum y * fDen x
    fOfRat n (fDen x * fDen y)

def fSub (x y : F64) : F64 := fAdd x (fNeg y)

def fMul (x y : F64) : F64 :=
  let s := fSign x != fSign y
  if fIsNan x || fIsNan y then fNan
  else if !fFinite x || !fFinite y then (if x &&& 0x7FFFFFFFFFFFFFFF == 0 || y &&& 0x7FFFFFFFFFFFFFFF == 0 then fNan else fInf s)
  else fRound s ((fNum x).natAbs * (fNum y).natAbs) (fDen x * fDen y)

def fDiv (x y : F64) : F64 :=
  let s := fSign x != fSign y
  if fIsNan x || fIsNan y then fNan
  else if !fFinite x then (if fFinite y then fInf s else fNan)
  else if !fFinite y then fRound s 0 1
  else if fMant y == 0 then (if fMant x == 0 then fNan else fInf s)
  else fRound s ((fNum x).natAbs * fDen y) (fDen x * (fNum y).natAbs)

def isqrtF (v : Nat) : Nat → Nat → Nat
  | 0, x => x
  | f + 1, x => isqrtF v f (let y := x + 2 ^ f; if y * y ≤ v then y else x)

/-- Integer square root. -/
def isqrt (v : Nat) : Nat := isqrtF v (v.log2 / 2 + 1) 0

/-- Square root, correctly rounded (R201): 60 and more bits of the root and a sticky bit decide the rounding. -/
def fSqrt (x : F64) : F64 :=
  if fIsNan x then fNan
  else if fMant x == 0 then x
  else if fSign x then fNan
  else if !fFinite x then x
  else
    let e := fExp x
    let m := if e % 2 = 0 then fMant x else 2 * fMant x
    let h : Int := (if e % 2 = 0 then e else e - 1) / 2
    let w := m * 2 ^ 128
    let r := isqrt w
    let r2 := 2 * r + (if r * r = w then 0 else 1)
    let k : Int := h - 65
    fRound false (scaleNum r2 k) (scaleDen 1 k)

def fLt (x y : F64) : Bool :=
  if fIsNan x || fIsNan y then false
  else
    let key := fun z : F64 => if fSign z then -((z.toNat % 2 ^ 63 : Nat) : Int) else ((z.toNat % 2 ^ 63 : Nat) : Int)
    key x < key y

def fLe (x y : F64) : Bool := fLt x y || (!fIsNan x && !fIsNan y && !fLt y x)
def fGt (x y : F64) : Bool := fLt y x
def fMax0 (x : F64) : F64 := if fLt fZero x then x else fZero

/-- x^k as the left-to-right product, x^0 = 1, x^(-k) = 1 / x^k (R201). -/
def fPowNat (x : F64) : Nat → F64
  | 0 => 0x3FF0000000000000
  | 1 => x
  | k + 2 => fMul (fPowNat x (k + 1)) x

def fOne : F64 := 0x3FF0000000000000

def fPow (x : F64) (k : Int) : F64 := if k < 0 then fDiv fOne (fPowNat x (-k).toNat) else fPowNat x k.toNat

/-- The integer nearest to a finite value, ties to even (round_half_even of R203). -/
def fToInt (x : F64) : Int :=
  let n := fNum x
  let q : Int := halfEven n.natAbs (fDen x)
  if n < 0 then -q else q

/-- n / d rounded to the nearest integer, ties to even, for a signed n (R190, R229, R278). -/
def ratHalfEven (n : Int) (d : Nat) : Int :=
  let q : Int := halfEven n.natAbs d
  if n < 0 then -q else q

/-- The integer a with decimal exponent d (R202). -/
def fDecode (a d : Int) : F64 :=
  if d < 0 then fDiv (fOfInt a) (fDec 1 (-d)) else fMul (fOfInt a) (fDec 1 d)

/-- binary64 at a byte offset (R199). -/
def f64 (b : Bytes) (k : Nat) : F64 := BitVec.ofNat 64 (u64 b k)

/-- The binary32 value nearest to a finite binary64, as bits (R282, LOSS and GAIN reports). -/
def fTo32 (x : F64) : Nat :=
  let sg : Nat := if fSign x then 2 ^ 31 else 0
  if !fFinite x then sg + 0x7F800000 + (if fIsNan x then 0x400000 else 0)
  else
    let n := (fNum x).natAbs
    let d := fDen x
    if n = 0 then sg
    else
      let e0 : Int := (n.log2 : Int) - d.log2 - 23
      let e1 : Int := if scaleNum n (-e0) < 2 ^ 23 * scaleDen d (-e0) then e0 - 1 else e0
      let e : Int := if e1 < -149 then -149 else e1
      let q := halfEven (scaleNum n (-e)) (scaleDen d (-e))
      let b : Nat := if q < 2 ^ 23 then q else (e + 150).toNat * 2 ^ 23 + (q - 2 ^ 23)
      sg + (if 0x7F800000 ≤ b then 0x7F800000 else b)

end Sys2Proof.Machine
end

