-- ==== Sys2Proof/Machine/StBase.lean ====
section
/-! DEFINITION. The state of the fabric, the contacts, the supply, the resets and the retained things (chapters 01 to 04).
Every field's comment names its width, the rule and file that give it, and its value at reset, in that order, parted by bars. -/
namespace Sys2Proof.Machine
open Sys2Proof

/-- One strait lane (R16, R17, R18). -/
structure Lane where
  /-- 4 bits; R14, 01; - -/
  src : Nat
  /-- 4 bits; R14, 01; - -/
  dst : Nat
  /-- 1 bit, the level of REQ; R17, 01; 0 PRESUMED, log 8 -/
  req : Bool
  /-- 1 bit, the level of ACK; R17, 01; 0 PRESUMED, log 8 -/
  ack : Bool
  /-- words of the message under way, accepted by the receiver; R17, R18, 01; empty -/
  words : List (BitVec 128)
  /-- KIND of the message under way; R16, 01; 0 -/
  kind : Nat
  /-- requests of src outstanding with dst; R18, 01; 0 -/
  outstanding : Nat
  /-- transfers that src holds, each in its own copy, because CAPE does not take them; R14, R17, R82, 01 and 04; none -/
  held : List StraitXfer
  /-- the last whole message delivered on the lane: KIND and words; R16, 01; none -/
  got : Option (Nat × List (BitVec 128))
  deriving DecidableEq, Repr

/-- Chapter 01: straits, the sound, DRAM and the error counters. -/
structure Fab where
  /-- every lane that has carried a transfer; R15 to R18, 01; none in use -/
  lanes : List Lane
  /-- 16 x 4 bits, weight of a sound port; R19, 01; 4 for ports 2 to 11, 2 for the others -/
  weights : List Nat
  /-- 4 bits, port served last; R19, 01; 0 DESIGN CHOICE, log 8 -/
  rrPort : Nat
  /-- 4 bits, requests the port may still have served in its turn; R19, 01; 0 DESIGN CHOICE, log 8 -/
  rrLeft : Nat
  /-- DRAM by byte, 2 GiB; R21, R37, 01; nothing listed: reads 0 DESIGN CHOICE, log 9 -/
  dram : List Host.Cell
  /-- units of DRAM marked poisoned; R27, 01; none -/
  poison : List Nat
  /-- answers of the last sound request: port, address and data read (none: poisoned); R19, R27, 01; none -/
  answers : List (Nat × Nat × Option (BitVec 128))
  /-- requests that wait for MEM, oldest first, each with whether its port still wants the answer; R14, R22, 01; none -/
  soundWait : List (SoundReq × Bool)
  /-- corrected-error counters, 32 bits each, by 8 x island + KIND; R24, 01; 0 -/
  corrected : Tab Nat
  /-- uncorrectable-error counters by 8 x island + KIND; R478, 22; 0 -/
  uncorrected : Tab Nat
  /-- threshold of ECC_CORRECTED_LIMIT per island (14); R24, 01; R474, 22; 1,024 -/
  eccLimit : List Nat
  deriving DecidableEq, Repr

/-- Where an island is in its power and reset cycle (R14, R61, R82, R83, R84). -/
inductive IslPhase where
  | off            -- not powered
  | held           -- powered, logic held in reset
  | idleReq        -- IDLE_REQ sent, waiting for IDLE_ACK (R82 step 3)
  | inReset        -- reset asserted, at least 2 us (R82 step 5)
  | locking        -- PLL restarted (R83)
  | retryWait      -- waiting t_retry after a lock failure (R83)
  | running
  | failed         -- marked failed and switched off (R83, R84)
  | switchedOff    -- switched off under R61
  deriving DecidableEq, Repr

/-- One island of R14. -/
structure Isl where
  /-- phase of power and reset; R82, R83, 04; off -/
  phase : IslPhase
  /-- when the phase was entered, ns of State.now; R82, R83, 04; 0 -/
  since : Nat
  /-- 2 bits, lock failures in a row; R83, 04; 0 -/
  lockFails : Nat
  /-- the release under way follows an island reset and raises ISLAND_RESET; R82, 04; false -/
  byReset : Bool
  /-- 2 bits, what asked for the reset: 0 host, 1 island watchdog, 2 uncorrectable word, 3 image activation; R471 source 58, 22; 0 -/
  srcNo : Nat
  /-- bits of IDLE_TMO_n, microseconds 1 to 100,000; R82, 04; 1000 -/
  idleTmo : Nat
  /-- the timeout of the handshake that runs, microseconds: IDLE_TMO_n when it began; R82, 04, IDLE_TMO_n, 23; 1000 -/
  tmoNow : Nat
  /-- credits of 50 mW held; R65, 03; 0 -/
  grant : Nat
  /-- credits of the idle grant that P1 gave, part of those held; R65, R69, 03; 0 -/
  idle : Nat
  /-- total time its admission requests have waited, ns; R67, 03; 0 -/
  waited : Nat
  deriving DecidableEq, Repr

/-- What a grant is asked for (R65): logic not named here, the cores of ATOLL up to a number, or the PA of a radio. -/
inductive AdmitUse where
  | plain
  | cores (n : Nat)
  | pa (radio : Nat)
  | drivers
  deriving DecidableEq, Repr

/-- One admission request (R67). -/
structure AdmitReq where
  island : Nat
  cls : Nat
  credits : Nat
  reserved : Nat
  since : Nat
  limited : Bool
  /-- what the grant powers; R65, R70, 03; - -/
  use : AdmitUse
  deriving DecidableEq, Repr

/-- The power states of R60. -/
inductive PowerState where
  | run | trim | ebb | hold | off
  deriving DecidableEq, Repr

/-- Chapter 03: supply, power states, admission and the thermal throttle. -/
structure Power where
  /-- VIN in 0.1 V as last sampled; R59, 03; 0 -/
  vin : Nat
  /-- VIN above v_start since the last brown-out; R59, R89, 03; false -/
  vinOk : Bool
  /-- VBAT present; R58, 03; true (it brought HOLM's supply back) DESIGN CHOICE, log 8 -/
  vbat : Bool
  /-- power state; R60, 03; OFF (the start phases follow) -/
  st : PowerState
  /-- state held before EBB; R60, 03; RUN -/
  before : PowerState
  /-- 8 bits, TRIM_CORES in force; R63, 03; 0 -/
  trimCores : Nat
  /-- alarm of HOLD_WAKE, ns of State.now; R63, 03; none -/
  holdWake : Option Nat
  /-- LEDGER has stopped appending because of a warning; R59, 03; false -/
  warned : Bool
  /-- when VIN crossed the warning threshold, ns; R59, 03; 0 -/
  warnAt : Nat
  /-- the commit of a warning or of the 140 degree crossing is owed before MAIN is switched off; R59, R72, 03; false -/
  lastCommit : Bool
  /-- a shutdown for temperature is under way; R72, 03; false -/
  hotOff : Bool
  /-- junction temperature in degrees as last measured; R72, 03; 25 DESIGN CHOICE, log 8 -/
  tj : Int
  /-- ATOLL clocks halved; R72, 03; false -/
  halved : Bool
  /-- class B work stopped for temperature; R72, 03; false -/
  stopB : Bool
  /-- 8 bits, ADMIT_CTRL.CAP; R66, 03; 140 -/
  cap : Nat
  /-- admission requests waiting, oldest first; R67, 03; none -/
  waiting : List AdmitReq
  /-- the last switch of P1 that closed, and when; R69, 03; 0 -/
  p1Switch : Nat
  p1Since : Nat
  deriving DecidableEq, Repr

/-- Reset sources of reach WARM and wider (R78). -/
inductive RstSrc where
  | holmPower | holmWdt | vinOn | vinBo | thermal | kill | resetN | sysWdt | sysSw | holdWake
  deriving DecidableEq, Repr

/-- One entry of the last 16 reset episodes (R97). -/
structure EpisodeRec where
  reach : Nat
  causes : Nat
  start : Nat
  ready : Nat
  deriving DecidableEq, Repr

/-- Chapter 04: resets, start-up, the lagoon, cold flags; and the HOLM registers. -/
structure Reset where
  /-- 10 bits, RESET_CAUSE[9:0]; R85, 04; 1 (HOLM_POWER) -/
  cause : Nat
  /-- 2 bits, RESET_CAUSE.LAST_REACH; R85, 04; 0 -/
  lastReach : Nat
  /-- an episode is open; R86, 04; false: that of the supply's return has ended -/
  episode : Bool
  /-- sources still asserted in the episode; R86, 04; none -/
  asserted : List RstSrc
  /-- widest reach of the episode: 0 HOLM_COLD, 1 COLD, 2 WARM; R86, 04; 0 -/
  reach : Nat
  /-- causes asserted in the open episode; R97, 04; 0 -/
  epCauses : Nat
  /-- holm time in ns at the first assertion of the open episode; R97, 04; 0 -/
  epStart : Int
  /-- the episode began while P2 ran; R88, 04; false -/
  inP2 : Bool
  /-- 3 bits, START_STATUS.PHASE; R89, 04; 0 -/
  phase : Nat
  /-- a start-up runs (false while an episode is open, in HOLD and in OFF); R86, R89, 04; true -/
  starting : Bool
  /-- when the phase began; R89, 04; 0 -/
  phaseSince : Nat
  /-- P0 is held until the junction is at or below 115 degrees; R73, 03; false -/
  thermalHold : Bool
  /-- PERST_N low; R87, R90, 04; true DESIGN CHOICE (pull-down), log 8 -/
  perst : Bool
  /-- MODE contact levels, 3 bits; R46, 02; 6 (MODE_0 tied low, the others open) DESIGN CHOICE, log 8 -/
  modeLevel : Nat
  /-- MODE_0..2 as sampled at P2, 3 bits; R46, 02, START_STATUS.MODE; 0 -/
  mode : Nat
  /-- MODE_2 was 0 at P2 or an image made the start use the recovery image; R89, 04; R462, 21; false -/
  recovery : Bool
  /-- START_STATUS.OPT_UNVERIFIED; R94, 04; false -/
  optUnverified : Bool
  /-- START_STATUS.OPT_DEFAULT; R95, 04; false -/
  optDefault : Bool
  /-- P3 found another selection and P2 restarts; R94, 04; false -/
  p2Again : Bool
  /-- 32 bits, power-cycle count; R80, 04; 0 -/
  powerCycles : Nat
  /-- 40 bits, operating seconds; R80, 04; R480, 22; 0 -/
  opSeconds : Nat
  /-- nanoseconds of operating time not yet a second; R80, 04; 0 -/
  opNs : Nat
  /-- BKP_0..7, 8 x 32 bits; R96, 04; 0 -/
  bkp : List (BitVec 32)
  /-- host part of the lagoon by byte, 0x400 to 0xFFF; R97, 04; nothing listed: reads 0 DESIGN CHOICE, log 9 -/
  lagoon : List Host.Cell
  /-- lagoon header: count of episodes recorded; R97, 04; 1 -/
  epCount : Nat
  /-- lagoon: image attempt counters, 14 x 8 bits; R97, 04; 0 -/
  attempts : List Nat
  /-- lagoon: last 16 episodes, newest first; R97, 04; that of the supply's return -/
  episodes : List EpisodeRec
  /-- format number in the lagoon's header; R97, 04; not stated: the free value 0 of Config.freeNat, log 5 -/
  lagoonFormat : Nat
  /-- 128 bits, scramble key of the lagoon, drawn at each HOLM_COLD; R97, 04; the free draw 0 of Config.trng, log 4 -/
  lagoonDraw : Nat
  /-- this start follows a reset of reach HOLM_COLD: HOLM_LOST is raised in P3; R79, 04; true -/
  holmLost : Bool
  /-- COLD_FLAGS[0] SERVO_COLD; R99, 04; true at start -/
  servoCold : Bool
  /-- COLD_FLAGS[4] FLASH_NO_HISTORY; R99, 04; false until a first mount -/
  flashNoHistory : Bool
  /-- COLD_FLAGS[5] DRAM_TRAIN_COLD; R99, 04; false until P4 -/
  dramTrainCold : Bool
  deriving DecidableEq, Repr

/-- A bank's page (R91): the header's fields, the body, and what CRC and MAC check to: `whole` (programmed in full, so CRC good), and the
root secret its MAC was made under (none: keyless). Page.bytes lays the 16 KiB out (log 20). -/
structure Page (α : Type) where
  /-- 32 bits, MAGIC; R91, 04; 0x5042_4B31 -/
  magic : Nat
  /-- 16 bits, RECORD_TYPE; R91, 04; - -/
  recordType : Nat
  /-- 16 bits, FORMAT; R91, 04; not stated: a free value, log 5 -/
  format : Nat
  /-- 32 bits, SEQ; R91, 04; - -/
  seq : Nat
  /-- the page was programmed to its end, so that CRC is correct; R92, 04; - -/
  whole : Bool
  /-- draw of the root secret under which REEF made the MAC; R91, R94, 04; - -/
  macRoot : Option Nat
  body : α
  deriving DecidableEq, Repr

/-- One bank: the pages programmed in its block, newest first, and those that P3 marked invalid. -/
structure Bank (α : Type) where
  /-- pages programmed, newest first; R92, R93, 04; none -/
  pages : List (Page α)
  /-- the current copy was marked invalid in P3; R94, 04; false -/
  bad : Bool
  deriving DecidableEq, Repr

/-- A two-bank record (R91 to R94). -/
structure TwoBank (α : Type) where
  /-- 16 bits, the RECORD_TYPE kept in its two blocks, bank 0 on die 0 and bank 1 on die 1; R91, 04; 1, 2 or 3; which dies: DESIGN CHOICE, log 20 -/
  type : Nat
  bank0 : Bank α
  bank1 : Bank α
  deriving DecidableEq, Repr

end Sys2Proof.Machine
end

