-- ==== Sys2Proof/Machine/StHost.lean ====
section
/-! DEFINITION. The state of the host attachment (chapter 05), the meter table (chapter 06) and the scheduler (chapter 07). -/
namespace Sys2Proof.Machine
open Sys2Proof

/-- RING_STATUS_n.STATE (R107). -/
inductive RingState where
  | disabled | enabled | stopping | error
  deriving DecidableEq, Repr

/-- One ring pair (R107 to R128). -/
structure Ring where
  /-- 52 bits, RING_BASE_n.ADDR; R107, 05; 0 -/
  base : BitVec 52
  /-- 52 bits, RING_CBASE_n.ADDR; R107, 05; 0 -/
  cbase : BitVec 52
  /-- 5 bits, RING_SIZE_n.SQ_LOG; R107, 05; 6 -/
  sqLog : Nat
  /-- 5 bits, RING_SIZE_n.CQ_LOG; R107, 05; 6 -/
  cqLog : Nat
  /-- 8 bits, RING_CTRL_n.FLUSH; R107, 05; 10 -/
  flush : Nat
  /-- 3 bits, RING_CTRL_n.PRIO; R107, 05; 3 -/
  prio : Nat
  /-- 1 bit, RING_CTRL_n.KIND; R107, 05; 0 -/
  delivery : Bool
  /-- 1 bit, RING_CTRL_n.ENABLE; R107, 05; 0 -/
  enable : Bool
  /-- 2 bits, RING_STATUS_n.STATE; R107, 05; Disabled -/
  state : RingState
  /-- 8 bits, RING_STATUS_n.ERROR; R107, R110, 05; 0 -/
  error : Nat
  /-- 16 bits, RING_STATUS_n.SQ_HEAD; R107, 05; 0 -/
  sqHead : Nat
  /-- 16 bits, RING_COAL_n.COAL_TIME; R107, 05; 0 -/
  coalTime : Nat
  /-- 16 bits, RING_COAL_n.COAL_COUNT; R107, 05; 1 -/
  coalCount : Nat
  /-- 16 bits, doorbell SQ_TAIL; R111, 05; 0 -/
  sqTail : Nat
  /-- 16 bits, doorbell CQ_HEAD; R111, 05; 0 -/
  cqHead : Nat
  /-- 16 bits, completion index; R108, 05; 0 -/
  cqIndex : Nat
  /-- 1 bit, PHASE of the present pass; R108, R116, 05; 1 -/
  phase : Bool
  /-- completion slots reserved; R114, 05; 0 -/
  reserved : Nat
  /-- completions not yet notified; R128, 05; 0 -/
  unnotified : Nat
  /-- when the first completion not yet notified was written; R128, 05; none -/
  coalSince : Option Nat
  /-- a descriptor since the previous FENCE ended with a status other than OK; R125, 05; false -/
  failed : Bool
  /-- the zero-length read of the fence at the head has been issued; R124, 05; false -/
  zlr : Bool
  /-- the zero-length read has returned; R124, 05; false -/
  zlrBack : Bool
  /-- 64 bits, delivery batch count: the next BATCH; R108, R120, 05; 1 -/
  batch : Nat
  /-- 64 bits, highest batch confirmed; R121, 05; 0 -/
  confirmed : Nat
  deriving DecidableEq, Repr

/-- Where a descriptor stands (R113 to R116). -/
inductive DescStage where
  | fetching     -- its 64 bytes are being read
  | fetched      -- read, not started
  | started      -- started: its command row may run
  | waiting      -- the command waits (durability, a walk, a partner)
  | done         -- status known, completion entry not yet written
  deriving DecidableEq, Repr

/-- What a command that has ended takes back where its status turns out other than OK (R119): the counters that a CLEAR took and their
CNT_SAT bit, or the debug challenge that a new one replaced. -/
inductive Undo where
  | none
  | counts (words : List Nat) (sat : Bool)
  | challenge (old : Option (Bytes × Nat))
  deriving DecidableEq, Repr

/-- One descriptor held by the module. -/
structure Desc where
  id : Nat
  ring : Nat
  /-- 16 bits, submission ring slot; R116, 05; - -/
  slot : Nat
  /-- the 64 bytes as fetched; R115, 05; - -/
  bytes : Bytes
  stage : DescStage
  /-- host buffer read for the command, when all of it has arrived; R113, 05; none -/
  input : Option Bytes
  /-- 8 bits, STATUS; R116, 05; 0 -/
  status : Nat
  /-- 16 bits, DETAIL; R116, 05; 0 -/
  detail : Nat
  /-- 15 bytes, RESULT; R116, 05; empty: zero -/
  result : Bytes
  /-- writes of its buffers that have not been acknowledged; R106, R124, 05; 0 -/
  writes : Nat
  /-- its ring pair was disabled, in error or reset: the completion is discarded; R103, R110, 05; false -/
  orphan : Bool
  /-- it was started before a PERST_N: it makes no write of host memory; R103, 05; false -/
  mute : Bool
  /-- what a failed write of its buffer takes back; R119, 05; none -/
  undo : Undo
  deriving DecidableEq, Repr

/-- What a read or acknowledged write of host memory is for (R118). -/
inductive DmaUse where
  | fetch (desc : Nat)
  | input (desc : Nat)
  | output (desc : Nat)
  | deliver (desc : Nat)
  | remoteRead (member msgId : Nat)
  deriving DecidableEq, Repr

/-- One DMA access under way. -/
structure Dma where
  tag : Nat
  use : DmaUse
  addr : Nat
  len : Nat
  /-- what a read over Urrauf has brought so far, in pieces of at most 1,024 bytes; R379, 17; empty -/
  got : Bytes
  deriving DecidableEq, Repr

/-- An entry of LOG that has not been confirmed by the host: a delivered record and where it stands (R120, R121, R453). -/
structure LogEntry where
  /-- 64 bits, SEQ of the journal record; R122, 05; - -/
  seq : Nat
  /-- 10 bits, profile that steers it; R122, 05; - -/
  profile : Nat
  /-- the 64-byte record; R122, 05; - -/
  record : Bytes
  /-- second record of a custody reading, kept with the one before; R122, 05; - -/
  cont : Bool
  /-- placed in a buffer: descriptor; R120, 05; none -/
  placed : Option Nat
  /-- batch it was completed in, and the ring pair; R121, 05; none -/
  batch : Option (Nat × Nat)
  /-- sent before in a batch that was not confirmed; R121, 05; false -/
  again : Bool
  deriving DecidableEq, Repr

/-- A delivery buffer lent by the host (R120). -/
structure DelBuf where
  desc : Nat
  ring : Nat
  addr : Nat
  len : Nat
  /-- records written; R120, 05; 0 -/
  records : Nat
  /-- when its first record was written; R120, 05; none -/
  first : Option Nat
  deriving DecidableEq, Repr

/-- The PCIe link (R90, R100, R127). -/
inductive PcieLink where
  | down | training | l0 | l1
  deriving DecidableEq, Repr

/-- Chapter 05. -/
structure HostIf where
  /-- link state; R90, R100, 05; down -/
  link : PcieLink
  /-- link speed (generation) and width as trained; R100, 05; 0 -/
  speed : Nat
  width : Nat
  /-- power state below L1: 0 L1, 1 L1.1, 2 L1.2; R100, 05; 0 -/
  l1Sub : Nat
  /-- maximum payload and maximum read request in bytes, set by the host; R100, 05; 128 and 512 PRESUMED (PCIe), log 99 -/
  maxPayload : Nat
  maxRead : Nat
  /-- Enable Relaxed Ordering of Device Control; R123, 05; 1 PRESUMED (PCIe), log 99 -/
  relaxOn : Bool
  /-- Completion Timeout Value of Device Control 2, 4 bits; R124, 05; 0 PRESUMED (PCIe), log 99 -/
  complTmo : Nat
  /-- uncorrectable error status of Advanced Error Reporting, 32 bits; R100, 05; 0 PRESUMED (PCIe), log 99 -/
  aer : BitVec 32
  /-- WAKE_N driven low; R104, 05; false -/
  wakeN : Bool
  /-- HOST_CTRL.SETUP_DONE; R80, R103, R483, 05; 0 -/
  setupDone : Bool
  /-- 32 ring pairs; R107, 05; each at its reset values -/
  rings : List Ring
  /-- descriptors held; R113, 05; none -/
  descs : List Desc
  /-- number of the next descriptor taken (the model's own); DESIGN CHOICE, log 10; 0 -/
  nextDesc : Nat
  /-- ring pair served last by the fetch round robin; R114, 05; 31 DESIGN CHOICE, log 8 -/
  rr : Nat
  /-- DMA accesses under way; R118, 05; none -/
  dma : List Dma
  /-- completion entries over Urrauf that were not acknowledged when NET was reset: ring pair and message body; R106, R508, 05; none -/
  owed : List (Nat × Bytes)
  /-- number of the next DMA access (the model's own); DESIGN CHOICE, log 10; 0 -/
  nextTag : Nat
  /-- steering named by STEER_SET: profile to ring pair; R122, 05; none -/
  steer : Tab Nat
  /-- delivery buffers lent, oldest first; R120, 05; none -/
  bufs : List DelBuf
  /-- EVT_STATUS, 64 bits; R126, 05; 0 -/
  evt : BitVec 64
  /-- EVT_ROUTE_n.ENABLE, 64 bits; R126, 05; 0 -/
  evtEnable : BitVec 64
  /-- EVT_ROUTE_n.VECTOR, 64 x 6 bits; R126, 05; n -/
  evtVector : List Nat
  /-- MSI-X Mask bits, 64; R127, 05; all 1 -/
  msixMask : BitVec 64
  /-- MSI-X Function Mask; R127, 05; 0 PRESUMED (PCIe), log 8 -/
  msixFmask : Bool
  /-- MSI-X Enable; R127, 05; 0 PRESUMED (PCIe), log 8 -/
  msixEnable : Bool
  /-- MSI-X table: message address, 64 bits, and data, 32 bits, of each vector; R101, R127, 05; 0 PRESUMED (PCIe), log 8 -/
  msixTable : List (Nat × Nat)
  /-- pending-bit array, 64 bits; R127, 05; 0 -/
  msixPending : BitVec 64
  deriving DecidableEq, Repr

/-- Where an entry of the live table stands: its short index, its bucket, and that it is in the overflow store (R134, R135). The
entry's words themselves are Db's. -/
structure MSlot where
  short : Nat
  bucket : Nat
  ovf : Bool
  deriving DecidableEq, Repr

/-- A re-seed under way (R136). -/
structure Reseed where
  /-- 8 bits, epoch of the shadow table; R136, 06; - -/
  epoch : Nat
  /-- tries made, 1 to 4; R136, 06; - -/
  tries : Nat
  /-- descriptor that asked; R136, 06; none: by TABLE_PRESSURE -/
  desc : Option Nat
  /-- live table switched; the flash copy is being written; R136, 06; false -/
  switched : Bool
  deriving DecidableEq, Repr

/-- Chapter 06: the live table and what belongs to LOOKUP. Entries by identity also stand in Db for replay. -/
structure TableSt where
  /-- slots in use; R133, R134, R135, 06; none -/
  slots : List MSlot
  /-- HASH_EPOCH, 8 bits; R133, 06; 0 -/
  epoch : Nat
  /-- draw of the root secret or, keyless, of the TRNG that the hash key comes from; R133, R137, 06; 0 -/
  hashRoot : Nat
  /-- TBL_STATUS.STATE, 2 bits; R137, 06; 2 -/
  state : Nat
  /-- TABLE_PRESSURE may be raised; R135, 06; true -/
  pressureArmed : Bool
  /-- re-seed under way; R136, 06; none -/
  reseed : Option Reseed
  /-- LOOKUP's overflow store is being reloaded; R139, 06; false -/
  ovfReload : Bool
  /-- that reload follows a reset of LOOKUP: TBL_STATUS.STATE has its reset value until it ends; R139, 06; false -/
  ovfReset : Bool
  /-- HASH_EPOCH of the table's flash copy: what a start loads; R136, R137, 06; 0 -/
  copyEpoch : Nat
  /-- downlink frames queued for meters without a route, oldest first: short index and frame; R150, 06; none -/
  held : List (Nat × Bytes)
  /-- buckets being reloaded: the item that waits and the unit that was uncorrectable; R139, 06; none -/
  bktReload : List (Nat × Nat)
  deriving DecidableEq, Repr

/-- Where a work item stands (R151 to R163). -/
inductive ItemState where
  | waiting        -- waits on DEP or for its flow lock
  | ready
  | slotted (core : Nat)
  | running (core : Nat)
  | parked
  | preempted (core : Nat)
  deriving DecidableEq, Repr

/-- What an item does next when it is dispatched (the reading path of R29 and the handlers of the commands). -/
inductive ItemStep where
  | lookup          -- step 6
  | authWait        -- parked at REEF, step 7
  | authed          -- resumed after step 8
  | validWait       -- parked at a CALC island, step 9
  | convWait
  | thirdPath       -- custody: the firmware path runs
  | postWait        -- parked at LEDGER, step 10
  | posted
  | rebuildWait     -- waits for the rebuild or a store reload (R139, R140)
  | ended
  deriving DecidableEq, Repr

/-- Link measurements that stay with a frame until it is authenticated (R277): the 32 group magnitudes and the line-cycle timing of
power-line, RSSI and carrier offset of radio, and the meter's clock offset in ms where the frame gives one (R360). -/
structure Meas where
  mags : Option (List Nat × Int)
  rssi : Int
  cfo : Int
  skew : Option Int
  deriving DecidableEq, Repr

def Meas.none : Meas := { mags := Option.none, rssi := 0, cfo := 0, skew := Option.none }

/-- One reading on its way (steps 5 to 10): what it carries from step to step. -/
structure Reading where
  /-- ingest queue; R168, 08; - -/
  queue : Nat
  /-- metadata word as 16 bytes; R169, 08; - -/
  meta16 : Bytes
  /-- the frame's bytes; R170, 08; - -/
  frame : Bytes
  /-- link measurements; R277, 12; - -/
  meas : Meas
  /-- resolved at step 6: short index, profile, its copy's number; R146, 06; - -/
  short : Nat
  profile : Nat
  pver : Nat
  /-- plaintext after step 7; R181, 08; empty -/
  plain : Bytes
  /-- a stored keyless frame that is processed now: no answer is sent; R192, 08; false -/
  replay : Bool
  /-- released from the validation quarantine by the host; R194, 08; false -/
  released : Bool
  /-- VAL_FLAGS, 16 bits; R187, 08; 0 -/
  valFlags : Nat
  /-- the bits of VAL_FLAGS that checks 0 to 7 set; R187, R188, 08; 0 -/
  checks : Nat
  /-- outcome of step 9: 0 posted, 1 voided by a check, 2 quarantined by a check, 3 custody without majority, 4 cannot be converted,
  5 FORMAT, 6 duplicate, 7 too large to post; R187, R203, R211, R213, 08 and 09; 0 -/
  reason : Nat
  /-- VALUE of each element; R182, 08; empty -/
  values : List Int
  /-- increments by element position; R187, R196, 09; empty -/
  incs : List Int
  /-- copy of the virial table and CONV_VERSION bound at step 6; R215, 09; 0 -/
  vver : Nat
  cver : Nat
  /-- quantised outputs n of each quantity; R204, 09; empty -/
  ns : List Int
  /-- new residuals as binary64; R203, 09; empty -/
  resid : List F64
  /-- result block of path A and of path B for custody: outcome, VAL_FLAGS, n, residuals; R213, 09; none -/
  pathA : Option AltBlock
  pathB : Option AltBlock
  /-- posted by one CALC island only; R214, 09; false -/
  single : Bool
  /-- CALC_B converts the standard reading, else CALC_A; R212, 09; false -/
  onB : Bool
  deriving DecidableEq, Repr

/-- What an item does beside a reading or a command: background work (R481), a clock step (R357), one entry of a key message (R419), the
known-answer tests with what they will find (R216). -/
inductive ItemTask where
  | plain
  | background (activity : Nat) (run : BgRun)
  | clockStep
  | keyEntry (desc entry : Nat)
  | kat (passA passB : Bool)
  deriving DecidableEq, Repr

/-- A work item (R151). -/
structure Item where
  slot : Nat
  /-- 64 bits, FLOW_KEY; R151, 07; - -/
  key : Nat
  /-- 2 bits, CLASS: 0 S, 1 B, 2 U; R151, 07; - -/
  cls : Nat
  /-- 3 bits, PRIO; R151, 07; - -/
  prio : Nat
  noFlow : Bool
  /-- 2 bits, FLOW_SPACE; R151, 07; - -/
  space : Nat
  /-- 8 bits, HANDLER; R151, 07; - -/
  handler : Nat
  /-- DEP with DEP_VALID: dependence counter, 14 bits; R151, 07; none -/
  dep : Option Nat
  /-- NOTIFY_0 and NOTIFY_1: dependence counters, 14 bits; R151, 07; none -/
  notify0 : Option Nat
  notify1 : Option Nat
  /-- 16 bits; R151, 07; - -/
  deadline : Nat
  /-- 32 bits, ARRIVAL; R151, 07; - -/
  arrival : Nat
  state : ItemState
  step : ItemStep
  /-- holds its flow-lock entry; R157, 07; false -/
  locked : Bool
  /-- priority added by ageing; R155, 07; 0 -/
  aged : Nat
  /-- when it became ready or was dispatched; R155, R162, 07; - -/
  since : Nat
  /-- when it was created, for DEADLINE; R151, 07; - -/
  made : Nat
  /-- its turn among items that came back from an island, the highest first; R157, 07; 0: never parked -/
  front : Nat
  /-- DATA, DRAM address of its payload; R151, 07; not stated: a free value, fixed at its creation, log 5 -/
  data : Nat
  /-- it has released its flow lock before its end; R157, 07; false -/
  released : Bool
  /-- image of ATOLL under which it was created; R163, 07; - -/
  image : Nat
  /-- its start has been held by the budget in this window; R160, R167, 07; false -/
  deferred : Bool
  /-- up to when its core time has been charged; R160, 07; - -/
  charged : Nat
  /-- an item that it depended on ended in failure; R156, 07; false -/
  depFailed : Bool
  /-- what it does where it is no reading and no command; R151, R481, 07 and 22; - -/
  task : ItemTask
  /-- descriptor that created it; R151, 07; none -/
  desc : Option Nat
  /-- the reading it carries; R151, 07; none -/
  reading : Option Reading
  deriving DecidableEq, Repr

/-- A dependence counter in use (R156): value and the item that waits on it. -/
structure DepCounter where
  value : Nat
  item : Option Nat
  /-- an item that decremented it had failed; R156, 07; false -/
  failed : Bool
  deriving DecidableEq, Repr

/-- A creator that waits for a slot or for a dependence counter, with the item it makes and its dependence count (R156, R161, R165). -/
structure ItemWait where
  item : Item
  count : Nat
  deriving DecidableEq, Repr

/-- One work core (R158, R162, R163). -/
structure Core where
  powered : Bool
  draining : Bool
  drained : Bool
  /-- when the draining began; R163, 07; 0 -/
  drainSince : Nat
  /-- image loaded: the slot of ATOLL's firmware; R163, R463, 07 and 21; 0 -/
  image : Nat
  deriving DecidableEq, Repr

/-- Scheduler settings (R160, R166). -/
structure SchedSet where
  /-- 10 bits, BUDGET in per cent; R166, 07; 10 -/
  budget : Nat
  /-- 1 bit, BORROW; R166, 07; 1 -/
  borrow : Bool
  /-- 3 bits, READING_PRIO; R166, 07; 4 -/
  readingPrio : Nat
  deriving DecidableEq, Repr

/-- Chapter 07. -/
structure Sched where
  /-- work items in use; R151, 07; none -/
  items : List Item
  /-- 32 bits, next ARRIVAL; R151, 07; 0 -/
  arrival : Nat
  /-- dependence counters in use; R156, 07; none -/
  deps : Tab DepCounter
  /-- flow-lock table: entry number to holder's slot; R157, 07; none held -/
  locks : Tab Nat
  /-- draw of the flow-hash key, made at each release of ATOLL; R157, 07; the free draw 0, log 3 -/
  flowDraw : Nat
  /-- 24 cores; R158, 07; not powered -/
  cores : List Core
  /-- settings in force; R160, R166, 07; BUDGET 10, BORROW 1, READING_PRIO 4 (chapter 07) -/
  set : SchedSet
  /-- settings that take effect at the next window; R160, 07; none -/
  nextSet : Option SchedSet
  /-- time class B has used in the window, overrun of the one before included, ns; R160, 07; 0 -/
  used : Nat
  /-- core time used by class U, B and S in the present window, ns; R167, 07; 0 -/
  busyNow : List Nat
  /-- turns given to items that came back from an island (the model's own count); R157, 07; 0 -/
  resumes : Nat
  /-- when the window began; R160, 07; 0 -/
  window : Nat
  /-- SCHED_STATS counters, 8 x 32 bits; R166, 07; 0 -/
  stats : List Nat
  /-- sticky bits of the counters (SAT); R167, 07; 0 -/
  sat : Nat
  /-- core time used by class U, B and S in the last window, ns; R167, 07; 0 -/
  busy : List Nat
  /-- creators that wait, oldest first; R156, R161, R165, 07; none -/
  asks : List ItemWait
  /-- firmware fault records of DEP_FAULT: the counter and the time, ns; their layout is not stated; R156, 07; none, log 96 -/
  faults : List (Nat × Nat)
  deriving DecidableEq, Repr

end Sys2Proof.Machine
end

