-- ==== Sys2Proof/Machine/StMeter.lean ====
section
/-! DEFINITION. The state of intake and validation (chapter 08) and of flow conversion (chapter 09). -/
namespace Sys2Proof.Machine
open Sys2Proof

/-- A whole frame with its meta word (R169). -/
structure QFrame where
  /-- 16 bytes, the meta word; R169, 08; - -/
  meta16 : Bytes
  /-- the frame's bytes, 28 to 508; R169, 08; - -/
  bytes : Bytes
  /-- link measurements kept with it until it is authenticated; R277, 12; - -/
  meas : Meas
  deriving DecidableEq, Repr

/-- One ingest queue (R168 to R174). -/
structure Queue where
  /-- complete frames not yet taken, oldest first; R171, 08; none -/
  frames : List QFrame
  /-- frames taken and not yet released; R171, R173, 08; none -/
  taken : List QFrame
  /-- frames the link hands to the writer and that have not ended in the queue; R169, 08; none -/
  coming : List QFrame
  deriving DecidableEq, Repr

/-- The limits of INTAKE_SET (R195). -/
structure IntakeSet where
  /-- 16 bits; R195, 08; 100 -/
  replayLimit : Nat
  /-- 16 bits; R195, 08; 100 -/
  valLimit : Nat
  /-- 12 bits, seconds; R195, 08; 10 -/
  nakHoldoff : Nat
  deriving DecidableEq, Repr

/-- Chapter 08: what INTAKE holds beside the records of Db. -/
structure Intake where
  /-- eight queues; R168, 08; empty -/
  queues : List Queue
  /-- INTAKE_STATS, 70 counters x 32 bits, CORRECTED and UNCORRECTABLE of each queue among them; R174, R195, 08; 0 -/
  stats : List Nat
  /-- settings in force; R195, 08; 100, 100, 10 -/
  set : IntakeSet
  /-- window number (operating seconds / 60), replays counted, REPLAY_REJECT_LIMIT raised; R185, 08; 0 -/
  replayWindow : Nat
  replayCount : Nat
  replayRaised : Bool
  /-- readings voided or quarantined in the window, VALIDATION_FAIL_LIMIT raised; R189, 08; 0 -/
  valCount : Nat
  valRaised : Bool
  /-- when a REPLAY answer last went to a meter, by short index, ns; R182, 08; none -/
  nakAt : Tab Nat
  /-- the last keyless frame stored per identity; R191, 08; none -/
  keylessLast : List (Nat × Bytes)
  deriving DecidableEq, Repr

/-- Chapter 09: the CALC islands. -/
structure Conv where
  /-- 16 bits, CONV_VERSION in force for CALC_A and for CALC_B; R204, R215, 09; 0 PRESUMED, log 8 -/
  verA : Nat
  verB : Nat
  /-- the known-answer test lets the island serve; R216, 09; true DESIGN CHOICE, log 11 -/
  okA : Bool
  okB : Bool
  /-- KAT_OK of CALC_STATUS_A and CALC_STATUS_B; R216, 23; false -/
  katA : Bool
  katB : Bool
  /-- the island has failed its test and passed none since; R216, 09; false -/
  failA : Bool
  failB : Bool
  /-- when the last known-answer test started, ns; R216, 09; 0 -/
  katFrom : Nat
  /-- CONV_STATS, 10 counters x 32 bits; R218, 09; 0 -/
  stats : List Nat
  deriving DecidableEq, Repr

end Sys2Proof.Machine
end

