-- ==== Sys2Proof/Machine/StLinks.lean ====
section
/-! DEFINITION. The state of the power-line, radio and wired links (chapters 13 to 15) and of time (chapter 16). -/
namespace Sys2Proof.Machine
open Sys2Proof

/-- Values of PLC_SET (13, commands). -/
structure PlcSet where
  /-- 2 bits, BAND; R286, 13; 0 -/
  band : Nat
  /-- 3 bits, PHASES; R288, R61, 13; 0 -/
  phases : Nat
  /-- 16 bits, NID; R292, 13; 0 DESIGN CHOICE, log 8 -/
  nid : Nat
  /-- 4 bits, TX_ATTEN; 13 commands; 0 DESIGN CHOICE, log 8 -/
  txAtten : Nat
  /-- ERASE_THRESH in dB; R307, 13; 12 -/
  erase : Nat
  /-- RESTORE_SPREAD in s; R298, 13; 0 DESIGN CHOICE, log 8 -/
  restore : Nat
  /-- NOISE_T1 to T3 in dB; R304, 13; 10, 20, 30 -/
  noiseT : List Nat
  /-- Z_T1 to T3 in 0.1 ohm; R304, 13; 100, 30, 10 -/
  zT : List Nat
  /-- CONT_LEN in ms; R295, 13; 300 -/
  contLen : Nat
  deriving DecidableEq, Repr

/-- A phase of the power line. -/
structure PlcPhase where
  /-- settings in force on the phase (PLC_SET takes effect at its next beacon period); 13 commands; those of the option store -/
  set : PlcSet
  /-- 2 bits, load class; R304, 13; 0 -/
  cls : Nat
  /-- measurements in a row at a lower class, and the highest of them; R304, 13; 0 -/
  lowRun : Nat
  lowMax : Nat
  /-- PLC_LINE_n.NOISE and IMPED; 13 registers; 0 -/
  noise : Nat
  imped : Nat
  /-- 32 bits, BEACON_NO; R295, 13; 0 -/
  beaconNo : Nat
  /-- beaconing; PLC_STATUS, 13; false -/
  beaconing : Bool
  /-- number of the last beacon period that was started (module seconds); R295, 13; none -/
  lastPeriod : Option Nat
  /-- network time of the last beacon and its ZC_OFFSET; R295, R303, 13; 0 -/
  zcOffset : Nat
  /-- PLC_LINE_n.PERIOD in us; R302, 13; 0 -/
  period : Nat
  /-- when the last rising zero crossing was measured, ns; R302, 13; none -/
  crossAt : Option Nat
  /-- end of the restore window, ns of State.now; R298, 13; none -/
  restoreEnd : Option Nat
  /-- allocations that the beacon of the period listed: TEI, START and LEN in ms; R295, R296, 13; none -/
  alloc : List (Nat × Nat × Nat)
  deriving DecidableEq, Repr

/-- A tone map (R305). -/
structure ToneMap where
  cls : Nat
  rate : Nat
  band : Nat
  map : Bytes
  deriving DecidableEq, Repr

/-- A downlink MPDU on its way to a station (R308). -/
structure PlcTx where
  /-- 8 bits, SEQ; R292, 13; - -/
  seq : Nat
  /-- the body: a frame of R175, or a TONE_MAP body; R293, R305, 13; - -/
  body : Bytes
  /-- PB size index and PB count; R287, 13; - -/
  pbSize : Nat
  pbCount : Nat
  /-- PBs that the station has decoded; R308, 13; 0 -/
  done : Nat
  /-- retransmission rounds made; R308, 13; 0 -/
  rounds : Nat
  /-- it carries a TONE_MAP; R305, 13; false -/
  toneMap : Bool
  /-- waits for its SACK; R308, 13; false -/
  waiting : Bool
  deriving DecidableEq, Repr

/-- An uplink MPDU held until all its PBs are decoded (R307). -/
structure PlcHold where
  seq : Nat
  /-- PBs decoded: index and payload; R307, 13; - -/
  pbs : List (Nat × Bytes)
  count : Nat
  size : Nat
  /-- when the last PB was decoded, ns; R307, 13; - -/
  since : Nat
  /-- fully decoded and passed on; R294, 13; false -/
  whole : Bool
  deriving DecidableEq, Repr

/-- A station of the station table (R300). -/
structure Station where
  /-- TEI, 1 to 1,024; R300, 13; - -/
  tei : Nat
  /-- meter identity; R300, 13; - -/
  id : Nat
  /-- 16 bits, hardware type learned from its JOIN_REQ (none: not heard joining); R300, R468, 13; - -/
  hw : Option Nat
  /-- PB sizes that it supports, by its JOIN_REQ (0: not heard joining, taken as all; log 105); R300, 13; - -/
  sizes : Nat
  /-- decided phase, confidence, timing; R303, 13; - -/
  phase : Nat
  conf : Nat
  timing : Int
  /-- the phase whose beacon it decodes, by its frames' FC PHASE; R292, 13; - -/
  rxPhase : Nat
  /-- SNR on each receiver for the last frame; 13 commands; 0 -/
  snr : List Int
  /-- tone maps for uplink (computed by the module) and for downlink (sent by the meter); R305, 13; none -/
  up : List ToneMap
  down : List ToneMap
  /-- uplink class whose first frame was decoded without a map, and when; R306, 13; none -/
  owes : Option (Nat × Nat)
  /-- last uplink MARGIN per class; 13 commands; 0 -/
  margins : List Int
  /-- the last SACK or TONE_MAP received reports a MARGIN below 0, or RESULT 2; R306, 13; false -/
  dropRobust : Bool
  /-- the last frame set MORE; R296, 13; false -/
  more : Bool
  /-- 8 bits, next downlink SEQ; R292, 13; 0 -/
  txSeq : Nat
  /-- MPDUs to send, oldest first; R308, 13; none -/
  queue : List PlcTx
  /-- uplink MPDUs held; R307, 13; none -/
  holds : List PlcHold
  /-- when a TIME_CHECK was last sent, ns; R360, 16; none -/
  checkAt : Option Nat
  /-- its CMD_SEQ, the SEQ of its MPDU and the network time at its preamble once sent; R360, 16; none -/
  checkSeq : Option (Nat × Nat × Option Nat)
  deriving DecidableEq, Repr

/-- Chapter 13. -/
structure Plc where
  /-- three phases; R288, 13; as PlcPhase -/
  phases : List PlcPhase
  /-- stations, by TEI; R300, 13; none -/
  stations : List Station
  /-- a_2 and a_3 in us; R302, 13; 0 -/
  lag2 : Nat
  lag3 : Nat
  /-- TONEMAP_COLD per phase and class, 12 bits; R99, 04; all set at start -/
  tmCold : Nat
  /-- PLC_STATS, 3 x 10 counters x 32 bits; 13 commands; 0 -/
  stats : List (List Nat)
  /-- broadcast frames to send (image blocks of campaigns, join answers): the mask of their phases, DT and body; R293, R300, R470; none -/
  bcast : List (Nat × Nat × Bytes)
  /-- 8 bits, SEQ of the next frame to TEI 0xFFF; R292, 13; 0 -/
  bcSeq : Nat
  /-- credits that the line drivers hold, and when the module's last frame ends (ns); R65, R288, R291; 0 -/
  drive : Nat
  driveEnd : Nat
  /-- next CMD_SEQ of a TIME_CHECK; R360, 16; 0 DESIGN CHOICE, log 8 -/
  cmdSeq : Nat
  deriving DecidableEq, Repr

/-- Values of RADIO_SET (14, commands). -/
structure RadioSet where
  enable : Bool
  /-- PROFILE, 1 to 3; R314, 14; 1 DESIGN CHOICE, log 8 -/
  profile : Nat
  /-- TX_DBM; R316, 14; 0 DESIGN CHOICE, log 8 -/
  txDbm : Int
  panId : Nat
  hopSeed : Nat
  /-- HOP_STEP; R321, 14; 1 DESIGN CHOICE, log 8 -/
  hopStep : Nat
  /-- BASE_MODE; R312, 14; 0 (FSK 50) DESIGN CHOICE, log 8 -/
  baseMode : Nat
  /-- G_MAX in ms; R326, 14; 60 -/
  gMax : Nat
  restore : Nat
  deriving DecidableEq, Repr

/-- A sub-band of a regulatory profile (R314). -/
structure SubBand where
  first : Nat
  last : Nat
  maxDbm : Int
  /-- in 0.01 % of the window; R314, 14; - -/
  budget : Nat
  /-- seconds; R314, 14; - -/
  window : Nat
  deriving DecidableEq, Repr

/-- A regulatory profile (R314, R315). -/
structure RegProfile where
  modes : Nat
  f0 : Nat
  spacing : Nat
  chCount : Nat
  rdvCh : Nat
  maxDbm : Int
  dwellMax : Nat
  dwellWindow : Nat
  /-- channels of the hop set, ascending; R314, R321, 14; - -/
  hop : List Nat
  subs : List SubBand
  deriving DecidableEq, Repr

/-- A transmission charged by the dwell accountant (R317). -/
structure Air where
  /-- end of its last bit, us of State.now; R317, 14; - -/
  ends : Nat
  /-- air time in us; R317, 14; - -/
  air : Nat
  channels : List Nat
  radio : Nat
  dbm : Int
  deriving DecidableEq, Repr

/-- A child of a radio (R331). -/
structure Child where
  short : Nat
  id : Nat
  radio : Nat
  /-- 16 bits, hardware type learned from its JOIN_REQ (none: not heard joining); R331, R468, 14; - -/
  hw : Option Nat
  pollSlot : Nat
  pollOfs : Nat
  dataMode : Nat
  drift : Nat
  silent : Bool
  hopVersion : Nat
  /-- last RSSI in 0.25 dBm, offset in 0.1 ppm, channel, QUALITY; R313, 14; 0 -/
  rssi : Int
  cfo : Int
  channel : Nat
  quality : Int
  /-- when a frame of it was last decoded, ns; R332, 14; - -/
  heard : Nat
  /-- downlink DATA frames queued, oldest first; R325, 14; none -/
  queue : List Bytes
  /-- MAC sequence number of the last answer that carried the head of the queue; R325, 14; none -/
  offered : Option Nat
  /-- an ANSWER is owed (DL_WAIT); R326, 14; false -/
  dlWait : Bool
  /-- ASN of the slot in which its last exchange ran; R325, 14; none -/
  exchange : Option Nat
  /-- clock offset in ms taken from the first frame of the exchange, not yet applied; R360, 16; none -/
  skew : Option Int

  deriving DecidableEq, Repr

/-- One radio. -/
structure RadioSt where
  /-- settings in force; 14 commands: from the slot with ASN mod 100 = 0; those of the option store -/
  set : RadioSet
  /-- regulatory profile in force; R314, 14; none: profile 1 -/
  reg : Option RegProfile
  /-- 8 bits, HOP_VERSION; R331, 14; 0 DESIGN CHOICE, log 8 -/
  hopVersion : Nat
  /-- ASN of the slot started last; R321, 14; none -/
  asn : Option Nat
  /-- RADIO_RUN_n.CHANNEL and MODE; 14 registers; 0 -/
  channel : Nat
  mode : Nat
  /-- 32 bits, BEACON_NO; R320, 14; 0 -/
  beaconNo : Nat
  /-- end of the restore window, ns; R333, 14; none -/
  restoreEnd : Option Nat
  /-- credits granted for its PA; R65, R70, 03; 0 -/
  pa : Nat
  deriving DecidableEq, Repr

/-- Chapter 14. -/
structure Radio where
  radios : List RadioSt
  /-- children held by both radios; R331, 14; none -/
  children : List Child
  /-- transmissions within the longest window; R317, 14; none -/
  air : List Air
  /-- RADIO_STATS, 2 x 12 counters x 32 bits; 14 commands; 0 -/
  stats : List (List Nat)
  deriving DecidableEq, Repr

/-- Values of WIRED_SET for a port (15, commands). -/
structure WiredSet where
  enable : Bool
  term : Bool
  /-- RATE index, 0 to 7; R337, 15; 0 DESIGN CHOICE, log 8 -/
  rate : Nat
  framing : Nat
  /-- RESP_TMO in ms; R342, 15; 200 -/
  respTmo : Nat
  /-- RETRIES; R342, 15; 2 -/
  retries : Nat
  /-- SILENT_AFTER; R342, 15; 3 -/
  silentAfter : Nat
  deriving DecidableEq, Repr

/-- A request on the bus (R340, R341); its frame is that of the Modbus or HDLC standard. -/
inductive WiredReq where
  | registers (func reg count : Nat)
  | snrm
  | aarq
  | get (element attr : Nat)
  | disc
  deriving DecidableEq, Repr

/-- A transaction in flight on a port (R339). -/
structure WiredTx where
  address : Nat
  /-- requests still to be answered, the one on the bus first; R340, R341, 15; those of the entry -/
  todo : List WiredReq
  /-- what has been read: register of a function, or value of an element; R340, R341, 15; none -/
  words : List (Nat × Nat)
  /-- tries made with this request; R342, 15; 0 -/
  tries : Nat
  /-- a change of the entry that waits for the end; 15 commands; none: keep, some none: remove -/
  change : Option (Option PollEntry)
  /-- due instants that came while it ran: address, due second; R339, 15; none -/
  waiting : List (Nat × Nat)
  deriving DecidableEq, Repr

/-- Chapter 15. -/
structure Wired where
  /-- settings in force per port; 15 commands; those of the option store -/
  set : List WiredSet
  /-- TERM latches in HOLM; R54, 02; disconnected -/
  term : List Bool
  /-- transaction per port; R339, 15; none -/
  tx : List (Option WiredTx)
  /-- WIRED_STATS, 2 x 9 counters x 32 bits; 15 commands; 0 -/
  stats : List (List Nat)
  deriving DecidableEq, Repr

/-- Values of TIME_CFG (16, commands). -/
structure TimeCfg where
  source : Nat
  ports : Nat
  domain : Nat
  transport : Nat
  peerDelay : Bool
  oneStep : Bool
  slaveOnly : Bool
  ppsFalling : Bool
  priority1 : Nat
  priority2 : Nat
  logSync : Int
  logAnnounce : Int
  logDelay : Int
  announceTimeout : Nat
  ppsDelay : Int
  lockThresh : Nat
  validErr : Nat
  kp : Nat
  ki : Nat
  checkPeriod : Nat
  deriving DecidableEq, Repr

/-- The buffer of TIME_ZONE_SET (R358). -/
structure Zone where
  /-- minutes, signed; R358, 16; 0 DESIGN CHOICE, log 8 -/
  zone : Int
  /-- seconds, signed; R348, 16; 37 -/
  utc : Int
  leap : Nat
  leapDay : Nat
  /-- AT (UTC seconds) and DST (minutes); R358, 16; none -/
  dst : List (Nat × Int)
  deriving DecidableEq, Repr

/-- A programmed pulse output (R361). -/
structure Tpulse where
  enable : Bool
  periodic : Bool
  low : Bool
  requireValid : Bool
  width : Nat
  /-- START and PERIOD in ns since the epoch; R361, 16; 0 -/
  start : Nat
  period : Nat
  deriving DecidableEq, Repr

/-- A foreign master (R354). -/
structure Master where
  port : Nat
  gm : Nat
  priority1 : Nat
  clockClass : Nat
  priority2 : Nat
  utcOffset : Nat
  utcValid : Bool
  leap61 : Bool
  leap59 : Bool
  deriving DecidableEq, Repr

/-- A step that waits for its class U item (R357): CAUSE, the counter when it was asked for, the time given; for TIME_SET the declared
uncertainty in ns and the descriptor. -/
structure StepAsk where
  cause : Nat
  old : Int
  new : Int
  err : Nat
  desc : Option Nat
  deriving DecidableEq, Repr

/-- Chapter 16. -/
structure Time where
  /-- time counter: TAI nanoseconds since the epoch (48 bits of seconds, 32 bits of nanoseconds); R346, 16; 0 -/
  counter : Int
  /-- fractional nanoseconds in 10^-9 of a unit of the 16 bits, so that no rate is lost (log 1); R346, 16; 0 -/
  frac : Nat
  /-- the counter runs (from the end of P2); R350, 16; false -/
  runs : Bool
  /-- y in ppb x 2^16; R352, 16; 0 -/
  y : Int
  /-- integrator i in ppb x 2^16; R352, 16; 0 -/
  integ : Int
  /-- STATE: 0 Free, 1 Acquiring, 2 Locked, 3 Holdover; R351, 16; 0 -/
  st : Nat
  /-- updates in a row within LOCK_THRESH, and above 4 x LOCK_THRESH; R351, 16; 0 -/
  good : Nat
  bad : Nat
  /-- first lock reached since the source was chosen; R356, 16; false -/
  lockedOnce : Bool
  /-- real-time clock of HOLM in 1/32,768 s; R350, 16; 0 -/
  rtc : Int
  /-- part of a unit not yet counted by the real-time clock, in 10^-9/64 ns of the resonator's time; R350, 16; 0 -/
  rtcNs : Nat
  /-- ERR_BOUND at its last setting, in ns, and when that was; R350, R353, 16; 0xFFFF_FFFF us DESIGN CHOICE, log 12 -/
  errSet : Nat
  errAt : Nat
  /-- the counter has been set from a source since HOLM_COLD; R353, 16; false -/
  wasSet : Bool
  /-- CLOCK_VALID as LEDGER and the links last learned it; R353, 16; false -/
  validSeen : Bool
  /-- TIME_NOW_SEC latched; 16 registers; 0 -/
  latched : Nat
  /-- PTP_LAT_p_s, 6 x 32 bits; R355, 16; factory values, log 7 -/
  ptpLat : List (BitVec 32)
  /-- settings in force; R351, 16 commands; SOURCE 0 and the defaults of the table, the rest log 8 -/
  cfg : TimeCfg
  /-- zone, DST and UTC offset in force; R348, R358, 16; UTC_OFFSET 37, the rest log 8 -/
  zone : Zone
  /-- what is left to slew of a change asked by TIME_SET, in units of frac; R238, R352, 16; 0 -/
  slewLeft : Int
  /-- selected master; R354, 16; none -/
  master : Option Master
  /-- the Sync that waits for its Follow_Up: master, sequence, corrected receive stamp, correction; R354, 16; none -/
  sync : Option (Nat × Nat × Int × Int)
  /-- t2 - t1 of the last Sync; R353, 16; none -/
  t21 : Option Int
  /-- sequence number and corrected transmit stamp of the delay request that waits for its response; R353, 16; none -/
  t3 : Option (Nat × Int)
  /-- mean path delay in ns, and that it has been measured with the present master; R353, 16; 0, false -/
  pathDelay : Int
  pathKnown : Bool
  /-- when the last Sync with its time stamp was accepted, ns of State.now; R351, 16; none -/
  syncAt : Option Nat
  /-- last offset in ns; 16 commands; 0 -/
  theta : Int
  /-- sequence numbers of messages sent; R354, 16; 0 -/
  ptpSeq : Nat
  /-- when the last valid PPS edge came, ns; R351, 16; none -/
  ppsAt : Option Nat
  /-- steps that wait for their class U item; R357, 16; none -/
  steps : List StepAsk
  /-- TPULSE_0..3; R361, 16; disabled -/
  pulses : List Tpulse
  /-- instant of the next pulse of an output, and whether a one-shot has fired; R361, R362, 16; none -/
  nextPulse : List (Option Int)
  fired : List Bool
  /-- TIME_STATS, 12 counters x 32 bits; 16 commands; 0 -/
  stats : List Nat
  deriving DecidableEq, Repr

end Sys2Proof.Machine
end

