-- ==== Sys2Proof/Machine/StNet.lean ====
section
/-! DEFINITION. The state of the archipelago (chapter 17), of the pair (chapter 18) and of keys and tamper (chapter 19). -/
namespace Sys2Proof.Machine
open Sys2Proof

/-- A directory entry (R365). -/
structure DirEntry where
  /-- 2 bits, STATE: 0 Down, 1 Up, 2 Leaving; R365, 17; - -/
  state : Nat
  /-- 2 bits, ROLE: 1 field, 2 hub; R365, 17; - -/
  role : Nat
  member : Nat
  /-- 128 bits, IPv6 address; R365, 17; - -/
  address : Nat
  port : Nat
  deriving DecidableEq, Repr

/-- Values of ARCH_SET (17, commands). -/
structure ArchSet where
  designated : Nat
  remoteHost : Nat
  /-- UDP port; R367, 17; 47114 -/
  port : Nat
  /-- WINDOW; R376, 17; 256 -/
  window : Nat
  /-- BCAST_HOLD in s; R383, 17; 300 -/
  bcastHold : Nat
  timeFollow : Bool
  zoneFollow : Bool
  /-- address of the designated member, 128 bits; 17 commands; 0 -/
  address : Nat
  deriving DecidableEq, Repr

/-- One side of a session's key material and counters (R369, R371, R372). -/
structure Session where
  /-- the SESSION_ID that datagrams to the peer carry, and that datagrams to this module carry; R369, R371, 17; - -/
  txId : Nat
  rxId : Nat
  /-- AES-256 keys, 32 bytes each; R369, 17; - -/
  txKey : Bytes
  rxKey : Bytes
  /-- nonce salts, 4 bytes each; R369, 17; - -/
  txSalt : Bytes
  rxSalt : Bytes
  /-- 64 bits, SEQ last sent; R371, 17; 0 -/
  txSeq : Nat
  /-- 64 bits, highest SEQ accepted; R372, 17; 0 -/
  rxHigh : Nat
  /-- SEQs accepted among the last 1,024; R372, 17; none -/
  rxSet : List Nat
  /-- when it came Up, when a datagram last arrived and last left, ns; R370, R386, 17; - -/
  since : Nat
  rxAt : Nat
  txAt : Nat
  deriving DecidableEq, Repr

/-- A handshake under way (R369). `initiator`; the HELLO body sent or received; own ephemeral scalar; H and the peer's fields of a responder. -/
structure Handshake where
  initiator : Bool
  rxId : Nat
  peerRx : Nat
  hello : Bytes
  eph : Nat
  since : Nat
  /-- keys derived by a responder that waits for CONFIRM; R369, 17; none -/
  ready : Option Session
  /-- H, over which the peer's CONFIRM signs, and the peer's public key; R369, 17; 0 -/
  h : Bytes
  pubX : Nat
  pubY : Nat
  deriving DecidableEq, Repr

/-- What an outstanding message asks for besides its ACK. -/
inductive MsgUse where
  | plain
  | forward (id : Nat) (frame : QFrame)
  | remoteReg (desc : Nat)
  | dma (tag : Nat)
  | entry (ring : Nat)        -- a completion entry of a ring pair (R106)
  | stage (desc : Nat)
  deriving DecidableEq, Repr

/-- A message sent that waits for its ACK or its answer (R374). -/
structure OutMsg where
  msgId : Nat
  /-- type and body; R373, 17; - -/
  type : Nat
  flags : Nat
  body : Bytes
  use : MsgUse
  /-- ACK_REQ; R374, 17; - -/
  ack : Bool
  /-- when it was first sent and last sent, ns, and the present t_rto in ms; R374, 17; - -/
  first : Nat
  last : Nat
  rto : Nat
  deriving DecidableEq, Repr

/-- A frame in the forward backlog of LOG (R376, R387). -/
structure FwdFrame where
  id : Nat
  frame : QFrame
  /-- the profile copy bound to it at step 6; R146, R148, 06; - -/
  body : Bytes
  /-- MSG_ID under which it is outstanding; R376, 17; none -/
  msgId : Option Nat
  /-- when it was sent, ns, and when it may be sent again after DISPOSITION 2; R378, 17; 0 -/
  sent : Nat
  holdTo : Nat
  deriving DecidableEq, Repr

/-- What is kept per peer. -/
structure Peer where
  member : Nat
  /-- 2 bits, state of R386: 0 Down, 1 Up, 2 Leaving; R386, 17; 0 -/
  state : Nat
  session : Option Session
  /-- the session replaced, which receives for 10 s; R370, 17; none -/
  old : Option Session
  /-- a handshake that this module began, and one that the peer began; R369, 17; none -/
  hs : Option Handshake
  resp : Option Handshake
  /-- when an abandoned handshake is tried again, ns; R370, 17; none -/
  retryAt : Option Nat
  /-- messages that wait for their ACK or answer; R374, 17; none -/
  out : List OutMsg
  /-- next MSG_ID to the peer; R373, 17; 1 -/
  nextId : Nat
  /-- last 4,096 MSG_IDs processed; R374, 17; none -/
  seen : List Nat
  /-- the same for messages with BCAST, which number the pair (SRC, 0); R373, R374, 17; none -/
  seenB : List Nat
  /-- every MSG_ID up to this one has been processed; R375, 17; 0 -/
  seenTo : Nat
  /-- fenced messages that wait: MSG_ID, type, flags, body; R375, 17; none -/
  fenced : List (Nat × Nat × Nat × Bytes)
  /-- window in force toward this ledger home; R376, R378, 17; WINDOW -/
  window : Nat
  /-- smoothed round-trip time in us; R382, 17; 0 -/
  rtt : Nat
  deriving DecidableEq, Repr

/-- A remote-host window (R379, R381). -/
structure RhostWin where
  member : Nat
  evtPair : Nat
  base : Nat
  size : Nat
  /-- event ring: next index to write, consumed index, PHASE; R381, 17; 0, 0, 1 -/
  prod : Nat
  cons : Nat
  phase : Bool
  deriving DecidableEq, Repr

/-- Chapter 17. -/
structure Arch where
  /-- ARCH_SET values in force; 17 commands; PORT 47114, WINDOW 256, BCAST_HOLD 300, others 0 (log 8) -/
  set : ArchSet
  /-- 12 bits, member ID, and role: 0 standalone, 1 field, 2 hub; R363, 17; 0 (R95) -/
  member : Nat
  role : Nat
  /-- directory; R365, 17; empty -/
  dir : List DirEntry
  peers : List Peer
  /-- 16 bits, next SESSION_ID given; R369, 17; 1 DESIGN CHOICE, log 8 -/
  nextSession : Nat
  /-- backlog of frames for other ledger homes, oldest first; R376, R387, 17; none -/
  fwd : List FwdFrame
  /-- frames received in FWD_READING whose outcome is open: identity, counter, member, MSG_ID; R377, 17; none -/
  owed : List (Nat × Nat × Nat × Nat)
  /-- windows of remote-hosted members; R379, 17; none -/
  windows : List RhostWin
  /-- the member that the last write of EVT_RING_CONS named; R487, 23; 0 -/
  consMember : Nat
  /-- MEM_WRITE messages whose zero-length read is under way: member, MSG_ID; R380, 17; none -/
  zlr : List (Nat × Nat)
  /-- 16 bits, CHANGE_NO of this module; R383, 17; 0 DESIGN CHOICE, log 8 -/
  changeNo : Nat
  /-- MSG_ID of the next broadcast, counted apart from the messages to member 0; R373, 17; 1 -/
  nextB : Nat
  /-- last broadcast taken: CHANGE_NO, period, when the last TARIFF came (ns); R383, 17; none -/
  bcast : Option (Nat × Nat × Nat)
  /-- the last TARIFF came less than BCAST_HOLD ago: the broadcast period has not lapsed; R383, 17; false -/
  bcastOn : Bool
  /-- when TIME, and when TARIFF, was last broadcast, ns; R382, R383, 17; 0 -/
  timeAt : Nat
  tariffAt : Nat
  /-- join: 0 not sent, 1 sent, 2 admitted, 3 refused; R385, 17; 0 -/
  join : Nat
  joinAt : Nat
  /-- entries of DIRECTORY that follow; R385, 17; 0 -/
  joinLeft : Nat
  /-- ARCH_STATS, 10 counters x 32 bits; 17 commands; 0 -/
  stats : List Nat
  deriving DecidableEq, Repr

/-- Pair configuration body (R389). -/
structure PairCfg where
  pairId : Nat
  /-- MIRROR: synchronous; R389, 18; - -/
  sync : Bool
  lease : Nat
  guard_ : Nat
  mirrorTmo : Nat
  partner : Nat
  deriving DecidableEq, Repr

/-- PAIR_STATUS.STATE (R393). -/
inductive PairState where
  | unpaired | waiting | standby | active | solo | fenced
  deriving DecidableEq, Repr

/-- Chapter 18. -/
structure Pair where
  /-- configuration in force since the start; R389, 18; none -/
  cfg : Option PairCfg
  /-- STATE; R393, 18; Waiting (register reset 1) -/
  st : PairState
  /-- shared-media gate open; R391, 18; false -/
  gate : Bool
  /-- LEASE_TX; R391, 18; low -/
  leaseTx : Bool
  /-- LEASE_RX and when it last became what it is, ns; R392, 18; low -/
  leaseRx : Bool
  leaseRxAt : Nat
  /-- lane trained; R388, 18; false -/
  trained : Bool
  /-- isthmus session Up (a peer record of its own); R388, 18; none -/
  isthmus : Peer
  /-- the isthmus has been Up since this start; R394, 18; false -/
  wasUp : Bool
  /-- 32 bits, RENEW_NO last sent; R388, 18; 0 DESIGN CHOICE, log 8 -/
  renewNo : Nat
  /-- when RENEW was last sent, ns; R391, 18; none -/
  renewAt : Option Nat
  /-- when the RENEWs not yet acknowledged were sent: number, ns; R391, 18; none -/
  renews : List (Nat × Nat)
  /-- lease timer: started at, ns; R391, 18; none -/
  leaseAt : Option Nat
  /-- takeover timer: started at, ns, and LEASE_CYC + GUARD_CYC, GUARD_CYC of the RENEW; R392, 18; none -/
  takeover : Option (Nat × Nat × Nat)
  /-- 9 bits each, HEALTH own and partner; R399, 18; 0 -/
  health : Nat
  partner : Nat
  /-- what the two tests of the standby's eligibility last said; R401, 18; false -/
  eligOwn : Bool
  eligPartner : Bool
  /-- synchronous mode is in force; R403, 18; false -/
  sync : Bool
  /-- highest SEQ the partner has acknowledged; R402, 18; 0 -/
  acked : Nat
  /-- last SEQ the partner says it has appended; R399, 18; 0 -/
  partnerSeq : Nat
  /-- commits that wait for their JOURNAL_ACK: last SEQ, and when they completed, ns; R403, 18; none -/
  waitAcks : List (Nat × Nat)
  /-- catch-up is running; R406, 18; false -/
  catchup : Bool
  /-- it has joined the present holder as standby; R406, 18; false -/
  joined : Bool
  /-- giving up is due but deferred; R396, 18; false -/
  owesRelease : Bool
  /-- the token was taken in this P7; steps 2 to 6 of R407 done; 18; false -/
  partnerKeys : List Nat
  /-- when the last partner beacon was decoded, per phase and per radio, ns; R399, 18; none -/
  bcnPlc : List (Option Nat)
  bcnRadio : List (Option Nat)
  /-- when the DRAM walk, the known-answer tests and the flash test last passed, ns; R399, 18; none -/
  dramAt : Option Nat
  katAt : Option Nat
  flashAt : Option Nat
  /-- an uncorrectable SRAM word was found since release; R399, 18; false -/
  sramBad : Bool
  /-- PAIR_STATS, 8 counters x 32 bits; 18 commands; 0 -/
  stats : List Nat
  deriving DecidableEq, Repr

/-- A root slot (R409). -/
structure RootSlot where
  /-- 256 secret bits; R409, 19; 0 (Fresh) -/
  secret : BitVec 256
  /-- VALID; R409, 19; false -/
  valid : Bool
  /-- DEAD; R409, 19; false -/
  dead : Bool
  deriving DecidableEq, Repr

/-- Tamper configuration (R426). -/
structure TamperCfg where
  /-- RESPONSE_0..9: 0 off, 1 alarm, 2 kill; R426, 19; 0 for sources 0 to 3, 1 for 4 to 9 -/
  response : List Nat
  /-- LEVEL_0..3; R426, 19; 0 -/
  level : List Nat
  /-- FILTER in ms; R426, 19; 10 -/
  filter : Nat
  deriving DecidableEq, Repr

/-- The update-counter record's body (R417). -/
structure CounterBody where
  /-- 32 bits, C; R416, 19; - -/
  c : Nat
  /-- losses since the HWM filled; R417, 19; 0 -/
  k : Nat
  /-- floors of image types 0x01 to 0x07, 8 bits each; R461, 21; 0 -/
  floors : List Nat
  deriving DecidableEq, Repr

/-- A key entry of an update message as REEF holds it while it is applied: the new key unwrapped (none: the unwrap failed), and what
its format alone says (status 0, 3 or 5) (R418, R419). -/
structure KeyEntry where
  id : Nat
  mode : Nat
  key : Option Bytes
  blob : Bytes
  pre : Nat
  deriving DecidableEq, Repr

/-- A key update whose entries are being applied (R419). -/
structure KeyMsg where
  desc : Nat
  /-- its entries; R418, R419, 19; - -/
  entries : List KeyEntry
  counter : Nat
  /-- status byte per entry; R419, 19; none yet -/
  status : List (Option Nat)
  /-- SEQ of the last record appended for it; R419, 19; 0 -/
  seq : Nat
  deriving DecidableEq, Repr

/-- Chapter 19. -/
structure Keys where
  /-- 96 one-time bits, UNIT_ID; R408, 19; programmed at module test: Config.unitId, log 7 -/
  unitId : BitVec 96
  /-- Ovkeja's image public key, whose hash one-time bits hold; R457, 21; Config.imageKey, log 7 -/
  imageKey : Nat × Nat
  /-- ROOT_SLOT_0..3; R409, 19; Fresh -/
  slots : List RootSlot
  /-- HWM bits set, 0 to 1,024; R409, 19; 0 -/
  hwm : Nat
  /-- KEY_STATUS.STATE: 0 Uncommissioned, 1 Commissioned, 2 Keyless, 3 Exhausted; R411, 19; 0 -/
  st : Nat
  /-- REEF is unlocked; R89, R411, 19; false -/
  unlocked : Bool
  /-- two-bank update-counter record (type 0x0002); R91, R416, 19; empty -/
  counter : TwoBank CounterBody
  /-- C as REEF holds it; R416, 19; 0 -/
  c : Nat
  k : Nat
  /-- keys of the cache by short index, most recently used first (16 bytes each); R414, 19; empty -/
  cache : List (Nat × Bytes)
  /-- live copy of the tamper configuration in HOLM; R426, 19; none -/
  live : Option TamperCfg
  /-- reference levels of sources with LEVEL 3, 4 bits; R426, 19; 0 -/
  refs : Nat
  /-- levels of TAMPER_0..3, 4 bits; R425, 19; 0 DESIGN CHOICE, log 8 -/
  levels : Nat
  /-- TAMPER_LATCH.LATCH, 10 bits; R427, 19; 0 -/
  latch : Nat
  /-- TAMPER_LATCH.KILLED, 10 bits; R428, 19; 0 -/
  killed : Nat
  /-- TAMPER_LEVEL.ACTIVE, 10 bits; R425, 19; 0 -/
  active : Nat
  /-- pending-kill record in the lagoon: SOURCES, STATE, TIME; R429, 19; 0 -/
  pendSources : Nat
  pendState : Nat
  pendTime : Nat
  /-- time of the last kill; 19 commands; 0 -/
  killTime : Nat
  /-- a kill sequence runs (steps 2 to 5 of R428); 19; false -/
  killing : Bool
  /-- TAMPER or KEY_KILL are owed at the next P7; R427, R428, 19; false -/
  oweTamper : Bool
  oweKill : Bool
  /-- open debug challenge: 64 bytes and when it was made (ns); R430, 19; none -/
  challenge : Option (Bytes × Nat)
  /-- debug unlocked; R430, 19; false -/
  debug : Bool
  /-- failed answers, 2 bits; R430, 19; 0 -/
  fails : Nat
  /-- a key update is being applied; R419, 19; none -/
  msgs : List KeyMsg
  /-- KEY_STATS, 9 counters x 32 bits; 19 commands; 0 -/
  stats : List Nat
  /-- 8 bits, JTAG instruction register; R490, 23; 0xFF (BYPASS) -/
  jtagIr : Nat
  deriving DecidableEq, Repr

end Sys2Proof.Machine
end

