-- ==== Sys2Proof/Machine/StStore.lean ====
section
/-! DEFINITION. The checkpointed structures (Db), the journal, the ledger's own state (chapters 10 to 12), the flash store
(chapter 20), images and campaigns (chapter 21), the recorder and the registers of chapters 22 and 23, and the option store. -/
namespace Sys2Proof.Machine
open Sys2Proof

/-- What is done when a record is durable (R31). -/
inductive DurAct where
  | complete (desc status detail : Nat) (result : Bytes)
  | posted (r : JRec)                       -- a POSTING: deliver, balance
  | answer (id : Nat) (status : Nat) (counter : Nat) (link route : Nat)
  | freeIndex (short : Nat)
  | quarVisible (q : Quar)
  | apply (r : JRec)                        -- a change that acts once its command completes (R146, R215)
  | calKept (cal count : Nat) (sec : Int)   -- the option store's copy of a crossing count, and its instant in TAI seconds (R234, R236)
  deriving DecidableEq, Repr

/-- The journal (R31, R32, R247, R507). -/
structure Journal where
  /-- 64 bits, next SEQ; R247, 10; 1 DESIGN CHOICE, log 8 -/
  next : Nat
  /-- records appended since the last commit started, oldest first; R32, 01; none -/
  open_ : List JRec
  /-- records of the commit in progress; none: no commit runs; R32, 01; none -/
  commit : Option (List JRec)
  /-- when the last commit started, ns; R32, 01; none -/
  startAt : Option Nat
  /-- records programmed since the older kept root, oldest first; R241, R440; none -/
  flash : List JRec
  /-- highest SEQ programmed; R31, 01; 0 -/
  programmed : Nat
  /-- highest SEQ durable; R31, 01; 0 -/
  durable : Nat
  /-- what waits for durability, by SEQ; R31, 01; none -/
  waits : List (Nat × DurAct)
  /-- a commit was cut by IDLE_TMO_3 and is to be programmed again; R507, 01; none -/
  cut : Option (List JRec)
  deriving DecidableEq, Repr

/-- A billing calendar (R234): KIND 0 none, 1 daily, 2 weekly, 3 monthly. -/
structure BillCal where
  kind : Nat
  day : Nat
  hour : Nat
  minute : Nat
  deriving DecidableEq, Repr

/-- The ledger's own state (chapter 10). -/
structure Ledger where
  /-- levels of TARIFF_0..3, 4 bits; R225, 10; 0 DESIGN CHOICE, log 8 -/
  code : Nat
  /-- a stable code has been taken since LEDGER's release; R240, 10; false -/
  sampled : Bool
  /-- TARIFF_STATUS.CODE; 10 registers; 0 -/
  lastCode : Nat
  /-- translation table in force; R225, 10; none: period 0 -/
  map : List Nat
  /-- translation table that waits for the next stable code; R250, 10; none -/
  nextMap : Option (List Nat)
  /-- host override: period and expiry (ns, none: until cleared); R226, 10; none -/
  ovr : Option (Nat × Option Nat)
  /-- TARIFF_STATUS.PERIOD and SOURCE: 0 inputs, 1 broadcast, 2 override; R226, 10; 0 -/
  period : Nat
  source : Nat
  /-- 16 bits, CHANGES; 10 registers; 0 -/
  changes : Nat
  /-- billing sweeps under way: calendar, B, nominal instant, last short index closed; R235, 10; none -/
  sweeps : List (Nat × Nat × Int)
  /-- start of the outage that LEDGER's absence opened (TAI ns); R240, 10; none -/
  outStart : Option Int
  /-- t_rest of that outage, where LEDGER could not append at the first stable code; R240, R242, 10; none -/
  outRest : Option Int
  /-- when a stable code was taken that LEDGER could not journal (TAI ns); R225, R226, 10; none -/
  codeOwed : Option Int
  /-- CALC islands missing (2 bits) as the custody channels last recorded; R244, R245, 10; 0 -/
  missing : Nat
  /-- LEDGER_STATS, 6 counters x 32 bits; R250, 10; 0 -/
  stats : List Nat
  /-- PREPAY_STATS, 7 counters x 32 bits; R260, 11; 0 -/
  prepayStats : List Nat
  /-- BAL_STATS, 7 counters x 32 bits; R284, 12; 0 -/
  balStats : List Nat
  /-- postings durable and not yet folded, by SEQ; R29 step 14, R269, 12; none -/
  folds : List JRec
  /-- METER_SILENT stations of a sweep are not kept; readings posted since the last sample of channel 29; R475, 22; 0 -/
  posted : Nat
  /-- custody channels whose record waits to be rebuilt from its journal state; R27, 01; none -/
  rebuild : List Nat
  deriving DecidableEq, Repr

/-- A sector as programmed: its tag and its data (R434). -/
structure Sector where
  lsa : Nat
  ns : Nat
  pad : Bool
  copy : Bool
  writeSeq : Nat
  copySeq : Nat
  /-- 4,096 bytes of HOSTNS; other namespaces: none kept here; R433, 20; - -/
  data : Bytes
  /-- ranges of a DISCARD record: NS, first LSA, COUNT; R436, 20; none -/
  ranges : List (Nat × Nat × Nat)
  deriving DecidableEq, Repr

/-- A mapped sector of HOSTNS (R434, R436): the record that wins, and its content. -/
structure HostSector where
  writeSeq : Nat
  copySeq : Nat
  data : Bytes
  deriving DecidableEq, Repr

/-- State of a managed block. -/
inductive BlockSt where
  | open_ | closed | deferred | bad
  deriving DecidableEq, Repr

/-- A managed block that is not on a free list (R431, R437, R444). -/
structure Block where
  die : Nat
  num : Nat
  st : BlockSt
  /-- 32 bits, ERASE_COUNT; R431, 20; 1 at its first opening -/
  erases : Nat
  reads : Nat
  stream : Nat
  openSeq : Nat
  /-- pages programmed, oldest first: four sectors each; R431, 20; none -/
  pages : List (List Sector)
  /-- checkpoint number at which it was emptied; R444, 20; none -/
  emptied : Nat
  deriving DecidableEq, Repr

/-- A checkpoint root (R440): N, J, S and the image. -/
structure Root where
  n : Nat
  j : Nat
  s : Nat
  image : Db
  /-- the root reads back with a correct CRC; R441, 20; true -/
  good : Bool
  /-- its copy of the meter table reads back; R137, 06; true -/
  copyGood : Bool
  deriving DecidableEq, Repr

/-- A write or discard of HOSTNS that waits for its pages: descriptor, sequence numbers not yet programmed, RESULT. -/
structure HostWrite where
  desc : Nat
  left : List Nat
  result : Bytes
  deriving DecidableEq, Repr

/-- Chapter 20. -/
structure Flash where
  /-- FLASH_STATUS.MOUNT; R442, 20; 0 -/
  mount : Nat
  /-- READ_ONLY; R450, 20; false -/
  readOnly : Bool
  /-- the store holds formatted blocks; R443, 20; false -/
  formatted : Bool
  /-- blocks not on a free list; R437, 20; none -/
  blocks : List Block
  /-- per die: next block never opened, blocks 16 to 10,879; R432, R448, 20; 16 -/
  fresh : List Nat
  /-- per die: erased blocks at the tail of the free list, with their erase counts; R448, 20; none -/
  free : List (List (Nat × Nat))
  /-- sectors to program per stream 0, 1, 2; R437, 20; none -/
  queues : List (List Sector)
  /-- 64 bits, next sequence number; R435, 20; 1 DESIGN CHOICE, log 8 -/
  seq : Nat
  /-- dies that stopped answering; R446, 20; none -/
  deadDies : List Nat
  /-- grown bad blocks; R446, 20; 0 -/
  grown : Nat
  /-- parity pages programmed for the stripes of open superblocks: stream and stripe; R437, 20; none -/
  parity : List (Nat × Nat)
  /-- SPARE_LEFT at which FLASH_HEALTH was raised last; R450, 20; none -/
  spareMark : Option Nat
  /-- checkpoint running: N, J, S and the frozen image, and the descriptor that asked; R439, 20; none -/
  running : Option (Root × Option Nat)
  /-- number of the last checkpoint; R439, 20; 0 -/
  lastN : Nat
  /-- when the last checkpoint started, ns; R439, 20; none -/
  cpAt : Option Nat
  /-- bytes programmed into the store and into JOURNAL since then; R439, 20; 0 -/
  cpBytes : Nat
  cpJournal : Nat
  /-- the two latest valid roots, newest first; R440, 20; none -/
  roots : List Root
  /-- size of HOSTNS in MiB; R433, 20; 0 DESIGN CHOICE, log 8 -/
  hostMiB : Nat
  hostWrites : List HostWrite
  /-- map and content of HOSTNS by LSA; R434, R436, 20; unmapped -/
  host : Tab HostSector
  /-- delivery backlog of LOG, oldest first; R453, 20; none -/
  log : List LogEntry
  /-- confirmed slots still in the pool; R454, R455, 20; 0 -/
  settled : Nat
  /-- BACKLOG_HIGH may be raised, FLASH_FULL has been raised for the pool; R456, 20; true, false -/
  backlogArmed : Bool
  poolFull : Bool
  /-- SEQ of the first JOURNAL record whose sector is lost; R241, R447, 20; none -/
  lostRec : Option Nat
  /-- UNCORRECTABLE, PROGRAM_FAIL, ERASE_FAIL, 32 bits; 20 commands; 0 -/
  uncorrectable : Nat
  programFail : Nat
  eraseFail : Nat
  /-- corrected bits per codeword and NAND temperature histograms, 16 bins each; R449, 20; 0 -/
  bits : List Nat
  temps : List Nat
  /-- FLASH_STATS, 10 counters x 32 bits; 20 commands; 0 -/
  stats : List Nat
  deriving DecidableEq, Repr

/-- An image slot or staging entry (R457, R462). -/
structure ImgSlot where
  /-- 512 bytes; R459, 21; - -/
  header : Bytes
  /-- body bytes received; R462, 21; empty -/
  body : Bytes
  complete : Bool
  deriving DecidableEq, Repr

/-- What is kept per image type 0x01 to 0x07 (R457 to R466). -/
structure ImgType where
  slotA : Option ImgSlot
  slotB : Option ImgSlot
  /-- confirmed and running slot: 0 A, 1 B; R466, 21; 0 -/
  confirmed : Nat
  running : Nat
  /-- 0 confirmed, 1 trial, 2 fallen back, 3 receiving; 21 commands; 0 -/
  state : Nat
  /-- a transfer runs into the inactive slot; R462, 21; false -/
  receiving : Bool
  /-- end of the trial window in operating seconds; R464, 21; none -/
  deadline : Option Nat
  /-- operating second from which the health criterion counts; R466, 21; 0 -/
  since : Nat
  deriving DecidableEq, Repr

/-- A target of a campaign (R468, R469). -/
structure Target where
  short : Nat
  /-- 0 excluded, 1 announced, 2 complete, 3 applied, 4 refused; 21 commands; 1 -/
  state : Nat
  result : Nat
  /-- answered ANNOUNCE with RESULT 0; R469, 21; false -/
  answered : Bool
  /-- blocks missing as last reported; R469, 21; none -/
  missing : List Nat
  /-- FIRST_BLOCK of the QUERY that waits for its answer; R469, 21; none -/
  asked : Option Nat
  /-- every QUERY of the present round has been answered; R469, 21; false -/
  heard : Bool
  deriving DecidableEq, Repr

/-- A campaign (R468 to R470). -/
structure Campaign where
  /-- 16 bits, CAMPAIGN_ID; R469, 21; - -/
  id : Nat
  /-- staging entry; R468, 21; - -/
  entry : Nat
  /-- 5 bits, MEDIA: L1, L2, L3, radio A, radio B; 21 commands; - -/
  media : Nat
  rounds : Nat
  burst : Nat
  /-- APPLY_DELAY in s; R469, 21; - -/
  delay : Nat
  /-- CAMPAIGN_KEY, 16 bytes; R468, 21; - -/
  key : Bytes
  /-- START: network time of the first multicast block; R469, 21; not stated, log 41 -/
  start : Nat
  /-- round under way, from 1; R469, 21; 1 -/
  round : Nat
  /-- blocks still to send in the round on power-line, radio A and radio B; R469, R470, 21; all -/
  toPlc : List Nat
  toA : List Nat
  toB : List Nat
  targets : List Target
  /-- 16 bits, CMD_SEQ given last; R178, 08; 0 DESIGN CHOICE, log 8 -/
  cmdSeq : Nat
  /-- network time at which a target was last found complete; R469, 21; 0 -/
  lastDone : Nat
  /-- APPLY_TIME once APPLY has been sent; R469, 21; none -/
  applyAt : Option Nat
  /-- every target has answered APPLY or is out: the campaign has ended and is kept for CAMPAIGN_STATUS; R469, 21; false -/
  finished : Bool
  deriving DecidableEq, Repr

/-- An activation under way (R463). -/
structure Activation where
  type : Nat
  /-- step: for ATOLL the group being reloaded; for CALC 0 CALC_A, 1 CALC_B; for PLC and RADIO 0 waits for the beacon; R463, 21; 0 -/
  step : Nat
  desc : Nat
  /-- TRIAL in s; R464, 21; 600 -/
  trial : Nat
  /-- it returns to the confirmed slot; R465, 21; false -/
  back : Bool
  /-- the step's own reset is over: its island has been released on the new slot, so a further reset counts as an attempt; R464, R465, 21; false -/
  loaded : Bool
  deriving DecidableEq, Repr

/-- Chapter 21. -/
structure Images where
  types : List ImgType
  /-- 64 staging entries; R457, 21; empty -/
  staging : Tab ImgSlot
  /-- staging entries whose transfer runs; R462, 21; none -/
  stagingRx : List Nat
  /-- floors of types 0x01 to 0x07, 8 bits; R461, 21; 0 -/
  floors : List Nat
  act : Option Activation
  campaigns : List Campaign
  nextCampaign : Nat
  /-- health criteria counters of the trial: 0 recorder flush, 1 table sweep, 2 checkpoint; 3 items ended; 4 to 6 beacons of L1 to L3;
  7 and 8 beacons of radio A and B; 9 beacons skipped other than by the dwell accountant; 10 readings converted since the last custody
  mismatch; R466, 21; 0 -/
  crit : List Nat
  /-- TEIs bound before a PLC activation, and those heard since; R466, 21; none -/
  bound : List Nat
  heard : List Nat
  /-- images that other members stage here: member, STAGE_ID, staging entry (true) or type, its number; R467, 21; none -/
  stageRx : List (Nat × Nat × Bool × Nat)
  /-- images staged to another member: STAGE_ID, descriptor, member, bytes of the body sent; R467, 21; none -/
  stageTx : List (Nat × Nat × Nat × Nat)
  /-- 16 bits, next STAGE_ID; R467, 21; 1 DESIGN CHOICE, log 8 -/
  nextStage : Nat
  deriving DecidableEq, Repr

/-- A recorder channel (R475, R476). -/
structure RecCh where
  samples : Nat
  bins : List Nat
  /-- MIN and MAX with their times, and that the times are invalid; R476, 22; none -/
  min : Option (Int × Nat × Bool)
  max : Option (Int × Nat × Bool)
  /-- the next sample sets both (RECORDER_EXT_RESET); R476, 22; false -/
  fresh : Bool
  binStopped : Bool
  deriving DecidableEq, Repr

/-- A recorder record in its slot (R477). -/
structure RecRec where
  channel : Nat
  generation : Nat
  opSeconds : Nat
  powerCycles : Nat
  data : RecCh
  deriving DecidableEq, Repr

/-- Chapters 22 and 23: the recorder, the event details, telemetry and the registers that no other structure holds. -/
structure Rec where
  live : List RecCh
  /-- shadow accumulators while frozen; R479, 22; none -/
  shadow : List RecCh
  frozen : Bool
  /-- automatic thaw, ns; R479, 22; none -/
  thawAt : Option Nat
  flushDue : Bool
  /-- records in the slots of RECORDER; R477, 22; none -/
  slots : Tab RecRec
  /-- 16 bits, newest generation flushed; R480, 22; 0 -/
  generation : Nat
  /-- operating second of the last hourly flush / 3,600; R477, 22; 0 -/
  lastHour : Nat
  /-- REC_CURSOR; R480, 22; 0 -/
  autoInc : Bool
  liveSel : Bool
  index : Nat
  loading : Bool
  /-- 256 bytes of the window; R480, 22; 0 -/
  window : Bytes
  countStuck : Bool
  countLost : Bool
  /-- words corrected in every island since the last sample of channel 26; R475, 22; 0 -/
  fixed : Nat
  /-- EVT_DETAIL_32..63: COUNT and INFO; R471, 22; 0 -/
  detail : List (Nat × Nat)
  /-- CAPE's copy of EVT_STATUS[63:32] and of the details; R472, 22; 0 -/
  copy : BitVec 32
  copyDetail : List (Nat × Nat)
  /-- CNT_SAT, 16 bits; R473, 22; 0 -/
  cntSat : Nat
  /-- ECC_LOG: records by 64-bit index, oldest first, at most 1,024; R474, 22; none -/
  eccLog : List (Nat × BitVec 64)
  eccNext : Nat
  /-- BG_LATE, 11 counters x 32 bits; R481, 22; 0 -/
  bgLate : List Nat
  /-- completed fraction of each background activity in 1/10,000 and when its period began, ns; R481, 22; 0 -/
  bgDone : List Nat
  bgSince : List Nat
  /-- WDT_CTRL: SYS_PERIOD 7 bits, ISL_PERIOD 16 bits; 23; 8 and 50 -/
  sysPeriod : Nat
  islPeriod : Nat
  /-- SLEW_CTRL, 32 bits: in force and written; R486, 23; 0xAAAA_AAAA -/
  slew : BitVec 32
  slewNew : BitVec 32
  slewAt : Nat
  /-- GPIO_CTRL: OE, OUT and the filtered levels, 8 bits each; 23; 0 -/
  gpioOe : Nat
  gpioOut : Nat
  gpioIn : Nat
  /-- HOST_CTRL.LOCKED; R483, 23; false -/
  locked : Bool
  /-- OPT_STATUS, 12 bits, and OPT_SEQ_1..3; 23; 0 -/
  optStatus : Nat
  optSeq : List Nat
  /-- ETH_STATUS: link, speed, duplex per port; 23; none -/
  eth : List (Bool × Nat × Bool)
  /-- CLK_STATUS.REF_OK; 23; true while HOLM runs PRESUMED, log 8 -/
  refOk : Bool
  /-- DBG_ITEM_SEL, 16 bits; 23; 0 -/
  itemSel : Nat
  /-- the item copied by a read of DBG_ITEM_0, 32 bytes; R488, 23; 0 -/
  itemCopy : Bytes
  deriving DecidableEq, Repr

/-- The archipelago roles: a module takes exactly one (R2). -/
inductive Role where
  | standalone | field | hub
  deriving DecidableEq, Repr

/-- The option store's body (R91, RECORD_TYPE 0x0001): every value that a command keeps there, the authority key and the module
certificate. Its byte layout is not laid down in the manual (log 13). -/
structure Opt where
  sched : SchedSet
  intake : IntakeSet
  /-- TARIFF_MAP_SET; R250, 10; none -/
  tariffMap : List Nat
  /-- FOLLOW_BROADCAST; R226, 10; 0 DESIGN CHOICE, log 8 -/
  follow : Bool
  cals : List BillCal
  /-- crossing counts of the calendars (the option store's copy); R234, 10; 0 -/
  counts : List Nat
  /-- TAI seconds from which a calendar's next boundary is sought: when it was set, or last crossed (the model's own mark); R234, R236, R250,
  10; 0 -/
  calFrom : List Int
  /-- STEP_LIMIT in ms; R238, 10; 2000 -/
  stepLimit : Nat
  /-- custody bindings: channel to short index; R224, R250, 10; none -/
  custody : Tab Nat
  /-- host override kept (R250): period, none expiry; 10; none -/
  ovr : Option (Nat × Option Nat)
  /-- friendly calendar: periods DAYS, START, END and holidays; R259, 11; none -/
  friendly : List (Nat × Nat × Nat)
  holidays : List Nat
  plc : PlcSet
  radio : List RadioSet
  /-- HOP_VERSION per radio; R331, 14; 0 -/
  hopVersion : List Nat
  profile3 : Option RegProfile
  wired : List WiredSet
  polls : Tab PollEntry
  time : TimeCfg
  zone : Zone
  /-- ZONE_OFFSET that waits for billing calendar 0; R358, 16; none -/
  nextZone : Option Int
  /-- 528 bytes, the buffer of the last TIME_ZONE_SET, which ZONE carries; R358, R384; empty: none yet -/
  zoneBuf : Bytes
  pulses : List Tpulse
  arch : ArchSet
  /-- 12 bits, member ID from the configuration image; R11, R363, 17; 0 -/
  member : BitVec 12
  /-- role from the configuration image; R2, 00; standalone -/
  role : Role
  /-- AUTO_RESEED; R136, 06; 1 -/
  autoReseed : Bool
  /-- REFRESH_BITS and READ_LIMIT; R449, 20; 24 and 200,000 -/
  refreshBits : Nat
  readLimit : Nat
  /-- size of HOSTNS in MiB; 20 commands; 0 -/
  hostMiB : Nat
  /-- authority public key (affine) and DEBUG_ALLOWED; R423, 19; none -/
  authority : Option (Nat × Nat)
  debugAllowed : Bool
  /-- module certificate, DER; R424, 19; none -/
  cert : Option Bytes
  tamper : Option TamperCfg
  /-- confirmed slots of types 0x01 to 0x07; R466, 21; 0 -/
  confirmed : List Nat
  deriving DecidableEq, Repr

end Sys2Proof.Machine
end

