-- ==== Sys2Proof/Machine/Straits.lean ====
section
/-! DEFINITION. Which straits join the islands (R15) and which sound port is whose (chapter 01). -/
namespace Sys2Proof.Machine
open Sys2Proof

/-- The islands of the reading path, step by step (R29): links, INTAKE, ATOLL, LOOKUP, REEF, the CALC islands, LEDGER, MEM and PAIR, and the
links or NET again. -/
def pathSteps : List (List Nat) := [[4, 10, 12, 13], [4], [9], [5], [2], [4], [6, 7], [8], [3, 11], [4, 10, 12, 13], [10], [8]]

/-- Two islands stand in consecutive steps of the path. -/
def nextOnPath (a b : Nat) : Bool :=
  (pathSteps.zip pathSteps.tail).any (fun p => (p.1.contains a && p.2.contains b) || (p.1.contains b && p.2.contains a))

/-- A strait joins two islands (R15): every island has one to CAPE and one to HOLM; data straits join the islands along the reading path and
join each of them to ATOLL. The manual lists no pairs: those of consecutive steps are DEDUCED (log 93). -/
def straitJoins (a b : Nat) : Bool :=
  a < 14 && b < 14 && a != b &&
    (a ≤ 1 || b ≤ 1 || nextOnPath a b || (a == 9 && pathSteps.any (·.contains b)) || (b == 9 && pathSteps.any (·.contains a)))

/-- The island of a sound port (the table of sound ports, chapter 01). -/
def portIsland (p : Nat) : Nat := [1, 2, 9, 9, 9, 9, 4, 5, 6, 7, 8, 10, 10, 11, 12, 13].getD p 0

end Sys2Proof.Machine
end

