-- ==== Sys2Proof/Machine/State.lean ====
section
/-! DEFINITION. The state of the block: the parts of chapters 01 to 23 (StBase to StStore), the queue of waiting commands, the record
of what left the module, and the reset state. Outcomes: Fault and Refusal. -/
namespace Sys2Proof.Machine
open Sys2Proof

/-- What leaves the module, in order (R36 states which orders are kept; the list is the model's own record of the actions). -/
inductive Output where
  | hostWrite (addr : Nat) (data : Bytes) (relaxed : Bool)      -- DMA write to host memory (R123)
  | hostRead (tag addr len : Nat)                               -- DMA read of host memory (R118)
  | zeroRead (ring : Nat)                                       -- zero-length read of a fence (R124)
  | zeroReadFor (member msgId : Nat)                            -- zero-length read behind a member's MEM_WRITE (R380)
  | msix (vector addr data : Nat)                               -- MSI-X message (R127)
  | strait (src dst code : Nat)                                 -- control transfer: 0x01 IDLE_REQ, 0x03 ERR, 0x04 RESEND; 0x100 STRAIT_ABORT
  | plc (phase : Nat) (fc body : Bytes)                         -- power-line frame: FC bytes 0 to 12 (the CRC is the standard's), payloads (R292)
  | radio (radio channel mode : Nat) (frame : Bytes)            -- radio frame (R319)
  | wired (port address rate framing : Nat) (req : WiredReq)    -- a request is driven on the bus (R337, R340, R341)
  | datagram (address port : Nat) (data : Bytes)                -- Urrauf datagram (R371)
  | isthmus (data : Bytes)                                      -- datagram on the serial lane (R388)
  | journal (records : List JRec) (bytes : Bytes)               -- JOURNAL message to the partner, and its records in their layout (R402)
  | image (n : Nat)                                             -- CHECKPOINT copy to the partner (R406)
  | ptp (port : Nat) (kind seq : Nat) (stamp : Int)             -- PTP message sent (R354)
  | announce (priority1 cls priority2 gm timeSource : Nat) (utcOffset : Int)   -- data set of the Announce message sent (R354)
  | pulse (output : Nat) (instant : Int)                        -- TPULSE edge (R361)
  | cut (medium : Nat)                                          -- a transmission ended within 2 us: 0 power-line, 1 radio, 2 RS-485 (R45)
  | jtag (data : Bytes)                                         -- data register shifted out (R490)
  deriving DecidableEq, Repr

/-- The state of the module. -/
structure State where
  /-- commands that wait, first in, first out; the model's own; empty -/
  pending : List Instr
  /-- number of the next free value (the model's own: Config's constants are applied to it); DESIGN CHOICE, log 3; 0 -/
  free : Nat
  /-- what has left the module, oldest first (the model's own record); DESIGN CHOICE, log 10; empty -/
  out : List Output
  /-- elapsed nanoseconds of the model's own time line; DESIGN CHOICE, log 1; 0 -/
  now : Nat
  /-- chapter 01: straits, the sound, DRAM, error counters -/
  fab : Fab
  /-- fourteen islands; R14, R82, 01 and 04; see Isl -/
  isl : List Isl
  /-- chapter 03 -/
  pw : Power
  /-- chapter 04 -/
  rs : Reset
  /-- chapter 05 -/
  host : HostIf
  /-- chapter 06 -/
  tbl : TableSt
  /-- chapter 07 -/
  sch : Sched
  /-- chapter 08 -/
  ik : Intake
  /-- chapter 09 -/
  cv : Conv
  /-- checkpointed structures -/
  db : Db
  /-- the journal -/
  jr : Journal
  /-- chapters 10 to 12 -/
  lg : Ledger
  /-- chapter 13 -/
  plc : Plc
  /-- chapter 14 -/
  rad : Radio
  /-- chapter 15 -/
  wir : Wired
  /-- chapter 16 -/
  tm : Time
  /-- chapter 17 -/
  arch : Arch
  /-- chapter 18 -/
  pair : Pair
  /-- two-bank pair configuration (type 0x0003); R91, R389, 18; empty -/
  pairStore : TwoBank PairCfg
  /-- chapter 19 -/
  keys : Keys
  /-- chapter 20 -/
  fl : Flash
  /-- chapter 21 -/
  img : Images
  /-- chapters 22 and 23 -/
  tel : Rec
  /-- options in force; R91, R95, 04; the defaults -/
  opt : Opt
  /-- two-bank option store (type 0x0001); R91, 04; empty -/
  optStore : TwoBank Opt
  deriving DecidableEq, Repr

/-- Why the machine stops. -/
inductive Fault where
  /-- Raised by SOUND_REQUEST: a DRAM address outside the 2 GiB that exist (R37). Safe: the machine stops where no effect is stated. -/
  | dramAddress
  deriving DecidableEq, Repr

/-- Why a command is refused. -/
inductive Refusal where
  /-- Raised by an arm of exec whose command has no meaning yet. Safe: the machine stops. -/
  | notModelled (mnemonic : String)
  deriving DecidableEq, Repr

/-- The outcome of a command. -/
abbrev Out := Host.Outcome State Fault Refusal

/-! ### Reset values, part by part -/

def TwoBank.empty {α : Type} (type : Nat) : TwoBank α := { type := type, bank0 := ⟨[], false⟩, bank1 := ⟨[], false⟩ }

def Fab.reset : Fab :=
  { lanes := [], weights := [2, 2, 4, 4, 4, 4, 4, 4, 4, 4, 4, 4, 2, 2, 2, 2], rrPort := 0, rrLeft := 0, dram := [], poison := [],
    answers := [], soundWait := [], corrected := [], uncorrected := [], eccLimit := List.replicate 14 1024 }

def Isl.reset : Isl := { phase := .off, since := 0, lockFails := 0, byReset := false, srcNo := 0, idleTmo := 1000, tmoNow := 1000, grant := 0, idle := 0, waited := 0 }

def Power.reset : Power :=
  { vin := 0, vinOk := false, vbat := true, st := .off, before := .run, trimCores := 0, holdWake := none, warned := false, warnAt := 0,
    lastCommit := false, hotOff := false, tj := 25, halved := false, stopB := false, cap := 140, waiting := [], p1Switch := 0,
    p1Since := 0 }

def Reset.reset : Reset :=
  { cause := 1, lastReach := 0, episode := false, asserted := [], reach := 0, epCauses := 0, epStart := 0, inP2 := false, phase := 0,
    starting := true, phaseSince := 0, thermalHold := false, perst := true, modeLevel := 6, mode := 0, recovery := false,
    optUnverified := false, optDefault := false, p2Again := false, powerCycles := 0, opSeconds := 0, opNs := 0,
    bkp := List.replicate 8 0, lagoon := [], epCount := 1, attempts := List.replicate 14 0, episodes := [{ reach := 0, causes := 1, start := 0, ready := 0 }],
    lagoonFormat := Config.freeNat 0, lagoonDraw := (Config.trng 0).toNat % 2 ^ 128, holmLost := true, servoCold := true, flashNoHistory := false, dramTrainCold := false }

def Ring.reset : Ring :=
  { base := 0, cbase := 0, sqLog := 6, cqLog := 6, flush := 10, prio := 3, delivery := false, enable := false, state := .disabled,
    error := 0, sqHead := 0, coalTime := 0, coalCount := 1, sqTail := 0, cqHead := 0, cqIndex := 0, phase := true, reserved := 0,
    unnotified := 0, coalSince := none, failed := false, zlr := false, zlrBack := false, batch := 1, confirmed := 0 }

def HostIf.reset : HostIf :=
  { link := .down, speed := 0, width := 0, l1Sub := 0, maxPayload := 128, maxRead := 512, relaxOn := true, complTmo := 0, aer := 0, wakeN := false, setupDone := false, rings := List.replicate 32 Ring.reset, descs := [],
    nextDesc := 0, rr := 31, dma := [], owed := [], nextTag := 0, steer := [], bufs := [], evt := 0, evtEnable := 0,
    evtVector := List.range 64, msixMask := BitVec.allOnes 64, msixFmask := false, msixEnable := false, msixTable := List.replicate 64 (0, 0), msixPending := 0 }

def TableSt.reset : TableSt :=
  { slots := [], epoch := 0, hashRoot := 0, state := 2, pressureArmed := true, reseed := none, ovfReload := false, ovfReset := false, copyEpoch := 0, held := [], bktReload := [] }

def SchedSet.reset : SchedSet := { budget := 10, borrow := true, readingPrio := 4 }

def Core.reset : Core := { powered := false, draining := false, drained := true, drainSince := 0, image := 0 }

def Sched.reset : Sched :=
  { items := [], arrival := 0, deps := [], locks := [], flowDraw := 0, cores := List.replicate 24 Core.reset, set := SchedSet.reset,
    nextSet := none, used := 0, busyNow := [0, 0, 0], resumes := 0, window := 0, stats := List.replicate 8 0, sat := 0, busy := [0, 0, 0], asks := [], faults := [] }

def IntakeSet.reset : IntakeSet := { replayLimit := 100, valLimit := 100, nakHoldoff := 10 }

def Queue.reset : Queue := { frames := [], taken := [], coming := [] }

def Intake.reset : Intake :=
  { queues := List.replicate 8 Queue.reset, stats := List.replicate 70 0, set := IntakeSet.reset, replayWindow := 0,
    replayCount := 0, replayRaised := false, valCount := 0, valRaised := false, nakAt := [], keylessLast := [] }

def Conv.reset : Conv := { verA := 0, verB := 0, okA := true, okB := true, katA := false, katB := false, failA := false, failB := false, katFrom := 0, stats := List.replicate 10 0 }

/-- WARM: an island that failed its known-answer test waits for a pass (R216; log 43). -/
def Conv.warm (c : Conv) : Conv := { Conv.reset with failA := c.failA, failB := c.failB, katFrom := c.katFrom }

def Db.reset : Db :=
  { entries := [], purging := [], mstate := [], std := [], cust := [], minutes := [], audits := [], keys := [], valves := [],
    nodes := [], memb := [], inds := [], fps := [], polls := [], profiles := [], pfxs := [], virials := [], snaps := [], quars := [],
    plog := [], reports := [], timeline := [], outages := [], crossings := List.replicate 4 (0, 0, 0), inputPeriod := 0, enrolled := [], applied := 0, folded := 0 }

def Journal.reset : Journal :=
  { next := 1, open_ := [], commit := none, startAt := none, flash := [], programmed := 0, durable := 0, waits := [], cut := none }

def Ledger.reset : Ledger :=
  { code := 0, sampled := false, lastCode := 0, map := [], nextMap := none, ovr := none, period := 0, source := 0, changes := 0,
    sweeps := [], outStart := none, outRest := none, codeOwed := none, missing := 0, stats := List.replicate 6 0, prepayStats := List.replicate 7 0,
    balStats := List.replicate 7 0, folds := [], posted := 0, rebuild := [] }

def PlcSet.reset : PlcSet :=
  { band := 0, phases := 0, nid := 0, txAtten := 0, erase := 12, restore := 0, noiseT := [10, 20, 30], zT := [100, 30, 10],
    contLen := 300 }

def PlcPhase.reset : PlcPhase :=
  { set := PlcSet.reset, cls := 0, lowRun := 0, lowMax := 0, noise := 0, imped := 0, beaconNo := 0, beaconing := false,
    lastPeriod := none, zcOffset := 0, period := 0, crossAt := none, restoreEnd := none, alloc := [] }

def Plc.reset : Plc :=
  { phases := List.replicate 3 PlcPhase.reset, stations := [], lag2 := 0, lag3 := 0, tmCold := 0xFFF,
    stats := List.replicate 3 (List.replicate 10 0), bcast := [], bcSeq := 0, drive := 0, driveEnd := 0, cmdSeq := 0 }

def RadioSet.reset : RadioSet :=
  { enable := false, profile := 1, txDbm := 0, panId := 0, hopSeed := 0, hopStep := 1, baseMode := 0, gMax := 60, restore := 0 }

def RadioSt.reset : RadioSt :=
  { set := RadioSet.reset, reg := none, hopVersion := 0, asn := none, channel := 0, mode := 0, beaconNo := 0, restoreEnd := none, pa := 0 }

def Radio.reset : Radio :=
  { radios := List.replicate 2 RadioSt.reset, children := [], air := [], stats := List.replicate 2 (List.replicate 12 0) }

def WiredSet.reset : WiredSet :=
  { enable := false, term := false, rate := 0, framing := 0, respTmo := 200, retries := 2, silentAfter := 3 }

def Wired.reset : Wired :=
  { set := List.replicate 2 WiredSet.reset, term := [false, false], tx := [none, none], stats := List.replicate 2 (List.replicate 9 0) }

/-- Defaults of the TIME_CFG table; the values without a default are DESIGN CHOICE (log 8). -/
def TimeCfg.reset : TimeCfg :=
  { source := 0, ports := 0, domain := 0, transport := 0, peerDelay := false, oneStep := false, slaveOnly := false,
    ppsFalling := false, priority1 := 0, priority2 := 0, logSync := 0, logAnnounce := 0, logDelay := 0, announceTimeout := 3,
    ppsDelay := 0, lockThresh := 100, validErr := 1000, kp := 16384, ki := 4096, checkPeriod := 3600 }

def Zone.reset : Zone := { zone := 0, utc := 37, leap := 0, leapDay := 0, dst := [] }

def Tpulse.reset : Tpulse :=
  { enable := false, periodic := false, low := false, requireValid := false, width := 0, start := 0, period := 0 }

def Time.reset : Time :=
  { counter := 0, frac := 0, runs := false, y := 0, integ := 0, st := 0, good := 0, bad := 0, lockedOnce := false, rtc := 0,
    rtcNs := 0, errSet := 0xFFFFFFFF * 1000, errAt := 0, wasSet := false, validSeen := false, latched := 0,
    ptpLat := [Config.ptpLatFactory 0 0, Config.ptpLatFactory 0 1, Config.ptpLatFactory 0 2, Config.ptpLatFactory 1 0,
      Config.ptpLatFactory 1 1, Config.ptpLatFactory 1 2],
    cfg := TimeCfg.reset, zone := Zone.reset, slewLeft := 0, master := none, sync := none, t21 := none, t3 := none,
    pathDelay := 0, pathKnown := false, syncAt := none, theta := 0, ptpSeq := 0, ppsAt := none, steps := [], pulses := List.replicate 4 Tpulse.reset,
    nextPulse := List.replicate 4 none, fired := List.replicate 4 false, stats := List.replicate 12 0 }

def ArchSet.reset : ArchSet :=
  { designated := 0, remoteHost := 0, port := 47114, window := 256, bcastHold := 300, timeFollow := false, zoneFollow := false,
    address := 0 }

def Peer.fresh (m window : Nat) : Peer :=
  { member := m, state := 0, session := none, old := none, hs := none, resp := none, retryAt := none, out := [], nextId := 1, seen := [], seenB := [], seenTo := 0,
    fenced := [], window := window, rtt := 0 }

def Arch.reset : Arch :=
  { set := ArchSet.reset, member := 0, role := 0, dir := [], peers := [], nextSession := 1, fwd := [], owed := [], windows := [], consMember := 0,
    zlr := [], changeNo := 0, nextB := 1, bcast := none, bcastOn := false, timeAt := 0, tariffAt := 0, join := 0, joinAt := 0, joinLeft := 0, stats := List.replicate 10 0 }

def Pair.reset : Pair :=
  { cfg := none, st := .waiting, gate := false, leaseTx := false, leaseRx := false, leaseRxAt := 0, trained := false,
    isthmus := Peer.fresh 0 0, wasUp := false, renewNo := 0, renewAt := none, renews := [], leaseAt := none, takeover := none, health := 0,
    partner := 0, eligOwn := false, eligPartner := false, sync := false, acked := 0, partnerSeq := 0, waitAcks := [],
    catchup := false, joined := false, owesRelease := false, partnerKeys := [], bcnPlc := [none, none, none], bcnRadio := [none, none],
    dramAt := none, katAt := none, flashAt := none, sramBad := false, stats := List.replicate 8 0 }

def RootSlot.fresh : RootSlot := { secret := 0, valid := false, dead := false }

/-- A Dead slot: every bit is 1. -/
def RootSlot.gone : RootSlot := { secret := BitVec.allOnes 256, valid := true, dead := true }

def TamperCfg.reset : TamperCfg :=
  { response := [0, 0, 0, 0, 1, 1, 1, 1, 1, 1], level := [0, 0, 0, 0], filter := 10 }

def Keys.reset : Keys :=
  { unitId := Config.unitId, imageKey := Config.imageKey, slots := List.replicate 4 RootSlot.fresh, hwm := 0, st := 0, unlocked := false, counter := TwoBank.empty 2, c := 0, k := 0,
    cache := [], live := none, refs := 0, levels := 0, latch := 0, killed := 0, active := 0, pendSources := 0, pendState := 0,
    pendTime := 0, killTime := 0, killing := false, oweTamper := false, oweKill := false, challenge := none, debug := false,
    fails := 0, msgs := [], stats := List.replicate 9 0, jtagIr := 0xFF }

def Flash.reset : Flash :=
  { mount := 0, readOnly := false, formatted := false, blocks := [], fresh := [16, 16, 16, 16], free := [[], [], [], []],
    queues := [[], [], []], seq := 1, deadDies := [], grown := 0, parity := [], spareMark := none, running := none, lastN := 0,
    cpAt := none, cpBytes := 0, cpJournal := 0, roots := [], hostMiB := 0, hostWrites := [], host := [], log := [], settled := 0, lostRec := none,
    backlogArmed := true, poolFull := false, uncorrectable := 0, programFail := 0, eraseFail := 0, bits := List.replicate 16 0,
    temps := List.replicate 16 0, stats := List.replicate 10 0 }

def ImgType.reset : ImgType :=
  { slotA := none, slotB := none, confirmed := 0, running := 0, state := 0, receiving := false, deadline := none, since := 0 }

def Images.reset : Images :=
  { types := List.replicate 7 ImgType.reset, staging := [], stagingRx := [], floors := List.replicate 7 0, act := none,
    campaigns := [], nextCampaign := 1, crit := List.replicate 11 0, bound := [], heard := [], stageRx := [], stageTx := [],
    nextStage := 1 }

def RecCh.empty : RecCh := { samples := 0, bins := List.replicate 16 0, min := none, max := none, fresh := true, binStopped := false }

def Rec.reset : Rec :=
  { live := List.replicate 30 RecCh.empty, shadow := List.replicate 30 RecCh.empty, frozen := false, thawAt := none,
    flushDue := false, slots := [], generation := 0, lastHour := 0, autoInc := false, liveSel := false, index := 0, loading := false,
    window := [], countStuck := false, countLost := false, fixed := 0, detail := List.replicate 32 (0, 0), copy := 0,
    copyDetail := List.replicate 32 (0, 0), cntSat := 0, eccLog := [], eccNext := 0, bgLate := List.replicate 11 0,
    bgDone := List.replicate 11 0, bgSince := List.replicate 11 0, sysPeriod := 8, islPeriod := 50,
    slew := 0xAAAAAAAA, slewNew := 0xAAAAAAAA, slewAt := 0, gpioOe := 0, gpioOut := 0, gpioIn := 0, locked := false, optStatus := 0,
    optSeq := [0, 0, 0], eth := List.replicate 2 (false, 0, false), refOk := true, itemSel := 0, itemCopy := [] }

def BillCal.reset : BillCal := { kind := 0, day := 0, hour := 0, minute := 0 }

/-- The defaults held in the one-time bits (R95): standalone, no link enabled, every setting at the default its chapter states. -/
def Opt.reset : Opt :=
  { sched := SchedSet.reset, intake := IntakeSet.reset, tariffMap := [], follow := false, cals := List.replicate 4 BillCal.reset,
    counts := [0, 0, 0, 0], calFrom := [0, 0, 0, 0], stepLimit := 2000, custody := [], ovr := none, friendly := [], holidays := [], plc := PlcSet.reset,
    radio := List.replicate 2 RadioSet.reset, hopVersion := [0, 0], profile3 := none, wired := List.replicate 2 WiredSet.reset,
    polls := [], time := TimeCfg.reset, zone := Zone.reset, nextZone := none, zoneBuf := [], pulses := List.replicate 4 Tpulse.reset, arch := ArchSet.reset,
    member := 0, role := .standalone, autoReseed := true, refreshBits := 24, readLimit := 200000, hostMiB := 0, authority := none,
    debugAllowed := false, cert := none, tamper := none, confirmed := List.replicate 7 0 }

/-- The module right after its first reset of reach HOLM_COLD (R78 to R80): start-up in P0, supply not yet seen above v_start, flash
never formatted, no root secret programmed. -/
def State.reset : State :=
  { pending := [], free := 1, out := [], now := 0, fab := Fab.reset,
    isl := { Isl.reset with phase := .running } :: List.replicate 13 Isl.reset, pw := Power.reset,
    rs := Reset.reset, host := HostIf.reset, tbl := TableSt.reset, sch := Sched.reset, ik := Intake.reset, cv := Conv.reset,
    db := Db.reset, jr := Journal.reset, lg := Ledger.reset, plc := Plc.reset, rad := Radio.reset, wir := Wired.reset,
    tm := Time.reset, arch := Arch.reset, pair := Pair.reset, pairStore := TwoBank.empty 3, keys := Keys.reset, fl := Flash.reset,
    img := Images.reset, tel := Rec.reset, opt := Opt.reset, optStore := TwoBank.empty 1 }

end Sys2Proof.Machine
end

