-- ==== Sys2Proof/Machine/Apply.lean ====
section
/-! DEFINITION. Journal records and what applying one does (R241, R247, R248, R283, R421): the same function serves the live append, the
replay of P5 and the mirror. FIELD codes from 0x1000 are the model's own: they carry what the record of R248 has no code for (log 18). -/
namespace Sys2Proof.Machine
open Sys2Proof

def w64 (i : Int) : Nat := ofInt 64 i

/-- PREPAY word of R252. -/
def prepayWord (p : Prepay) : Nat :=
  32768 * b2n p.enabled + 8192 * (p.level % 4) + 4096 * b2n p.inEmergency + 512 * (p.valve % 8) + 256 * b2n p.armQueued +
  32 * (p.tries % 8) + 16 * b2n p.hostHold

def prepayOf (w : Nat) : Prepay :=
  { enabled := bit w 15, level := bits w 14 13, inEmergency := bit w 12, valve := bits w 11 9, armQueued := bit w 8,
    tries := bits w 7 5, hostHold := bit w 4 }

def Std.fresh (billNo : Nat) : Std :=
  { billNo := billNo, mdPartial := false, mdEstimated := false, roll := [0, 0], demAcc := 0, md := 0, mdTime := 0, credit := 0,
    prepay := prepayOf 0, resid := [fZero, fZero], tot := [], snap0 := (0, 0), snap1 := (0, 0), accEstimated := false,
    accPartial := false, periodInvalid := false, closedTo := 0 }

def MState.fresh : MState :=
  { lastCounter := 0, downCounter := 0, rekey := false, lastOutcome := 3, authFail := 0, replays := 0, lastTime := 0,
    lastValues := [], noHistory := true }

def ValveState.fresh : ValveState :=
  { cmdSeq := 0, flight := none, sentAt := 0, before := 0, reason := 1, override := false }

def Wrapped.empty : Wrapped :=
  { current := none, pending := none, pendingReset := false, relayQueued := false, gen := 0, counter := 0,
    pendCounter := 0, blob := [] }

def Ind.fresh : Ind :=
  { ind := 0, phase := 255, phaseRun := 0, zeroCount := 0, skewRun := 0, radioRun := 0, replayWin := 0, replayBase := 0, rssiRef := 0,
    cfoRef := 0, radioCount := 0, radioFrozen := false, skipSkew := false }

def Memb.none : Memb :=
  { supplyOf := Option.none, memberOf := Option.none, leaveS := Option.none, leaveM := Option.none, accS := 0, accM := 0, endS := 0,
    endM := 0 }

def Cust.fresh (short billNo : Nat) : Cust :=
  { enabled := true, single := false, invalid := false, billNo := billNo, short := short, fixStart := 0, subStart := 0,
    resid := [fZero, fZero, fZero, fZero], tot := [], roll := [0, 0, 0, 0], fixAcc := 0, fixMd := 0, fixMdTime := 0, fixMdFlags := 0,
    slideMd := 0, slideMdTime := 0, slideMdFlags := 0, subAcc := List.replicate 15 0, subFlags := List.replicate 15 0, subHead := 0,
    subFilled := 0, subOpen := 0, minAcc := [0, 0, 0, 0], minIndex := 0, minFlags := 0, fixFlags := 0, subOpenFlags := 0, steps := [],
    closedTo := 0, periodFlags := 0, snap0 := Option.none, snap1 := Option.none, ring := [] }

/-! The fields of a standard record and of a custody record, by FIELD code (R248). -/

def mdFlagsStd (r : Std) : Nat := b2n r.mdPartial + 4 * b2n r.mdEstimated

def stdFields (keys : List Nat) (r : Std) : List (Nat × Nat) :=
  keys.map (fun k => (k, w64 (Tab.getD r.tot k 0))) ++
  [(0x40, (r.resid.getD 0 0).toNat), (0x41, (r.resid.getD 1 0).toNat), (0x44, r.roll.getD 0 0), (0x45, r.roll.getD 1 0),
   (0x48, w64 r.demAcc), (0x49, w64 r.md), (0x4A, r.mdTime + 2 ^ 32 * mdFlagsStd r), (0x60, w64 r.credit), (0x61, prepayWord r.prepay),
   (0x1000, b2n r.accEstimated + 2 * b2n r.accPartial + 4 * b2n r.periodInvalid), (0x1001, r.closedTo)]

def setStd (r : Std) (fv : Nat × Nat) : Std :=
  let v := fv.2
  match fv.1 with
  | 0x40 => { r with resid := setAt r.resid 0 (BitVec.ofNat 64 v) }
  | 0x41 => { r with resid := setAt r.resid 1 (BitVec.ofNat 64 v) }
  | 0x44 => { r with roll := setAt r.roll 0 v }
  | 0x45 => { r with roll := setAt r.roll 1 v }
  | 0x48 => { r with demAcc := toInt 64 v }
  | 0x49 => { r with md := toInt 64 v }
  | 0x4A => { r with mdTime := v % 2 ^ 32, mdPartial := bit v 32, mdEstimated := bit v 34 }
  | 0x60 => { r with credit := toInt 64 v }
  | 0x61 => { r with prepay := prepayOf v }
  | 0x1000 => { r with accEstimated := bit v 0, accPartial := bit v 1, periodInvalid := bit v 2 }
  | 0x1001 => { r with closedTo := v }
  | f => if f < 0x40 then { r with tot := Tab.setInt r.tot f (toInt 64 v) } else r

def custFlagWord (r : Cust) : Nat :=
  r.fixFlags + 2 ^ 8 * r.subOpenFlags + 2 ^ 16 * r.periodFlags + 2 ^ 24 * b2n r.single + 2 ^ 25 * b2n r.invalid

def custFields (keys : List Nat) (r : Cust) : List (Nat × Nat) :=
  keys.map (fun k => (k, w64 (Tab.getD r.tot k 0))) ++
  (List.range 4).map (fun q => (0x40 + q, (r.resid.getD q 0).toNat)) ++ (List.range 4).map (fun q => (0x44 + q, r.roll.getD q 0)) ++
  [(0x48, w64 r.fixAcc), (0x49, w64 r.fixMd), (0x4A, r.fixMdTime + 2 ^ 32 * r.fixMdFlags), (0x4B, w64 r.slideMd),
   (0x4C, r.slideMdTime + 2 ^ 32 * r.slideMdFlags)] ++
  (List.range 15).map (fun k => (0x4D, k * 2 ^ 60 + ofInt 60 (r.subAcc.getD k 0))) ++ [(0x4E, r.subHead + 256 * r.subFilled)] ++
  (List.range 4).map (fun q => (0x50 + q, w64 (r.minAcc.getD q 0))) ++ [(0x54, r.minIndex + 2 ^ 32 * r.minFlags)] ++
  [(0x1010, r.fixStart), (0x1011, r.subStart), (0x1012, w64 r.subOpen), (0x1013, custFlagWord r), (0x1014, r.closedTo), (0x1015, r.steps.length)] ++
  (List.range 15).map (fun k => (0x1020 + k, r.subFlags.getD k 0))

def setCust (r : Cust) (fv : Nat × Nat) : Cust :=
  let v := fv.2
  match fv.1 with
  | 0x48 => { r with fixAcc := toInt 64 v }
  | 0x49 => { r with fixMd := toInt 64 v }
  | 0x4A => { r with fixMdTime := v % 2 ^ 32, fixMdFlags := v / 2 ^ 32 % 256 }
  | 0x4B => { r with slideMd := toInt 64 v }
  | 0x4C => { r with slideMdTime := v % 2 ^ 32, slideMdFlags := v / 2 ^ 32 % 256 }
  | 0x4D => { r with subAcc := setAt r.subAcc (v / 2 ^ 60) (toInt 60 v) }
  | 0x4E => { r with subHead := v % 256, subFilled := v / 256 % 256 }
  | 0x54 => { r with minIndex := v % 2 ^ 32, minFlags := v / 2 ^ 32 % 256 }
  | 0x1010 => { r with fixStart := v }
  | 0x1011 => { r with subStart := v }
  | 0x1012 => { r with subOpen := toInt 64 v }
  | 0x1013 => { r with fixFlags := v % 256, subOpenFlags := v / 2 ^ 8 % 256, periodFlags := v / 2 ^ 16 % 256, single := bit v 24,
                       invalid := bit v 25 }
  | 0x1014 => { r with closedTo := v }
  | 0x1015 => { r with steps := r.steps.drop (r.steps.length - v) }
  | f =>
    if f < 0x40 then { r with tot := Tab.setInt r.tot f (toInt 64 v) }
    else if f < 0x44 then { r with resid := setAt r.resid (f - 0x40) (BitVec.ofNat 64 v) }
    else if f < 0x48 then { r with roll := setAt r.roll (f - 0x44) v }
    else if 0x50 ≤ f ∧ f < 0x54 then { r with minAcc := setAt r.minAcc (f - 0x50) (toInt 64 v) }
    else if 0x1020 ≤ f ∧ f < 0x102F then { r with subFlags := setAt r.subFlags (f - 0x1020) v }
    else r

/-- Items whose value the posting changed (R248). -/
def changed (old new : List (Nat × Nat)) : List (Nat × Nat) :=
  ((old.zip new).filter (fun p => p.1 != p.2)).map (·.2)

def totKeys (a b : Tab Int) : List Nat := (a.map (·.1) ++ b.map (·.1)).eraseDups

def diffStd (a b : Std) : List (Nat × Nat) := let k := totKeys a.tot b.tot; changed (stdFields k a) (stdFields k b)
def diffCust (a b : Cust) : List (Nat × Nat) := let k := totKeys a.tot b.tot; changed (custFields k a) (custFields k b)

/-- Items of the balance engine (R283): 0x0071 and 0x0072. -/
def indItems (a b : Ind) : List (Nat × Nat) :=
  changed [(0x71, a.ind + 65536 * a.zeroCount), (0x72, a.replayWin + 2 ^ 32 * a.replayBase)]
    [(0x71, b.ind + 65536 * b.zeroCount), (0x72, b.replayWin + 2 ^ 32 * b.replayBase)]

def setInd (r : Ind) (fv : Nat × Nat) : Ind :=
  match fv.1 with
  | 0x71 => { r with ind := fv.2 % 65536, zeroCount := fv.2 / 65536 % 65536 }
  | 0x72 => { r with replayWin := fv.2 % 2 ^ 32, replayBase := fv.2 / 2 ^ 32 % 65536 }
  | _ => r

/-! What a record does to the checkpointed structures. -/

/-- POSTING (R182, R248). -/
def applyPosting (r : JRec) (p : PostBody) (db : Db) : Db :=
  let m0 := Tab.getD db.mstate r.short MState.fresh
  let m1 := { m0 with lastCounter := p.counter, lastOutcome := p.outcome, rekey := m0.rekey || p.rekey }
  let m2 := if p.values.isEmpty then m1 else { m1 with lastTime := p.readTime, lastValues := p.values, noHistory := false }
  let db := { db with mstate := Tab.set db.mstate r.short m2 }
  let db := if p.items.any (fun i => i.1 == 0x71 || i.1 == 0x72) then
      { db with inds := Tab.set db.inds r.short (p.items.foldl setInd (Tab.getD db.inds r.short Ind.fresh)) } else db
  if r.channel < 96 then { db with cust := Tab.mod db.cust r.channel (fun c => p.items.foldl setCust c) }
  else { db with std := Tab.mod db.std r.short (fun c => p.items.foldl setStd c) }

/-- The entry after a METER_TABLE record: the removal, the home and the pin are the record's; what learning has set is lost with a restart and
belongs to the module that heard the meter (R137, R148), so it stays as the table has it. -/
def mergeEntry (now : Option MEntry) (e : MEntry) : MEntry :=
  match now with
  | some x =>
    if x.id = e.id then
      { x with
        home := e.home, homeSelf := e.homeSelf, retired := e.retired, pinned := e.pinned
        link := if e.pinned then e.link else x.link, route := if e.pinned then e.route else x.route }
    else e
  | none => e

/-- A METER_TABLE record (R137, R142, R143): enrolment, removal or pin of an entry, or its purge. -/
def applyTable (r : JRec) (e : MEntry) (purge : Bool) (db : Db) : Db :=
  if purge then { db with entries := Tab.del db.entries r.short, purging := Tab.set db.purging r.short r.seq }
  else
    { db with
      entries := Tab.set db.entries r.short (mergeEntry (Tab.get db.entries r.short) e)
      mstate := if (Tab.get db.mstate r.short).isNone then Tab.set db.mstate r.short MState.fresh else db.mstate
      enrolled := if (Tab.get db.entries r.short).isNone then Tab.set db.enrolled r.short r.time else db.enrolled
      std := if (Tab.get db.std r.short).isNone && e.homeSelf then Tab.set db.std r.short (Std.fresh (r.flags % 65536)) else db.std }

/-- What is released once a purge is durable (R143). -/
def purgeDone (short : Nat) (db : Db) : Db :=
  { db with
    purging := Tab.del db.purging short, mstate := Tab.del db.mstate short, std := Tab.del db.std short, keys := Tab.del db.keys short
    enrolled := Tab.del db.enrolled short, valves := Tab.del db.valves short, memb := Tab.del db.memb short, inds := Tab.del db.inds short, snaps := Tab.del db.snaps short
    fps := db.fps.filter (fun p => p.1 / 4 != short), cust := db.cust.filter (fun p => p.2.short != short) }

/-- METER_CLOSE (R235): the snapshot joins the two latest, and the meter's record takes its state after the close (log 18). -/
def applyClose (r : JRec) (s : Snapshot) (std : Option Std) (cust : Option Cust) (db : Db) : Db :=
  { db with
    snaps := Tab.set db.snaps r.short (((r.seq, s) :: Tab.getD db.snaps r.short []).take 2)
    cust := match cust with
      | some c => Tab.set db.cust r.channel c
      | none => db.cust
    std := match std with
      | some c => Tab.set db.std r.short { c with snap1 := c.snap0, snap0 := (s.billNo, r.seq % 2 ^ 48) }
      | none => db.std }

/-- The wrapped key record after CURRENT is installed or promoted (R419, R420). -/
def installWrapped (k : Wrapped) (w : Bytes) (counter : Nat) : Wrapped :=
  if k.current == some w && k.counter == counter && k.pending.isNone then k
  else
    { k with current := some w, pending := none, pendingReset := false, relayQueued := false, gen := min 255 (k.gen + 1),
             counter := counter, blob := [] }

/-- The copy in force of a profile or table after a new one is loaded (R146, R215). -/
def newProfile (old : Option Profile) (body : Bytes) : Profile :=
  { body := body, version := (old.map (·.version)).getD 0 + 1, old := old.map (fun o => (o.version, o.body)) }
def newVirial (old : Option Virial) (pts : List (F64 × F64)) : Virial :=
  { points := pts, version := (old.map (·.version)).getD 0 + 1, old := old.map (fun o => (o.version, o.points)) }

/-- Mark in the flags of a KEY_STATE record that came from the partner (R422; log 18). -/
def mirroredKey : Nat := 8

/-- KEY_STATE (R421). A record of the partner's installs nothing; its promotion promotes the standby's own pending key (R400, R422). -/
def applyKey (r : JRec) (action flags counter : Nat) (w : Bytes) (db : Db) : Db :=
  let k := Tab.getD db.keys r.short Wrapped.empty
  let own := !bit flags mirroredKey
  let zeroLd := fun (db : Db) => if bit flags 0 then
      { db with mstate := Tab.mod db.mstate r.short (fun m =>
          { m with lastCounter := 0, downCounter := 0, rekey := false, lastOutcome := 3 }) } else db
  match action with
  | 1 => zeroLd (if own then { db with keys := Tab.set db.keys r.short (installWrapped k w counter) } else db)
  | 2 =>
    let after := { k with pending := some w, pendingReset := bit flags 0, relayQueued := true, pendCounter := counter }
    if own then { db with keys := Tab.set db.keys r.short after } else db
  | 3 =>
    zeroLd <|
      if own then { db with keys := Tab.set db.keys r.short (installWrapped k w counter) }
      else match k.pending with
        | some p => { db with keys := Tab.set db.keys r.short (installWrapped k p k.pendCounter) }
        | none => db
  | 4 => if own then { db with keys := Tab.set db.keys r.short { Wrapped.empty with gen := k.gen } } else db
  | 5 => if own then { db with keys := [] } else db
  | _ => db

/-- BALANCE closure (R283): the node's fields, and its interval taken from the pending slots. -/
def applyBalance (node : Nat) (after : Node) (rep : Report) (db : Db) : Db :=
  let start := u32 rep.bytes 16
  { db with
    nodes := Tab.mod db.nodes node (fun n => { after with slots := n.slots.filter (fun s => s.start != start) })
    reports := if rep.kind = 0 then db.reports else (rep :: db.reports).take 16777216 }

/-- CONFIG (KIND 0x0B; log 13). -/
def applyConfig (c : CfgChange) (db : Db) : Db :=
  match c with
  | .profile id body =>
    { db with profiles := Tab.set db.profiles id (newProfile (Tab.get db.profiles id) body) }
  | .pfxAdd p => { db with pfxs := p :: db.pfxs }
  | .pfxDel t l k => { db with pfxs := db.pfxs.filter (fun p => !(p.table == t && p.len == l && p.key == k)) }
  | .virial t pts =>
    { db with virials := Tab.set db.virials t (newVirial (Tab.get db.virials t) pts) }
  | .node id n => { db with nodes := Tab.put db.nodes id n }
  | .memb short m id n => { db with memb := Tab.put db.memb short m, nodes := Tab.set db.nodes id n }
  | .indClear short mask relearn =>
    { db with
      inds := Tab.mod db.inds short (fun i =>
        let i := { i with ind := andNot 16 i.ind mask }
        if relearn then { i with radioCount := 0, radioRun := 0, radioFrozen := false } else i)
      fps := if relearn then db.fps.filter (fun p => p.1 / 4 != short) else db.fps }
  | .quarRemove seq => { db with quars := db.quars.filter (fun q => q.seq != seq) }
  | .mirror _ => db
  | .ledger short std ch c =>
    { db with
      std := match std with | some v => Tab.set db.std short v | none => db.std
      cust := match c with | some v => Tab.set db.cust ch v | none => db.cust }
  | .custody ch c short std =>
    { db with cust := Tab.put db.cust ch c, std := Tab.put db.std short std }

/-- What an audit entry says of the channel's state: the clock invalid, a single path (R239, R245). The open billing period keeps that it
was so. -/
def auditMark (a : Audit) (c : Cust) : Cust :=
  if a.kind = 2 then { c with invalid := a.data0 == 1, periodFlags := if a.data0 = 1 then setBit c.periodFlags 0 else c.periodFlags }
  else if a.kind = 7 then { c with single := a.data0 == 1, periodFlags := if a.data0 = 1 then setBit c.periodFlags 1 else c.periodFlags }
  else c

/-- Minutes kept of a channel: 400 days (R246, R433). -/
def minuteRing : Nat := 576000

/-- One record's after-images. -/
def applyBody (db : Db) (r : JRec) : Db :=
  match r.body with
  | .posting p => applyPosting r p db
  | .table e purge => applyTable r e purge db
  | .close s std cust => applyClose r s std cust db
  | .calCross cal count instant bill => { db with crossings := setAt db.crossings cal (count, (instant : Int), bill) }
  | .tariff period old source instant unknown =>
    { db with
      timeline := (((instant : Int), period, old, unknown) :: db.timeline).take 256
      inputPeriod := if source = 0 then period else db.inputPeriod
      outages := if unknown then db.outages.zipIdx.map (fun p => if p.2 = 0 then (p.1.1, p.1.2.1, true) else p.1) else db.outages }
  | .clockStep old new _ _ => { db with cust := db.cust.map (fun p => (p.1, { p.2 with steps := p.2.steps ++ [(old, new)] })) }
  | .outage start rest => { db with outages := ((start : Int), (rest : Int), false) :: db.outages }
  | .audit a =>
    { db with
      audits := Tab.set db.audits r.channel (a :: Tab.getD db.audits r.channel [])
      cust := Tab.mod db.cust r.channel (fun c => auditMark a { c with ring := (a :: c.ring).take 28 }) }
  | .balance node after rep => applyBalance node after rep db
  | .report rs => { db with reports := (rs.reverse ++ db.reports).take 16777216 }
  | .minute m => { db with minutes := Tab.set db.minutes r.channel ((m :: Tab.getD db.minutes r.channel []).take minuteRing) }
  | .keyState action flags counter w => applyKey r action flags counter w db
  | .prepay l credit word v =>
    { db with
      std := Tab.mod db.std r.short (fun c => { c with credit := credit, prepay := word })
      valves := Tab.set db.valves r.short v
      plog := if l.kind = 0 then db.plog else (l :: db.plog).take 4194304 }
  | .config c => applyConfig c db
  | .store _ => db

/-- Applies one record's after-images (R241). -/
def applyRec (db : Db) (r : JRec) : Db := { applyBody db r with applied := max db.applied r.seq }

/-- What a POSTING record carries of the meter state beside its after-images: DOWN_COUNTER, AUTH_FAIL and REPLAYS, which the running module
counts itself (R180, R183). -/
def carryState (short : Nat) (p : PostBody) (db : Db) : Db :=
  { db with mstate := Tab.mod db.mstate short (fun m =>
      { m with downCounter := max m.downCounter p.down, authFail := p.authFail, replays := p.replays, rekey := m.rekey || p.down == 2 ^ 32 - 1 }) }

/-- What replay makes of one record: its after-images, and what only durability releases (R193, R143). -/
def replayNew (db : Db) (r : JRec) : Db :=
  let db := applyRec db r
  match r.body with
  | .posting p =>
    let db := carryState r.short p db
    match p.quar with
    | some q => { db with quars := db.quars ++ [q] }
    | none => db
  | .store q => { db with quars := db.quars ++ [q] }
  | .table _ true => purgeDone r.short db
  | _ => db

/-- A record of the module's own keys, which a standby writes beside the holder's sequence (R422, log 37). -/
def isOwnKey (r : JRec) : Bool :=
  match r.body with
  | .keyState _ flags _ _ => !bit flags mirroredKey
  | _ => false

/-- Replay of one record: twice leaves the same state as once (R241). -/
def replayRec (db : Db) (r : JRec) : Db := if r.seq ≤ db.applied && !isOwnKey r then db else replayNew db r

end Sys2Proof.Machine
end

