-- ==== Sys2Proof/Machine/Layout.lean ====
section
/-! DEFINITION. The bytes of records: the meter table entry (R130), the node record (R265), snapshots (R224), minutes and audit entries (R245,
R246), the prepayment log (R261), and the journal record that carries them (R247, R248, R283, R357, R421). -/
namespace Sys2Proof.Machine
open Sys2Proof

/-- READ_TIME format of R122: TAI seconds in bits [63:16], 1/65,536 s below. -/
def stampOf (ns : Int) : Nat := ofInt 64 (ns * 65536 / 1000000000)

/-- A meter table entry, 32 bytes (R130). -/
def entryBytes (e : MEntry) : Bytes :=
  toLE 8 e.id ++ toLE 4 (e.short * 4096 + e.home) ++
  toLE 2 (32768 + 16384 * b2n e.stale + 8192 * b2n e.pinned + 4096 * b2n e.homeSelf + 2048 * b2n e.retired + 16 * e.link + e.altLink) ++
  toLE 2 e.route ++ toLE 4 e.lastHeard ++ toLE 1 (ofInt 8 e.quality) ++ toLE 1 (ofInt 8 e.altQuality) ++ toLE 2 e.switches ++
  toLE 4 e.linkHeard ++ toLE 4 0

/-- Node record (R265). -/
def nodeBytes (id : Nat) (n : Node) : Bytes :=
  toLE 2 id ++ toLE 2 (n.parent.getD 65535) ++ toLE 1 n.depth ++ toLE 1 n.balQ ++ toLE 1 n.balLen ++ toLE 1 (ofInt 8 n.eNode) ++
  toLE 1 (b2n n.enabled + 2 * b2n n.learning + 4 * b2n n.suspectLoss + 8 * b2n n.suspectGain + 16 * b2n n.judgeEst + 32 * b2n n.reportAll) ++
  [0] ++ toLE 2 n.k ++ toLE 2 n.h ++ [0, 0] ++ toLE 4 n.wait ++ toLE 4 n.suppliers ++ toLE 4 n.members ++ toLE 2 n.learnCount ++ [0, 0] ++
  toLE 4 n.complete ++ toLE 4 n.incomplete ++ toLE 8 n.offsetRel.toNat ++ toLE 8 n.learnI.toNat ++ toLE 8 n.learnS.toNat ++
  toLE 8 n.sPos.toNat ++ toLE 8 n.sNeg.toNat ++ toLE 8 n.lastR.toNat ++ toLE 4 n.nextClose ++
  toLE 4 ((n.changes.head?.map (·.1)).getD 0xFFFFFFFF) ++ List.replicate 32 0

/-- The 576 bytes of a snapshot (R224). -/
def snapBytes (x : Snapshot) : Bytes :=
  toLE 2 x.billNo ++ toLE 2 x.flags ++ toLE 4 0 ++ toLE 8 x.closeTime ++
  (List.range 64).flatMap (fun r => toLE 8 (w64 (Tab.getD x.tot r 0))) ++ (List.range 4).flatMap (fun q => toLE 1 (x.roll.getD q 0)) ++
  toLE 4 0 ++ toLE 8 (w64 x.fixMd) ++ toLE 4 x.fixMdTime ++ toLE 4 x.fixMdFlags ++ toLE 8 (w64 x.slideMd) ++ toLE 4 x.slideMdTime ++
  toLE 4 x.slideMdFlags ++ toLE 8 0

/-- A minute entry (R246). -/
def minuteBytes (m : Minute) : Bytes :=
  let b := padTo 60 (toLE 4 m.minute ++ toLE 1 (m.tariff % 16) ++ toLE 1 m.flags ++ [0, 0] ++ m.q.flatMap (fun v => toLE 8 (w64 v)))
  b ++ toLE 4 (crc32 b).toNat

/-- An audit entry (R245). -/
def auditBytes (a : Audit) : Bytes :=
  toLE 8 a.time ++ toLE 1 a.kind ++ toLE 1 a.flags ++ toLE 6 a.seq ++ toLE 8 a.data0 ++ toLE 8 a.data1

/-- A prepayment log entry (R261). -/
def prepayLogBytes (l : PrepayLog) : Bytes :=
  toLE 8 l.time ++ toLE 6 l.seq ++ toLE 1 l.kind ++ toLE 1 l.result ++ toLE 4 l.short ++ toLE 4 l.ref ++ toLE 8 (w64 l.credit)

/-! ### Journal records (R247, R248) -/

/-- An item of a POSTING body: FIELD and VALUE (R248). -/
def postItemBytes (i : Nat × Nat) : Bytes := toLE 2 i.1 ++ List.replicate 6 0 ++ toLE 8 i.2

/-- The items that have a FIELD code in R248; what the model carries beside them is no part of the record's bytes (log 18). -/
def postItems (p : PostBody) : List (Nat × Nat) := p.items.filter (fun i => i.1 < 0x80)

/-- POSTING body, from byte 32 (R248). -/
def postingBytes (p : PostBody) : Bytes :=
  toLE 4 p.counter ++ toLE 1 (64 * p.outcome + 16 * p.type) ++ toLE 1 (p.tariff % 16) ++ toLE 2 p.valFlags ++ toLE 2 p.convVersion ++
  toLE 1 p.values.length ++ toLE 1 (postItems p).length ++ toLE 6 p.readTime ++ List.replicate 6 0 ++
  p.values.flatMap (fun v => toLE 8 (w64 v)) ++ (postItems p).flatMap postItemBytes

/-- A record's body, from byte 32. METER_CLOSE is a snapshot (R224), CLOCK_STEP is R357's, KEY_STATE R421's, a balance closure R283's. The
bodies of METER_TABLE, CALENDAR_CROSS, TARIFF_CHANGE and OUTAGE hold what their rules name in an order of the model's own, and those of
CONFIG are free bytes: no layout is given (log 13). -/
def recBody (r : JRec) : Bytes :=
  match r.body with
  | .posting p => postingBytes p
  | .table e purge => if purge then List.replicate 32 0 else entryBytes e
  | .close s _ _ => snapBytes s
  | .calCross cal count instant _ => toLE 2 cal ++ toLE 2 count ++ toLE 4 0 ++ toLE 8 (stampOf (instant : Int))
  | .tariff period old source instant unknown =>
    toLE 1 period ++ toLE 1 old ++ toLE 1 source ++ toLE 1 (b2n unknown) ++ toLE 4 0 ++ toLE 8 (stampOf (instant : Int))
  | .clockStep old new cause first =>
    toLE 8 (stampOf old) ++ toLE 8 (stampOf new) ++ toLE 8 (w64 (new - old)) ++ toLE 1 cause ++ toLE 1 (b2n first) ++ List.replicate 6 0
  | .outage start rest => toLE 8 (stampOf (start : Int)) ++ toLE 8 (stampOf (rest : Int))
  | .audit a => auditBytes a
  | .balance node after rep => rep.bytes ++ ((nodeBytes node after).drop 28).take 68
  | .report rs => rs.flatMap (·.bytes)
  | .minute m => minuteBytes m
  | .keyState action flags counter w =>
    toLE 1 action ++ toLE 1 (flags % 2) ++ [0, 0] ++ toLE 4 counter ++ List.replicate 8 0 ++ padTo 32 (if 1 ≤ action && action ≤ 3 then w else [])
  | .prepay l _ _ _ => prepayLogBytes l
  | .config _ | .store _ => (List.range 16).map (fun k => Config.freeByte (16 * r.seq + k))

/-- LEN of a record: header and body, padded to a multiple of 16 (R247). -/
def recLen (r : JRec) : Nat := min 1024 (max 48 ((32 + (recBody r).length + 15) / 16 * 16))

/-- Header bytes 0 to 27 (R247). -/
def recHeader (r : JRec) : Bytes :=
  toLE 2 (recLen r) ++ toLE 1 r.kind ++ toLE 1 1 ++ toLE 8 r.seq ++
  toLE 4 (if r.global then 2 ^ 31 else 2 ^ 20 * r.channel + r.short) ++ toLE 8 r.time ++ toLE 4 r.flags

/-- A journal record as it stands in flash and in JOURNAL: header with VERSION 1, CRC over all the rest, and the body padded with zero bytes
(R247). -/
def recBytes (r : JRec) : Bytes :=
  let h := recHeader r
  let b := padTo (recLen r - 32) (recBody r)
  h ++ toLE 4 (crc32 (h ++ b)).toNat ++ b

end Sys2Proof.Machine
end

