-- ==== Sys2Proof/Machine/Ops.lean ====
section
/-! DEFINITION. The named operations that every meaning is built from: one updater per part of the state, what leaves the module,
free values, instants, islands, roles, counters, and the append of a journal record. -/
namespace Sys2Proof.Machine
open Sys2Proof

/-! One updater per part of the state. -/

def onFab (f : Fab → Fab) (s : State) : State := { s with fab := f s.fab }
def onPw (f : Power → Power) (s : State) : State := { s with pw := f s.pw }
def onRs (f : Reset → Reset) (s : State) : State := { s with rs := f s.rs }
def onHost (f : HostIf → HostIf) (s : State) : State := { s with host := f s.host }
def onTbl (f : TableSt → TableSt) (s : State) : State := { s with tbl := f s.tbl }
def onSch (f : Sched → Sched) (s : State) : State := { s with sch := f s.sch }
def onIk (f : Intake → Intake) (s : State) : State := { s with ik := f s.ik }
def onCv (f : Conv → Conv) (s : State) : State := { s with cv := f s.cv }
def onDb (f : Db → Db) (s : State) : State := { s with db := f s.db }
def onJr (f : Journal → Journal) (s : State) : State := { s with jr := f s.jr }
def onLg (f : Ledger → Ledger) (s : State) : State := { s with lg := f s.lg }
def onPlc (f : Plc → Plc) (s : State) : State := { s with plc := f s.plc }
def onRad (f : Radio → Radio) (s : State) : State := { s with rad := f s.rad }
def onWir (f : Wired → Wired) (s : State) : State := { s with wir := f s.wir }
def onTm (f : Time → Time) (s : State) : State := { s with tm := f s.tm }
def onArch (f : Arch → Arch) (s : State) : State := { s with arch := f s.arch }
def onPair (f : Pair → Pair) (s : State) : State := { s with pair := f s.pair }
def onKeys (f : Keys → Keys) (s : State) : State := { s with keys := f s.keys }
def onFl (f : Flash → Flash) (s : State) : State := { s with fl := f s.fl }
def onImg (f : Images → Images) (s : State) : State := { s with img := f s.img }
def onTel (f : Rec → Rec) (s : State) : State := { s with tel := f s.tel }
def onOpt (f : Opt → Opt) (s : State) : State := { s with opt := f s.opt }

/-- Island n's record. -/
def onIsl (n : Nat) (f : Isl → Isl) (s : State) : State := { s with isl := modAt s.isl n f }

/-- Something leaves the module. -/
def emit (o : Output) (s : State) : State := { s with out := s.out ++ [o] }

/-- Takes the next free value's number. -/
def useFree (s : State) : State := { s with free := s.free + 1 }

/-! Instants (R9, R122): the counter holds TAI nanoseconds since the epoch. -/

def stamp (s : State) : Nat := stampOf s.tm.counter
/-- Network time (R9): units of 1/32,768 s. -/
def netOf (ns : Int) : Nat := ofInt 48 (ns * 32768 / 1000000000)
def netTime (s : State) : Nat := netOf s.tm.counter
def taiSec (s : State) : Int := s.tm.counter / 1000000000
/-- The instant of a READ_TIME value, and of a network time, in ns. -/
def nsOfStamp (v : Nat) : Int := (v : Int) * 1000000000 / 65536
def nsOfNet (v : Nat) : Int := (v : Int) * 1000000000 / 32768
/-- READ_TIME of a network time (R177: multiplied by 2). -/
def stampOfNet (v : Nat) : Nat := v * 2
def msNs : Nat := 1000000
def secNs : Nat := 1000000000

/-- UTC_OFFSET in force: the selected master's where it gives one, else the host's (R348). -/
def utcOffset (s : State) : Int :=
  match s.tm.master with
  | some m => if m.utcValid then m.utcOffset else s.tm.zone.utc
  | none => s.tm.zone.utc

/-- What leads from TAI to standard billing time: UTC plus the fixed zone offset (R230, R348). -/
def standardOffset (s : State) : Int := 60 * s.tm.zone.zone - utcOffset s

/-! Islands and roles. -/

def islOf (s : State) (n : Nat) : Isl := s.isl.getD n Isl.reset
def isUp (s : State) (n : Nat) : Bool := (islOf s n).phase == .running
/-- The host can reach the registers of island n: NET, which serves them, and the island run (R102). -/
def regOpen (s : State) (n : Nat) : Bool := isUp s 10 && isUp s n
def remoteHosted (s : State) : Bool := bit s.rs.mode 0
def positionB (s : State) : Bool := bit s.rs.mode 1
def holdsToken (s : State) : Bool := s.pair.st == .active || s.pair.st == .solo
/-- A pair member that does not hold the token: it refuses commands that change meter or ledger state (R398, R407). -/
def isStandby (s : State) : Bool := s.pair.cfg.isSome && !holdsToken s
/-- The shared-media gate lets this module send (R44, R61, R391). -/
def maySend (s : State) : Bool := s.pair.gate
def keyless (s : State) : Bool := s.keys.st == 2 || s.keys.st == 3
/-- P7 runs (R89). -/
def inService (s : State) : Bool := s.rs.phase == 7 && !s.rs.episode
/-- Code of a role, as the ARCH_STATUS register and DIRECTORY entries give it (R363). -/
def roleNo : Role → Nat
  | .standalone => 0
  | .field => 1
  | .hub => 2

/-! Counters that stop (R473). -/

def ctrMax : Nat := 4294967295
def bumpAt (l : List Nat) (k : Nat) : List Nat := modAt l k (fun v => if v < ctrMax then v + 1 else ctrMax)
/-- Adding one to counter k makes it stand at its largest value. -/
def stuckAt (l : List Nat) (k : Nat) : Bool := ctrMax ≤ l.getD k 0 + 1
/-- Bit g of CNT_SAT. -/
def cntSat (g : Nat) (on : Bool) (s : State) : State :=
  if on then onTel (fun r => { r with cntSat := setBit r.cntSat g }) s else s
/-- A clear of group g's counters clears its bit (R473). -/
def cntClear (g : Nat) (s : State) : State := onTel (fun r => { r with cntSat := clrBit r.cntSat g }) s

def statIk (k : Nat) (s : State) : State := cntSat 0 (stuckAt s.ik.stats k) (onIk (fun i => { i with stats := bumpAt i.stats k }) s)
def statCv (k : Nat) (s : State) : State := cntSat 1 (stuckAt s.cv.stats k) (onCv (fun i => { i with stats := bumpAt i.stats k }) s)
def statLg (k : Nat) (s : State) : State := cntSat 2 (stuckAt s.lg.stats k) (onLg (fun i => { i with stats := bumpAt i.stats k }) s)
def statPp (k : Nat) (s : State) : State :=
  cntSat 3 (stuckAt s.lg.prepayStats k) (onLg (fun i => { i with prepayStats := bumpAt i.prepayStats k }) s)
def statBal (k : Nat) (s : State) : State :=
  cntSat 4 (stuckAt s.lg.balStats k) (onLg (fun i => { i with balStats := bumpAt i.balStats k }) s)
def statPlc (ph k : Nat) (s : State) : State :=
  cntSat 5 (stuckAt (s.plc.stats.getD ph []) k) (onPlc (fun i => { i with stats := modAt i.stats ph (bumpAt · k) }) s)
def statRad (r k : Nat) (s : State) : State :=
  cntSat 6 (stuckAt (s.rad.stats.getD r []) k) (onRad (fun i => { i with stats := modAt i.stats r (bumpAt · k) }) s)
def statWir (p k : Nat) (s : State) : State :=
  cntSat 7 (stuckAt (s.wir.stats.getD p []) k) (onWir (fun i => { i with stats := modAt i.stats p (bumpAt · k) }) s)
def statTm (k : Nat) (s : State) : State := cntSat 8 (stuckAt s.tm.stats k) (onTm (fun i => { i with stats := bumpAt i.stats k }) s)
def statArch (k : Nat) (s : State) : State := cntSat 9 (stuckAt s.arch.stats k) (onArch (fun i => { i with stats := bumpAt i.stats k }) s)
def statPair (k : Nat) (s : State) : State := cntSat 10 (stuckAt s.pair.stats k) (onPair (fun i => { i with stats := bumpAt i.stats k }) s)
def statKey (k : Nat) (s : State) : State := cntSat 11 (stuckAt s.keys.stats k) (onKeys (fun i => { i with stats := bumpAt i.stats k }) s)
def statFl (k : Nat) (s : State) : State := cntSat 12 (stuckAt s.fl.stats k) (onFl (fun i => { i with stats := bumpAt i.stats k }) s)
/-- Scheduler counters set their bit in SCHED_STATUS.SAT (R167) and group 13. -/
def statSch (k : Nat) (s : State) : State :=
  cntSat 13 (stuckAt s.sch.stats k) <|
    onSch (fun i => { i with sat := if stuckAt i.stats k then setBit i.sat k else i.sat, stats := bumpAt i.stats k }) s
def statIkN (n k : Nat) (s : State) : State := (List.range n).foldl (fun s _ => statIk k s) s

/-! Profiles and the trie (R144 to R147). -/

/-- A prefix matches a key: table 0 keys have 64 bits, table 1 keys 72. -/
def pfxWidth (table : Nat) : Nat := if table = 0 then 64 else 72
def pfxMatches (p : Pfx) (table key : Nat) : Bool :=
  p.table == table && key / 2 ^ (pfxWidth table - p.len) == p.key / 2 ^ (pfxWidth table - p.len)

/-- The longest matching prefix's value (R145). -/
def trieLookup (l : List Pfx) (table key : Nat) : Option Nat :=
  (l.foldl (fun (b : Option Pfx) p =>
    if pfxMatches p table key then
      match b with
      | some q => if q.len < p.len then some p else b
      | none => some p
    else b) none).map (·.value)

/-- The profile in force for an identity: its number and copy; none without profile (R145, R147). -/
def profileFor (s : State) (id : Nat) : Option (Nat × Profile) :=
  match trieLookup s.db.pfxs 0 id with
  | none => none
  | some k => (Tab.get s.db.profiles k).map (fun p => (k, p))

/-- The profile body for an identity; all zero where there is none. -/
def bodyFor (s : State) (id : Nat) : Bytes := ((profileFor s id).map (fun p => p.2.body)).getD (List.replicate 1024 0)

/-- The copy of a profile that a reading was bound to at step 6 (R146). -/
def boundBody (s : State) (profile version : Nat) : Bytes :=
  match Tab.get s.db.profiles profile with
  | none => List.replicate 1024 0
  | some p =>
    if p.version = version then p.body
    else match p.old with
      | some (v, b) => if v = version then b else p.body
      | none => p.body

/-- The entry of a short index, and of an identity (R131, R134): by the table of short indexes. -/
def entryOf (s : State) (short : Nat) : Option MEntry := Tab.get s.db.entries short
def entryById (s : State) (id : Nat) : Option (Nat × MEntry) := s.db.entries.find? (fun p => p.2.id == id)
def mstateOf (s : State) (short : Nat) : MState := Tab.getD s.db.mstate short MState.fresh
def stdOf (s : State) (short : Nat) : Std := Tab.getD s.db.std short (Std.fresh 0)
/-- The custody channel that a meter is bound to (R224). -/
def channelOf (s : State) (short : Nat) : Option (Nat × Cust) := s.db.cust.find? (fun p => p.2.enabled && p.2.short == short)
def channelNo (s : State) (short : Nat) : Nat := ((channelOf s short).map (·.1)).getD 127

/-! The journal. -/

/-- LEDGER can append: it and MEM run, no supply warning and no entry into HOLD has stopped it, and the store can be
written (R14, R59, R62, R450, R507). -/
def ledgerUp (s : State) : Bool := isUp s 8 && isUp s 3 && !s.pw.warned && !s.pw.hotOff && s.pw.st != .hold && !s.fl.readOnly
/-- LEDGER may append a record of its own: a standby appends the holder's records alone (R398, R402). -/
def mayAppend (s : State) : Bool := ledgerUp s && !isStandby s

/-- The isthmus session is Up (R388). -/
def isthmusUp (s : State) : Bool := s.pair.isthmus.session.isSome

/-- A message's numbers are used up on the isthmus (R371, R373). -/
def isthmusNumbers (s : State) : State :=
  onPair (fun p =>
    { p with isthmus := { p.isthmus with
        nextId := p.isthmus.nextId + 1
        session := p.isthmus.session.map (fun e => { e with txSeq := e.txSeq + 1, txAt := s.now }) } }) s

/-- The holder sends each record in JOURNAL as it is appended, in its flash layout (R388, R402). -/
def mirrorOut (r : JRec) (s : State) : State :=
  if holdsToken s && isthmusUp s then emit (.journal [r] (recBytes r)) (isthmusNumbers s) else s

/-- Appends a record (R247): the next SEQ, the time of the append; its after-images take effect at once. -/
def append (kind short channel flags : Nat) (global : Bool) (body : JBody) (s : State) : State :=
  let r : JRec :=
    { kind := kind, seq := s.jr.next, global := global, channel := channel, short := short, time := stamp s, flags := flags, body := body }
  mirrorOut r
    { s with
      db := applyRec s.db r
      jr := { s.jr with next := s.jr.next + 1, open_ := s.jr.open_ ++ [r] }
      fl := { s.fl with cpJournal := s.fl.cpJournal + recLen r } }

/-- A record that is not about one meter (R247: SHORT_INDEX and CHANNEL zero). -/
def appendGlobal (kind flags : Nat) (body : JBody) (s : State) : State := append kind 0 0 flags true body s
/-- A record about a meter, with its custody channel or 127. -/
def appendMeter (kind short flags : Nat) (body : JBody) (s : State) : State := append kind short (channelNo s short) flags false body s
/-- A record of a standby's own (R422): it takes no SEQ of the holder's sequence (log 37). -/
def appendOwn (kind short : Nat) (global : Bool) (body : JBody) (s : State) : State :=
  let r : JRec :=
    { kind := kind, seq := s.jr.next - 1, global := global, channel := channelNo s short, short := short, time := stamp s, flags := 0, body := body }
  { s with db := applyRec s.db r, jr := { s.jr with open_ := s.jr.open_ ++ [r] }, fl := { s.fl with cpJournal := s.fl.cpJournal + recLen r } }

/-- A KEY_STATE record: a standby has keys of its own (R421, R422). -/
def appendKey (short action flags counter : Nat) (w : Bytes) (s : State) : State :=
  let global := action == 5
  if isStandby s then appendOwn 9 short global (.keyState action flags counter w) s
  else if global then appendGlobal 9 0 (.keyState action flags counter w) s
  else appendMeter 9 short 0 (.keyState action flags counter w) s
/-- SEQ of the last record appended. -/
def lastSeq (s : State) : Nat := s.jr.next - 1

/-- What is to happen when the last record appended is durable (R31). -/
def whenDurable (a : DurAct) (s : State) : State :=
  onJr (fun j => { j with waits := j.waits ++ [(j.next - 1, a)] }) s

/-- A configuration change: it is appended now and acts when it is durable, which is when its command completes (R146, R215). -/
def appendLater (c : CfgChange) (s : State) : State :=
  let r : JRec := { kind := 11, seq := s.jr.next, global := true, channel := 0, short := 0, time := stamp s, flags := 0, body := .config c }
  whenDurable (.apply r) <|
    mirrorOut r
      { s with
        jr := { s.jr with next := s.jr.next + 1, open_ := s.jr.open_ ++ [r] }
        fl := { s.fl with cpJournal := s.fl.cpJournal + recLen r } }

/-- Changes appended that do not act yet, and the structures as they will be. -/
def laterRecs (s : State) : List JRec := s.jr.waits.filterMap (fun w => match w.2 with | .apply r => some r | _ => none)
def soonDb (s : State) : Db := (laterRecs s).foldl applyRec s.db

/-- An audit entry of a custody channel (R245): its own AUDIT record. -/
def audit (channel kind flags data0 data1 : Nat) (s : State) : State :=
  let short := ((Tab.get s.db.cust channel).map (·.short)).getD 0
  append 8 short channel 0 false
    (.audit { time := stamp s, kind := kind, flags := flags, seq := s.jr.next % 2 ^ 48, data0 := data0, data1 := data1 }) s

/-- An audit entry on every enabled custody channel. -/
def auditAll (kind flags data0 data1 : Nat) (s : State) : State :=
  (s.db.cust.filter (fun p => p.2.enabled)).foldl (fun s p => audit p.1 kind flags data0 data1 s) s

/-! Replay (R241, R442): what the checkpoint's image and the programmed records give. -/

/-- The image that the mount gives: of the newest valid root, or by full scan the newest complete one. -/
def mountedRoot (s : State) : Option Root :=
  if s.fl.mount = 1 then s.fl.roots.find? (·.good) else s.fl.roots.head?

/-- The records from which replay takes: up to the first whose CRC fails, or whose SEQ does not follow (R241). A standby's own records stand
at the SEQ of the record before them (log 37). -/
def soundFrom (bad : Option Nat) : Nat → List JRec → List JRec
  | _, [] => []
  | prev, r :: l => if bad == some r.seq || (r.seq != prev + 1 && r.seq != prev) then [] else r :: soundFrom bad r.seq l

def soundRecs (bad : Option Nat) (l : List JRec) : List JRec := soundFrom bad ((l.head?.map (·.seq)).getD 1 - 1) l

/-- The mounted checkpoint's copy of the meter table reads back (R137). -/
def tableCopyGood (s : State) : Bool := ((mountedRoot s).map (·.copyGood)).getD true

/-- JOURNAL as replay finds it: what follows a record that does not read back is discarded (R241, R447). -/
def tornJournal (s : State) : State :=
  let keep := soundRecs s.fl.lostRec s.jr.flash
  let s := onFl (fun f => { f with lostRec := none }) s
  match s.jr.flash.drop keep.length with
  | [] => s
  | r :: _ => onJr (fun j => { j with flash := keep, programmed := r.seq - 1, next := r.seq }) s

/-- The structures after replay. -/
def replayed (s : State) : Db :=
  match mountedRoot s with
  | some r => (s.jr.flash.filter (fun x => r.j < x.seq)).foldl replayRec r.image
  | none => s.jr.flash.foldl replayRec Db.reset

/-- Records that change a custody channel and are not programmed yet. -/
def custodyPending (s : State) (ch : Nat) : Bool :=
  (s.jr.open_ ++ s.jr.commit.getD [] ++ s.jr.cut.getD []).any (fun r => r.global || r.channel == ch)

/-- Channels whose record in the custody store was found uncorrectable are rebuilt from their durable journal state, once no record of
theirs waits to be programmed (R27). -/
def rebuildCustody (s : State) : State :=
  s.lg.rebuild.foldl (fun s ch =>
    if custodyPending s ch then s
    else onLg (fun l => { l with rebuild := l.rebuild.filter (· != ch) })
      (onDb (fun d => { d with cust := Tab.put d.cust ch (Tab.get (replayed s).cust ch) }) s)) s

end Sys2Proof.Machine
end

