-- ==== Sys2Proof/Machine/Urr.lean ====
section
/-! DEFINITION. Urrauf as every chapter uses it: peers, sealing of datagrams, sending of messages, on Ethernet and on the isthmus
(R366, R371, R373, R374, R388). -/
namespace Sys2Proof.Machine
open Sys2Proof

def peerOf (s : State) (m : Nat) : Option Peer := s.arch.peers.find? (fun p => p.member == m)

/-- Changes the record of a peer, which is made first where there is none. -/
def onPeer (m : Nat) (f : Peer → Peer) (s : State) : State :=
  let s := if (peerOf s m).isSome then s else onArch (fun a => { a with peers := a.peers ++ [Peer.fresh m a.set.window] }) s
  onArch (fun a => { a with peers := modWhere (fun p => p.member == m) f a.peers }) s

def sessionUp (s : State) (m : Nat) : Bool := ((peerOf s m).map (fun p => p.session.isSome)).getD false

def dirOf (s : State) (m : Nat) : Option DirEntry := s.arch.dir.find? (fun e => e.member == m)
/-- IPv4-mapped address ::ffff:a.b.c.d. -/
def isMapped (a : Nat) : Bool := a / 2 ^ 32 == 0xFFFF

/-- The member whose session carries a message to m: itself, or the relay that trie table 1 names (R366). -/
def hopOf (s : State) (m : Nat) : Nat :=
  match dirOf s m with
  | none => m
  | some e =>
    if isMapped e.address then m
    else (trieLookup s.db.pfxs 1 (e.address / 2 ^ 56)).getD m

/-- This module is the designated member, a hub (R365). -/
def isDesignated (s : State) : Bool := s.arch.role == 2 && s.arch.set.designated == s.arch.member

/-- Where datagrams to m go: the directory's address and port; for the designated member the address of ARCH_SET. -/
def addressOf (s : State) (m : Nat) : Nat × Nat :=
  match dirOf s m with
  | some e => (e.address, e.port)
  | none => (s.arch.set.address, s.arch.set.port)

/-- Outer header (R371). -/
def outerHeader (kind session seq len : Nat) : Bytes :=
  [BitVec.ofNat 8 (0x10 + kind), 0] ++ toBE 2 session ++ toBE 8 seq ++ toBE 2 len ++ [0, 0]

def pad4 (b : Bytes) : Bytes := b ++ List.replicate ((4 - b.length % 4) % 4) 0

/-- Message header and body (R373). -/
def messageBytes (type flags hops src dst msgId : Nat) (body : Bytes) : Bytes :=
  pad4 (toBE 1 type ++ toBE 1 flags ++ toBE 2 (4096 * hops + src) ++ toBE 2 dst ++ toBE 2 body.length ++ toBE 4 msgId ++ body)

/-- A DATA datagram in a session, and the session after it (R371). -/
def sealData (e : Session) (now : Nat) (plain : Bytes) : Bytes × Session :=
  let seq := e.txSeq + 1
  let h := outerHeader 0 e.txId seq plain.length
  let c := gcmSeal e.txKey (e.txSalt ++ toBE 8 seq) h plain
  (h ++ c.1 ++ c.2, { e with txSeq := seq, txAt := now })

/-- Sends plaintext in the session with a peer; nothing where there is none. -/
def sendPlain (hop : Nat) (plain : Bytes) (s : State) : State :=
  match (peerOf s hop).bind (·.session) with
  | none => s
  | some e =>
    let d := sealData e s.now plain
    let a := addressOf s hop
    emit (.datagram a.1 a.2 d.1) (onPeer hop (fun p => { p with session := some d.2 }) s)

def flagsOf (bcast fence ack : Bool) : Nat := 4 * b2n bcast + 2 * b2n fence + b2n ack

/-- Initial t_rto in ms (R374). -/
def rtoMin : Nat := 50

/-- Sends a new message to member m (R373, R374). It is kept until its ACK or answer where `keep` says so. -/
def sendMsg (m type : Nat) (fence ack keep : Bool) (use : MsgUse) (body : Bytes) (s : State) : State :=
  match peerOf s (hopOf s m) with
  | none => s
  | some hp =>
    if hp.session.isNone then s
    else
      let s := onPeer m id s
      let msgId := ((peerOf s m).map (·.nextId)).getD 1
      let fl := flagsOf false fence ack
      let s := onPeer m (fun p =>
        { p with
          nextId := p.nextId + 1
          out := if keep then p.out ++ [{ msgId := msgId, type := type, flags := fl, body := body, use := use, ack := ack,
                                          first := s.now, last := s.now, rto := rtoMin }] else p.out }) s
      sendPlain (hopOf s m) (messageBytes type fl 0 s.arch.member m msgId body) s

/-- A message that always carries ACK_REQ (R374). -/
def sendAcked (m type : Nat) (use : MsgUse) (body : Bytes) (s : State) : State := sendMsg m type false true true use body s

/-- Members with a session Up. -/
def upMembers (s : State) : List Nat := (s.arch.peers.filter (fun p => p.session.isSome)).map (·.member)

/-- A message for every member that is Up (BCAST, R373): DST 0. Broadcasts are numbered apart from the messages to member 0, which would
else miss numbers in their fenced sequence (DEDUCED, log 107). -/
def broadcast (type : Nat) (body : Bytes) (s : State) : State :=
  let plain := messageBytes type (flagsOf true false false) 0 s.arch.member 0 s.arch.nextB body
  (upMembers s).foldl (fun s m => sendPlain m plain s) (onArch (fun a => { a with nextB := a.nextB + 1 }) s)

/-- The 24 bytes of a directory entry (R365). -/
def dirBytes (e : DirEntry) : Bytes :=
  toBE 2 (2 ^ 14 * e.state + 4096 * e.role + e.member) ++ toBE 16 e.address ++ toBE 2 e.port ++ [0, 0, 0, 0]

/-- Entries of the directory go to a member, at most 48 in a message, as a fenced sequence (R373, R385). -/
def sendDirectory (m : Nat) (es : List DirEntry) (s : State) : State :=
  (chunks 1152 (es.flatMap dirBytes)).foldl (fun s b =>
    sendMsg m 0x05 true true true .plain (toBE 2 (b.length / 24) ++ [0, 0] ++ b) s) s

/-- Changed entries go to every member that is Up (R385). -/
def tellDirectory (es : List DirEntry) (s : State) : State :=
  if es.isEmpty then s else (upMembers s).foldl (fun s m => sendDirectory m es s) s

/-- A message on the isthmus: FENCE on every message (R388). -/
def isthmusSend (type : Nat) (body : Bytes) (s : State) : State :=
  match s.pair.isthmus.session with
  | none => s
  | some e =>
    let m := s.arch.member
    let d := sealData e s.now (messageBytes type (flagsOf false true false) 0 m m s.pair.isthmus.nextId body)
    emit (.isthmus d.1) <|
      onPair (fun p => { p with isthmus := { p.isthmus with nextId := p.isthmus.nextId + 1, session := some d.2 } }) s

end Sys2Proof.Machine
end

