-- ==== Sys2Proof/Machine/Events.lean ====
section
/-! DEFINITION. Event sources and messages (R126, R127, R471, R472), the error log and what an uncorrectable word leads to (R24, R26,
R27), the start of an island reset (R82), and the pair's token: gate, states and giving up (R391, R396, R399, R401). -/
namespace Sys2Proof.Machine
open Sys2Proof

/-! Messages and sources. -/

/-- The write that the MSI-X table holds for a vector. -/
def sendMsix (v : Nat) (s : State) : State :=
  let e := s.host.msixTable.getD v (0, 0)
  emit (.msix v e.1 e.2) s

/-- One message to a vector falls due (R127); a remote-hosted module sends an EVENT message (R106). -/
def sendVector (v : Nat) (s : State) : State :=
  if remoteHosted s then
    sendAcked s.arch.set.remoteHost 0x26 .plain (toBE 1 v ++ List.replicate 7 0 ++ toBE 8 s.host.evt.toNat) s
  else if !s.host.msixEnable then s
  else if s.host.msixMask.getLsbD v || s.host.msixFmask || s.host.link != .l0 then
    onHost (fun h => { h with msixPending := h.msixPending ||| (1 <<< v) }) s
  else sendMsix v s

/-- Messages held pending are sent where nothing holds them any more (R127). -/
def flushPending (s : State) : State :=
  if s.host.msixFmask || s.host.link != .l0 || !s.host.msixEnable then s
  else
    (List.range 64).foldl (fun s v =>
      if s.host.msixPending.getLsbD v && !s.host.msixMask.getLsbD v then
        sendMsix v (onHost (fun h => { h with msixPending := h.msixPending &&& ~~~(1#64 <<< v) }) s)
      else s) s

/-- EVT_DETAIL_n of a device source: INFO written, COUNT incremented, and CAPE's copy (R471, R472). -/
def noteDetail (n info : Nat) (s : State) : State :=
  if n < 32 then s
  else
    let up := fun (l : List (Nat × Nat)) => modAt l (n - 32) (fun d => (satNat 16 (d.1 + 1), info % 65536))
    onTel (fun r =>
      { r with
        detail := up r.detail
        copy := if isUp s 1 then r.copy ||| (1 <<< (n - 32)) else r.copy
        copyDetail := if isUp s 1 then up r.copyDetail else r.copyDetail }) s

/-- Source n's bit is set and its message sent, where the bit was 0 (R127). -/
def setSource (n : Nat) (s : State) : State :=
  if s.host.evt.getLsbD n then s
  else
    let s := onHost (fun h => { h with evt := h.evt ||| (1 <<< n) }) s
    if s.host.evtEnable.getLsbD n then sendVector (s.host.evtVector.getD n n) s else s

/-- A source is raised (R127, R471). -/
def raise (n info : Nat) (s : State) : State := setSource n (noteDetail n info s)

/-! Supply of FAULT_N (R83, R84): low while an island is marked failed. -/
def anyFailed (s : State) : Bool := s.isl.any (fun i => i.phase == .failed)

/-! Token and gate. -/

/-- Number of a pair state (R393). -/
def pairNo : PairState → Nat
  | .unpaired => 0
  | .waiting => 1
  | .standby => 2
  | .active => 3
  | .solo => 4
  | .fenced => 5

/-- Gate and LEASE_TX in each state (table of R393). -/
def gateIn : PairState → Bool
  | .unpaired | .active | .solo => true
  | .waiting | .standby | .fenced => false
def leaseIn : PairState → Bool
  | .active | .solo => true
  | _ => false

/-- Transmissions in progress on the shared media end (R45). -/
def cutMedia (s : State) : State := emit (.cut 2) (emit (.cut 1) (emit (.cut 0) s))

/-! ### Wired polls (R342, R345) -/

def wiredSetOf (s : State) (port : Nat) : WiredSet := s.wir.set.getD port WiredSet.reset
def txOf (s : State) (port : Nat) : Option WiredTx := s.wir.tx.getD port none
def setTx (port : Nat) (t : Option WiredTx) (s : State) : State := onWir (fun w => { w with tx := setAt w.tx port t }) s
def pollKey (port address : Nat) : Nat := 256 * port + address
def pollAt (s : State) (port address : Nat) : Option PollEntry := Tab.get s.db.polls (pollKey port address)
def onPoll (k : Nat) (f : PollEntry → PollEntry) (s : State) : State := onDb (fun db => { db with polls := Tab.mod db.polls k f }) s

/-- A poll ends with a result: counted and kept; SILENT_AFTER failures mark the meter silent (R342). -/
def noteResult (port address result exc : Nat) (s : State) : State :=
  match pollAt s port address with
  | none => s
  | some p =>
    let failed := if result = 0 then 0 else min 255 (p.failed + 1)
    let quiet := (wiredSetOf s port).silentAfter ≤ failed
    let s := if result = 0 then s else statWir port result s
    let s := onPoll (pollKey port address) (fun p =>
      { p with lastResult := result, lastExc := if result = 3 || result = 4 then exc else p.lastExc, failed := failed
               silent := result != 0 && (p.silent || quiet) }) s
    if quiet && !p.silent then raise 51 (5 + port) s else s

/-- A change of the entry that waited for its transaction's end (15, commands). -/
def takeChange (port : Nat) (t : WiredTx) (s : State) : State :=
  match t.change with
  | some v => onDb (fun d => { d with polls := Tab.put d.polls (pollKey port t.address) v }) s
  | none => s

/-- A transaction that ends without a further one: the port does not poll (R336). -/
def dropTx (port : Nat) (note : State → State) (s : State) : State :=
  match txOf s port with
  | none => s
  | some t => takeChange port t (setTx port none (note s))

/-- A transaction cut by the gate ends with result 7 (15, commands). -/
def cutWired (port : Nat) (s : State) : State :=
  dropTx port (fun s => match txOf s port with
    | some t => noteResult port t.address 7 0 s
    | none => s) s

/-- STATE changes: gate, LEASE_TX, and LEASE_CHANGE at every change (R391, R395). Campaigns end with the token (R469). -/
def setPairState (st : PairState) (s : State) : State :=
  if s.pair.st = st then s
  else
    let old := s.pair.st
    let s := if s.pair.gate && !gateIn st then cutWired 1 (cutWired 0 (cutMedia s)) else s
    let s := if gateIn st then s else onPlc (fun p => { p with bcast := [] }) (onImg (fun i => { i with campaigns := [] }) s)
    raise 34 (pairNo st + 16 * pairNo old) (onPair (fun p => { p with st := st, gate := gateIn st, leaseTx := leaseIn st, joined := false }) s)

/-- Eligible: bits 0 to 6 and 8 of HEALTH (R401). -/
def eligible (h : Nat) : Bool := (List.range 7).all (bit h) && bit h 8

/-- LAG: records appended and not acknowledged by the partner (PAIR_STATUS). -/
def pairLag (s : State) : Nat := lastSeq s - s.pair.acked

/-- A time mark at most n seconds old. -/
def within (s : State) (n : Nat) (t : Option Nat) : Bool :=
  match t with
  | none => false
  | some v => s.now ≤ v + n * secNs

/-- Phases and radios in service (R288, R314). -/
def plcInService (s : State) (ph : Nat) : Bool := bit ((s.plc.phases.getD ph PlcPhase.reset).set.phases) ph
def radioEnabled (s : State) (r : Nat) : Bool := ((s.rad.radios.getD r RadioSt.reset).set.enable)

/-- The module's own HEALTH word (R399). -/
def ownHealth (s : State) : Nat :=
  b2n (within s 600 s.pair.dramAt) + 2 * b2n (!s.pair.sramBad) + 4 * b2n (within s 60 s.pair.katAt) + 8 * b2n (within s 600 s.pair.flashAt) +
  16 * b2n ((List.range 3).all (fun ph => !plcInService s ph || within s 5 (s.pair.bcnPlc.getD ph none))) +
  32 * b2n ((List.range 2).all (fun r => !radioEnabled s r || within s 10 (s.pair.bcnRadio.getD r none))) +
  64 * b2n (!s.pair.catchup && s.pair.partnerSeq ≤ lastSeq s + 256) +
  128 * b2n (s.pair.partnerKeys.all (fun k => ((Tab.get s.db.keys k).bind (·.current)).isSome)) + 256 * b2n (!anyFailed s)

/-- Why the token is given up: a key kill and EBB or HOLD do not wait for the partner (R396). -/
inductive GiveUp where
  | diagnosis | kill | power
  deriving DecidableEq, Repr

/-- The three acts of giving up (R396): gate closed, RELEASE sent, Standby. -/
def releaseToken (s : State) : State :=
  let s := onPair (fun p => { p with owesRelease := false, leaseAt := none, renews := [] }) s
  isthmusSend 0x82 (toBE 8 (lastSeq s)) (statPair 3 (setPairState .standby s))

/-- The holder gives up the token, or defers it while the partner is not eligible (R396). -/
def giveUp (why : GiveUp) (s : State) : State :=
  if !holdsToken s then s
  else if why = .diagnosis && !eligible s.pair.partner then
    (if s.pair.owesRelease then s else statPair 4 (onPair (fun p => { p with owesRelease := true }) s))
  else releaseToken s

/-! Errors found in words. -/

/-- ECC_LOG record of R26; the ring holds the last 1,024 (R474). -/
def eccRecord (island kind symbol sev wher : Nat) : BitVec 64 :=
  BitVec.ofNat 64 (island * 2 ^ 60 + kind * 2 ^ 56 + symbol * 2 ^ 50 + sev * 2 ^ 48 + wher % 2 ^ 48)

def eccLogged (island kind symbol sev wher : Nat) (s : State) : State :=
  onTel (fun r =>
    { r with
      eccLog := (r.eccLog ++ [(r.eccNext, eccRecord island kind symbol sev wher)]).drop (r.eccLog.length + 1 - 1024)
      eccNext := r.eccNext + 1 }) s

/-- A corrected word: counted, logged, and ECC_CORRECTED_LIMIT once at the island's threshold (R24, R474). -/
def eccCorrected (island kind symbol wher : Nat) (s : State) : State :=
  let k := 8 * island + kind
  let old := Tab.getD s.fab.corrected k 0
  let new := if old < ctrMax then old + 1 else old
  let s := onTel (fun r => { r with fixed := r.fixed + 1 }) (onFab (fun f => { f with corrected := Tab.setNat f.corrected k new }) s)
  let s := cntSat 14 (new == ctrMax) (eccLogged island kind symbol 1 wher s)
  if old < new && new == s.fab.eccLimit.getD island 1024 then raise 37 (island + 16 * kind) s else s

/-- Steps 1 to 3 of R27 but the poison mark, and R28. SYMBOL is 63 for every uncorrectable word: the table of R26 names 63 for two failed
symbols, and no value for mismatched sideband copies or for three and more (log 94). -/
def eccUncorrectable (island kind wher : Nat) (s : State) : State :=
  let k := 8 * island + kind
  let old := Tab.getD s.fab.uncorrected k 0
  let new := if old < ctrMax then old + 1 else old
  let s := onFab (fun f => { f with uncorrected := Tab.setNat f.uncorrected k new }) s
  let s := cntSat 14 (new == ctrMax) (eccLogged island kind 63 2 wher s)
  giveUp .diagnosis (raise 36 (island + 16 * kind) s)

/-! Island resets. -/

/-- The reset and power controller starts an island reset (R82 step 1); a source for an island that is not released, or during an
episode, is ignored (R87). What asked: R471, source 58. -/
def startIslandReset (n src : Nat) (s : State) : State :=
  if n = 0 || 13 < n || s.rs.episode || (islOf s n).phase != .running then s
  else emit (.strait 0 n 1) (onIsl n (fun i => { i with phase := .idleReq, since := s.now, tmoNow := i.idleTmo, byReset := true, srcNo := src, lockFails := 0 }) s)

/-- An error that no action of R27 leaves to a structure's reload: the island is reset at reach ISLAND. -/
def sramFailure (n : Nat) (s : State) : State :=
  startIslandReset n 2 (onPair (fun p => { p with sramBad := true }) s)

/-! Paths of custody conversion. -/

/-- CALC islands that cannot serve: bit 0 CALC_A, bit 1 CALC_B (R214, R216). -/
def calcMissing (s : State) : Nat := b2n (!(isUp s 6 && s.cv.okA)) + 2 * b2n (!(isUp s 7 && s.cv.okB))

/-- Single-path operation starts or ends for an island: an audit entry on every custody channel (R244, R245). -/
def notePath (k : Nat) (s : State) : State :=
  let now := bit (calcMissing s) k
  if now == bit s.lg.missing k then s
  else auditAll 7 0 (b2n now) (6 + k) (onLg (fun l => { l with missing := if now then setBit l.missing k else clrBit l.missing k }) s)

/-- LEDGER takes notice of the CALC islands that serve. An end is noted before a start, so that the record says what is in force. -/
def notePaths (s : State) : State :=
  if !mayAppend s || calcMissing s == s.lg.missing then s
  else if bit (calcMissing s) 0 then notePath 0 (notePath 1 s) else notePath 1 (notePath 0 s)

end Sys2Proof.Machine
end

