-- ==== Sys2Proof/Machine/Operands.lean ====
section
/-! DEFINITION. The operand forms of the ring commands: the common descriptor (R115), the fields each opcode has in bytes 16 to 63, so
that every other bit is reserved, the meter reference (R141), and the host buffer that a command reads (R113). -/
namespace Sys2Proof.Machine
open Sys2Proof

/-- A run of field bytes: first byte, number of bytes, and the mask of field bits in each. -/
abbrev FieldRun := Nat × Nat × Nat

def whole (first n : Nat) : FieldRun := (first, n, 0xFF)

/-- Bytes 16 to 27 of a meter reference (R141). -/
def refRuns : List FieldRun := [whole 16 10, (26, 1, 0x0F), (27, 1, 0x80)]
/-- CLEAR and a buffer address: every _STATS command. -/
def statsRuns : List FieldRun := [(16, 1, 1), whole 24 8]
def addr24 : List FieldRun := [whole 24 8]
/-- A buffer address, BUF_LEN and FROM: the commands that read a log. -/
def logRuns : List FieldRun := [whole 24 12, whole 40 8]

/-- The fields of each opcode of chapters 05 to 12; none: the opcode is not defined (R117). -/
def runsLow (op : Nat) : Option (List FieldRun) :=
  match op with
  | 0x00 => some []
  | 0x01 => some [whole 16 4, whole 24 8]
  | 0x02 => some [whole 16 8]
  | 0x03 => some [whole 16 4, (20, 1, 0x1F)]
  | 0x10 => some [whole 16 10, (26, 1, 0x0F), (27, 1, 0x40), whole 28 1, (29, 1, 0x8F)]
  | 0x11 => some (refRuns ++ [(28, 1, 1)])
  | 0x12 => some (refRuns ++ [whole 32 8])
  | 0x13 => some (refRuns ++ [(28, 1, 0xF0), whole 30 2])
  | 0x14 => some [whole 16 2, whole 24 8]
  | 0x15 => some [whole 16 4, whole 24 16]
  | 0x16 => some [whole 16 2, whole 24 16]
  | 0x17 => some []
  | 0x20 => some [(16, 16, 0x0F)]
  | 0x21 => some [(16, 1, 0x8F), whole 20 4]
  | 0x22 => some [(16, 1, 1)]
  | 0x23 => some [whole 16 5]
  | 0x24 => some (refRuns ++ [whole 28 1, (29, 1, 1)])
  | 0x25 => some (refRuns ++ [whole 28 1, (29, 1, 1), whole 30 1, whole 32 8])
  | 0x26 => some [whole 16 1, whole 20 16]
  | 0x27 => some (whole 16 1 :: logRuns)
  | 0x28 => some [whole 16 4]
  | 0x29 => some statsRuns
  | 0x30 => some (refRuns ++ [(28, 1, 0x83), (29, 1, 1)])
  | 0x31 => some (refRuns ++ [whole 28 12])
  | 0x32 => some (refRuns ++ [whole 28 1, (29, 1, 1), whole 30 2])
  | 0x33 => some addr24
  | 0x34 => some refRuns
  | 0x35 => some logRuns
  | 0x36 => some statsRuns
  | 0x38 => some [whole 16 7, (23, 1, 7), whole 24 8]
  | 0x39 => some (refRuns ++ [whole 28 2, (30, 1, 7)])
  | 0x3A => some [whole 16 2, whole 24 8]
  | 0x3B => some [whole 16 2]
  | 0x3C => some logRuns
  | 0x3D => some (refRuns ++ [whole 32 8])
  | 0x3E => some (refRuns ++ [whole 28 2, (30, 1, 3), whole 32 2])
  | 0x3F => some statsRuns
  | _ => none

/-- The fields of each opcode of device management, links and time. -/
def runsMid (op : Nat) : Option (List FieldRun) :=
  match op with
  | 0x40 => some [(16, 1, 7), whole 17 1, whole 20 4]
  | 0x41 => some [whole 16 4, whole 24 8]
  | 0x42 => some [whole 16 4, whole 24 8]
  | 0x43 => some [(16, 1, 1), whole 18 4, whole 24 8]
  | 0x44 => some []
  | 0x45 => some []
  | 0x46 => some []
  | 0x47 => some [whole 16 4]
  | 0x48 => some logRuns
  | 0x49 => some statsRuns
  | 0x4A => some [whole 16 1, whole 20 4]
  | 0x4B => some statsRuns
  | 0x4C => some [whole 16 1, (17, 1, 1), (18, 1, 7)]
  | 0x4D => some statsRuns
  | 0x50 => some [whole 16 1, (17, 1, 7), whole 18 14]
  | 0x51 => some (refRuns ++ [whole 32 8])
  | 0x52 => some (refRuns ++ [(28, 1, 0x8F)])
  | 0x53 => some statsRuns
  | 0x54 => some [whole 16 1, (17, 1, 1), whole 18 12]
  | 0x55 => some addr24
  | 0x56 => some (refRuns ++ [(28, 1, 1), whole 32 8])
  | 0x57 => some statsRuns
  | 0x58 => some [whole 16 1, (17, 1, 3), (18, 1, 0x3F), whole 20 4]
  | 0x59 => some (refRuns ++ [(28, 1, 1), whole 32 8])
  | 0x5A => some (refRuns ++ [whole 32 8])
  | 0x5B => some statsRuns
  | 0x60 => some [whole 16 1, (17, 1, 3), whole 18 1, (19, 1, 0x3F), whole 20 24]
  | 0x61 => some [whole 16 6, whole 24 8]
  | 0x62 => some addr24
  | 0x63 => some [whole 16 1, (17, 1, 0x0F), whole 20 10, whole 32 4, whole 40 8]
  | 0x64 => some addr24
  | 0x65 => some statsRuns
  | _ => none

/-- The fields of each opcode of the archipelago, the pair, keys, flash, images, quarantine and conversion. -/
def runsHigh (op : Nat) : Option (List FieldRun) :=
  match op with
  | 0x70 => some [whole 16 10, (26, 1, 3), whole 32 16]
  | 0x71 => some [whole 16 2, whole 24 8]
  | 0x72 => some addr24
  | 0x73 => some [whole 16 3, whole 24 16]
  | 0x74 => some [whole 16 3, (19, 1, 1), whole 20 8]
  | 0x75 => some []
  | 0x76 => some statsRuns
  | 0x78 => some addr24
  | 0x79 => some []
  | 0x7A => some [(16, 1, 1)]
  | 0x7B => some []
  | 0x7C => some statsRuns
  | 0x80 => some [whole 24 12, whole 40 8]
  | 0x81 => some addr24
  | 0x82 => some addr24
  | 0x83 => some [whole 16 1, (17, 1, 3)]
  | 0x84 => some addr24
  | 0x85 => some addr24
  | 0x86 => some []
  | 0x87 => some statsRuns
  | 0x90 => some [whole 16 4]
  | 0x91 => some [whole 16 6, whole 24 8]
  | 0x92 => some [whole 16 6, whole 24 8]
  | 0x93 => some [whole 16 8]
  | 0x94 => some addr24
  | 0x95 => some []
  | 0x96 => some statsRuns
  | 0xA0 => some addr24
  | 0xA1 => some [whole 16 16, (32, 1, 1), whole 33 1]
  | 0xA2 => some [(32, 1, 1), whole 33 1]
  | 0xA3 => some [whole 16 1, whole 20 4]
  | 0xA4 => some [whole 16 1]
  | 0xA5 => some addr24
  | 0xA6 => some [whole 16 1, (17, 1, 0x1F), whole 18 18]
  | 0xA7 => some [whole 16 2, whole 24 12]
  | 0xA8 => some [whole 16 2]
  | 0xA9 => some [(16, 1, 1), whole 17 3]
  | 0xAA => some [whole 16 1]
  | 0xB0 => some [whole 16 8, whole 24 12]
  | 0xB1 => some [whole 16 8, (24, 1, 1)]
  | 0xB2 => some statsRuns
  | 0xB3 => some [whole 16 6]
  | 0xB8 => some [whole 16 2, whole 24 8]
  | 0xB9 => some addr24
  | 0xBA => some statsRuns
  | _ => none

/-- The fields of an opcode; none: no chapter defines it (R117). -/
def opcodeRuns (op : Nat) : Option (List FieldRun) :=
  if op < 0x40 then runsLow op else if op < 0x70 then runsMid op else runsHigh op

/-- The bits of byte k that hold fields, in a descriptor of an opcode (R115). -/
def fieldBits (runs : List FieldRun) (k : Nat) : Nat :=
  if k = 0 then 0xFF else if k = 1 then 7 else if k < 8 then 0 else if k < 16 then 0xFF
  else ((runs.find? (fun r => r.1 ≤ k && k < r.1 + r.2.1)).map (·.2.2)).getD 0

/-- The bytes of a descriptor that hold a reserved bit that is not zero, in rising order (R115). -/
def reservedFaults (b : Bytes) : List Nat :=
  let runs := (opcodeRuns (u8 b 0)).getD []
  (List.range 64).filter (fun k => andNot 8 (u8 b k) (fieldBits runs k) != 0)

/-! Fields that many commands share. -/

/-- A condition that a field must meet, and the field's first byte. -/
abbrev Check := Bool × Nat

def checkFaults (l : List Check) : List Nat := (l.filter (fun c => !c.1)).map (·.2)

/-- Faults of the meter reference (R141). -/
def refChecks (b : Bytes) : List Check :=
  if bit (u8 b 27) 7 then [(u64 b 16 == 0, 16)] else [(u24 b 24 % 2 ^ 20 == 0, 24)]

/-- The meter reference: an enrolled meter's short index and entry; a retired one only where asked for (R141, R143). -/
def refMeter (retired : Bool) (s : State) (b : Bytes) : Option (Nat × MEntry) :=
  let r := if bit (u8 b 27) 7 then (let k := u24 b 24 % 2 ^ 20; (entryOf s k).map (fun e => (k, e))) else entryById s (u64 b 16)
  r.filter (fun p => retired || !p.2.retired)

def inRange (v lo hi : Nat) : Bool := lo ≤ v && v ≤ hi
/-- The address at an offset is a multiple of `align`. -/
def addrCheck (b : Bytes) (o align : Nat) : Check := (u64 b o % align == 0, o)
/-- BUF_LEN in bytes o to o+3: a multiple of 4,096 up to 65,536. -/
def bufLenCheck (b : Bytes) (o : Nat) : Check := (u32 b o % 4096 == 0 && inRange (u32 b o) 4096 65536, o)
/-- CLEAR and a 64-byte aligned buffer. -/
def statsChecks (b : Bytes) : List Check := [addrCheck b 24 64]
def logChecks (b : Bytes) (align : Nat) : List Check := [addrCheck b 24 align, bufLenCheck b 32]

/-- The host buffer that a command reads before it runs: address and length; none where it reads none or its length field is out
of range. -/
def inputOf (b : Bytes) : Option (Nat × Nat) :=
  let at24 := fun n : Nat => some (u64 b 24, n)
  match u8 b 0 with
  | 0x14 => at24 1024
  | 0x33 => at24 384
  | 0x42 => if u16 b 18 = 0 || 0xC00 < u16 b 18 then none else at24 (u16 b 18)
  | 0x55 => at24 128
  | 0x59 => if bit (u8 b 28) 0 then none else some (u64 b 32, 144)
  | 0x62 => at24 528
  | 0x71 => if inRange (u16 b 16) 1 4096 then at24 (24 * u16 b 16) else none
  | 0x78 => at24 32
  | 0x80 => if inRange (u32 b 32) 160 16264 then at24 (u32 b 32) else none
  | 0x85 => at24 96
  | 0x92 => if inRange (u16 b 20) 1 256 then at24 (4096 * u16 b 20) else none
  | 0xA0 => at24 512
  | 0xA1 => if inRange (u32 b 20) 1 65536 then at24 (u32 b 20) else none
  | 0xA6 => if inRange (u32 b 32) 1 3072 then at24 (4 * u32 b 32) else none
  | 0xB8 => if inRange (u8 b 17) 2 32 then at24 (16 * u8 b 17) else none
  | 0xB9 => at24 1024
  | _ => none

/-- The island beyond NET that serves an opcode, whose reset ends it STRAIT_ABORT (R18, R119); 0: none, or its chapter gives a status
of its own for an island that is down. -/
def servedBy (op : Nat) : Nat :=
  if op < 0x10 then 0 else if op < 0x20 then 5 else if op < 0x40 then 8 else if op < 0x4C then 1 else if op < 0x4E then 9
  else if op < 0x80 then 0 else if op < 0x90 then 2 else if op < 0xA0 then 3 else if op < 0xB0 then 1 else if op < 0xB4 then 4
  else 0

/-- Commands that run as a work item on the flow of the balance node they name (chapter 12, commands of class 0x38). -/
def onNodeFlow (b : Bytes) (op : Nat) : Bool := [0x38, 0x39, 0x3A, 0x3B].contains op || (op == 0x3E && bit (u8 b 30) 1)
/-- Commands that run as a work item on the flow of the meter or balance node they name: METER_REMOVE (R143), those of class 0x30 that
change or read a meter's credit (R260), and the node, membership and indicator commands of class 0x38. -/
def onFlow (op : Nat) : Bool := [0x11, 0x30, 0x31, 0x32, 0x34, 0x38, 0x39, 0x3A, 0x3B, 0x3E].contains op
/-- The node that a node or membership command names. -/
def nodeNamed (b : Bytes) (op : Nat) : Nat := if op = 0x39 then u16 b 28 else if op = 0x3E then u16 b 32 else u16 b 16
/-- Commands that need ATOLL (R151, R165): those, and the scheduler's own. Which others do is not stated (DEDUCED, log 19). -/
def needsAtoll (op : Nat) : Bool := servedBy op == 9 || onFlow op

/-- A command of the delivery class, which a delivery ring pair takes (R119). NOP is allowed on both kinds. -/
def ringAllows (delivery : Bool) (op : Nat) : Bool :=
  if op = 0 then true else if op = 1 || op = 2 then delivery else !delivery

end Sys2Proof.Machine
end

