-- ==== Sys2Proof/Machine/Tick.lean ====
section
/-! DEFINITION. How the module's time bases go on (R346, R350, R478; log 1): the time counter, the real-time clock of HOLM, the operating
seconds, and the ends of balance intervals that the clock passes (R271). The opcode table has no row for time: a step with no command is one
tick of 8 ns, and a command that stands for an instant first brings the time line to that instant. -/
namespace Sys2Proof.Machine
open Sys2Proof

/-- The real-time clock in ns (R350). -/
def rtcTime (t : Time) : Int := t.rtc * 1000000000 / 32768

/-- Units of Time.frac in a nanosecond: 2^16 × 10^9. -/
def fracUnit : Int := 65536000000000

/-- One tick of the NET time base: 8 ns × (1 + y), y in 2^-16 ppb (R346). -/
def counterStep (y : Int) : Int := 8 * fracUnit + 8 * y

/-- 1,000 ppm in 2^-16 ppb, the clamp of R352. -/
def yMax : Int := 1000000 * 65536

/-- The rate in force: the servo's, or the clamp while a change asked by TIME_SET is slewed (R238, R352). -/
def rateNow (t : Time) : Int := if t.slewLeft = 0 then t.y else if t.slewLeft < 0 then -yMax else yMax

/-- What the slew gains in one tick. -/
def slewGain (t : Time) : Int := counterStep (rateNow t) - counterStep t.y

/-- Ticks until nothing is left to slew. -/
def slewTicks (t : Time) : Nat :=
  let d := (slewGain t).natAbs
  if d = 0 then 0 else (t.slewLeft.natAbs + d - 1) / d

/-- n ticks at one rate. -/
def runTicks (n : Nat) (rate : Int) (t : Time) : Time :=
  let v := (t.frac : Int) + n * counterStep rate
  { t with counter := t.counter + v / fracUnit, frac := (v % fracUnit).toNat }

/-- The counter and its 16 fractional bits after n ticks; while it does not run, islands take time from the real-time clock (R350). What is
left to slew never changes its sign. -/
def tickCounter (n : Nat) (t : Time) : Time :=
  if !t.runs then { t with counter := rtcTime t, frac := 0 }
  else
    let k := slewTicks t
    if n < k then { runTicks n (rateNow t) t with slewLeft := t.slewLeft - n * slewGain t }
    else if k = 0 then runTicks n (rateNow t) t
    else runTicks (n - k) t.y { runTicks k (rateNow t) t with slewLeft := 0 }

/-- The resonator's own rate, within 2 ppm (R74), in ppb: a free value. -/
def resonatorPpb : Int := clampInt (-2000) 2000 (Config.resonator)

/-- One unit of 1/32,768 s in 10^-9/64 ns. -/
def rtcUnit : Nat := 1953125 * 1000000000

/-- The real-time clock after n ticks (R350). -/
def tickRtc (n : Nat) (t : Time) : Time :=
  let v := t.rtcNs + n * (512 * (1000000000 + resonatorPpb)).toNat
  { t with rtc := t.rtc + ((v / rtcUnit : Nat) : Int), rtcNs := v % rtcUnit }

/-- HOLM counts operating seconds in RUN, TRIM, EBB and during start-up (R478). -/
def countsOp (s : State) : Bool :=
  match s.pw.st with
  | .run | .trim | .ebb => true
  | .hold => false
  | .off => s.rs.starting || s.rs.episode

/-- Operating seconds after n ticks: a count at its largest value stops and COUNT_STUCK is set (R478). -/
def tickOp (n : Nat) (s : State) : State :=
  if countsOp s then
    let v := s.rs.opNs + 8 * n
    let sec := s.rs.opSeconds + v / secNs
    let s := onRs (fun r => { r with opNs := v % secNs, opSeconds := min (2 ^ 40 - 1) sec }) s
    if sec < 2 ^ 40 then s else onTel (fun r => { r with countStuck := true }) s
  else s

/-! ### The clock passes the ends of balance intervals (R271) -/

/-- Minutes from the epoch in standard billing time, of a TAI second and now. -/
def minuteOf (s : State) (tai : Int) : Int := (tai + standardOffset s) / 60
def minuteNow (s : State) : Int := minuteOf s (taiSec s)

/-- The ends up to minute `now` are noted with the operating second `op` at which each was passed. -/
def passesF (now : Nat) (op : Nat → Nat) : Nat → Node → Node
  | 0, n => n
  | f + 1, n =>
    let e := n.nextClose + n.balLen * (n.passes.length + 1)
    if e ≤ now then passesF now op f { n with passes := n.passes ++ [op e] } else n

/-- The operating second at which the clock passed a minute, within the `span` operating seconds just gone. -/
def passedAt (s : State) (span minute : Nat) : Nat :=
  s.rs.opSeconds - min (span - 1) (taiSec s + standardOffset s - 60 * (minute : Int)).toNat

/-- Once per operating second LEDGER notes what the clock has passed. -/
def notePasses (span : Nat) (s : State) : State :=
  let now := (minuteNow s).toNat
  onDb (fun d => { d with nodes := d.nodes.map (fun p =>
    (p.1, if p.2.enabled then passesF now (passedAt s span) ((now - p.2.nextClose) / max 1 p.2.balLen + 1) p.2 else p.2)) }) s

/-- n ticks of 8 ns. -/
def ticks (n : Nat) (s : State) : State :=
  let t := tickOp n (onTm (fun t => tickCounter n (tickRtc n t)) { s with now := s.now + 8 * n })
  if t.rs.opSeconds != s.rs.opSeconds && isUp t 8 then notePasses (t.rs.opSeconds - s.rs.opSeconds) t else t

/-- One tick. -/
def tick (s : State) : State := ticks 1 s

/-! ### Commands that stand for an instant (log 1) -/

/-- The time line goes on to an instant, ns of State.now; it never goes back. -/
def passTo (t : Nat) (s : State) : State := if t ≤ s.now then s else ticks ((t - s.now + 7) / 8) s

/-- The time line goes on to an operating second, where these are counted. -/
def passOp (sec : Nat) (s : State) : State :=
  if sec ≤ s.rs.opSeconds || !countsOp s then s else passTo (s.now + ((sec - s.rs.opSeconds) * secNs - s.rs.opNs)) s

/-- The time line goes on until the counter has reached a TAI instant in ns: the ticks that the present rate needs, and again while the
counter falls short. -/
def passClockF (t : Int) : Nat → State → State
  | 0, s => s
  | f + 1, s =>
    if t ≤ s.tm.counter then s
    else
      let step := if s.tm.runs then counterStep (rateNow s.tm) else 8 * fracUnit
      passClockF t f (ticks (((t - s.tm.counter) * fracUnit / step).toNat + 1) s)
def passClock (t : Int) (s : State) : State := passClockF t 4 s

end Sys2Proof.Machine
end

