-- ==== Sys2Proof/Machine/Host.lean ====
section
/-! DEFINITION. The host attachment as every ring command uses it (chapter 05): accesses to host memory, the life of a descriptor from
fetch to completion, ring errors and stops, delivery buffers, and the frame that each ring command runs in. -/
namespace Sys2Proof.Machine
open Sys2Proof

def onRing (n : Nat) (f : Ring → Ring) (s : State) : State := onHost (fun h => { h with rings := modAt h.rings n f }) s
def ringOf (s : State) (n : Nat) : Ring := s.host.rings.getD n Ring.reset
def descOf (s : State) (d : Nat) : Option Desc := s.host.descs.find? (fun x => x.id == d)
def onDesc (d : Nat) (f : Desc → Desc) (s : State) : State :=
  onHost (fun h => { h with descs := modWhere (fun x => x.id == d) f h.descs }) s
def dropDesc (d : Nat) (s : State) : State := onHost (fun h => { h with descs := h.descs.filter (fun x => x.id != d) }) s
def opcodeOf (x : Desc) : Nat := u8 x.bytes 0
def hasFence (x : Desc) : Bool := bit (u8 x.bytes 1) 0

/-! ### Host memory (R106, R118, R123, R379) -/

/-- The largest read or write that one Urrauf message carries (R373). -/
def urrChunk : Nat := 1024

/-- The next piece of a read over Urrauf (R379). -/
def remoteReadNext (d : Dma) (s : State) : State :=
  sendMsg s.arch.set.remoteHost 0x23 false true true (.dma d.tag)
    (toBE 8 (d.addr + d.got.length) ++ toBE 2 (min urrChunk (d.len - d.got.length))) s

/-- An access of len bytes at an address in requests of at most k bytes, none of which crosses a multiple of k (R100). -/
def spans (k addr len : Nat) : List (Nat × Nat) :=
  let first := min len (k - addr % k)
  let rest := len - first
  (if first = 0 then [] else [(addr, first)]) ++
    (List.range ((rest + k - 1) / k)).map (fun i => (addr + first + k * i, min k (rest - k * i)))

/-- A read of host memory starts. -/
def dmaRead (use : DmaUse) (addr len : Nat) (s : State) : State :=
  let d : Dma := { tag := s.host.nextTag, use := use, addr := addr, len := len, got := [] }
  let s := onHost (fun h => { h with dma := h.dma ++ [d], nextTag := h.nextTag + 1 }) s
  if remoteHosted s then remoteReadNext d s
  else (spans s.host.maxRead addr len).foldl (fun s p => emit (.hostRead d.tag p.1 p.2) s) s

def dropDma (p : Dma → Bool) (s : State) : State := onHost (fun h => { h with dma := h.dma.filter (fun d => !p d) }) s
def dmaOfDesc (k : Nat) (d : Dma) : Bool :=
  match d.use with
  | .fetch x | .input x | .output x | .deliver x => x == k
  | .remoteRead .. => false

/-- A write of host memory: over PCIe in requests of the maximum payload, relaxed where Device Control enables it (R100, R123); over Urrauf
in acknowledged pieces (R106, R379). -/
def writeOut (addr : Nat) (data : Bytes) (relaxed : Bool) (use : MsgUse) (s : State) : State :=
  if remoteHosted s then
    (chunks urrChunk data).zipIdx.foldl (fun s p =>
      sendAcked s.arch.set.remoteHost 0x25 use (toBE 8 (addr + urrChunk * p.2) ++ toBE 2 p.1.length ++ [0, 0] ++ p.1) s) s
  else
    (spans s.host.maxPayload addr data.length).foldl (fun s p =>
      emit (.hostWrite p.1 (slice data (p.1 - addr) p.2) (relaxed && s.host.relaxOn)) s) s

/-- A descriptor started before a PERST_N writes nothing (R103). -/
def isMute (s : State) (d : Nat) : Bool := (descOf s d).all (·.mute)

/-- A data write of a descriptor: relaxed ordering (R123); it can fail until the completion entry is written (R118). -/
def hostStore (use : Nat → DmaUse) (d addr : Nat) (data : Bytes) (s : State) : State :=
  if isMute s d then s
  else
  let a : Dma := { tag := s.host.nextTag, use := use d, addr := addr, len := data.length, got := [] }
  let s := onHost (fun h => { h with dma := h.dma ++ [a], nextTag := h.nextTag + 1 }) s
  let s := onDesc d (fun x => { x with writes := x.writes + if remoteHosted s then (data.length + urrChunk - 1) / urrChunk else 0 }) s
  writeOut addr data true (.dma a.tag) s

/-- Command data for the host's buffer. -/
def putOut (d addr : Nat) (data : Bytes) (s : State) : State := hostStore .output d addr data s

/-! ### Descriptors -/

/-- A descriptor's command has ended (R116): its completion entry is due, after those that ended before it. In a ring pair whose completions are discarded it only
leaves (R103, R110). -/
def finish (d status detail : Nat) (result : Bytes) (s : State) : State :=
  match descOf s d with
  | none => s
  | some x =>
    if x.stage == .done then s
    else if x.orphan then dropDma (dmaOfDesc d) (dropDesc d s)
    else
      let ended := { x with stage := .done, status := status, detail := detail, result := result }
      onHost (fun h => { h with descs := h.descs.filter (fun y => y.id != d) ++ [ended] })
        (onRing x.ring (fun r => { r with failed := r.failed || status != 0 }) s)

def finishOk (d : Nat) (result : Bytes) (s : State) : State := finish d 0 0 result s
def badParam (d offset : Nat) (s : State) : State := finish d 2 offset [] s
def notAllowed (d : Nat) (s : State) : State := finish d 0x0A 0 [] s
def noResource (d : Nat) (s : State) : State := finish d 0x0B 0 [] s

/-- The command waits for something other than the host. -/
def holdDesc (d : Nat) (s : State) : State := onDesc d (fun x => { x with stage := .waiting }) s

/-- The command completes when the last record appended is durable (R31). -/
def finishDurable (d : Nat) (result : Bytes) (s : State) : State := holdDesc d (whenDurable (.complete d 0 0 result) s)

/-- Source of ring pair n (R128). -/
def notifyRing (n : Nat) (s : State) : State := raise n 0 (onRing n (fun r => { r with unnotified := 0, coalSince := none }) s)

/-- Completion slots of a ring pair that are neither unconsumed nor reserved; one stays empty (R112, R114). -/
def freeSlots (r : Ring) : Nat :=
  let size := 2 ^ r.cqLog
  size - 1 - (r.cqIndex + size - r.cqHead) % size - r.reserved

/-- The log entries that a selection covers go back to waiting, marked as sent before (R121). -/
def redeliver (p : LogEntry → Bool) (s : State) : State :=
  onFl (fun f => { f with log := modWhere p (fun e => { e with placed := none, batch := none, again := true }) f.log }) s

/-- Buffers of ring pair n are taken back, their readings wait again (R109, R110, R508). -/
def dropBufs (n : Nat) (s : State) : State :=
  let ds := (s.host.bufs.filter (fun b => b.ring == n)).map (·.desc)
  let s := redeliver (fun e => e.placed.any ds.contains && e.batch.isNone) s
  onHost (fun h => { h with bufs := h.bufs.filter (fun b => b.ring != n) }) s

/-- A ring pair enters Error (R110): unstarted descriptors are dropped, completions of started ones are discarded. -/
def ringError (n code : Nat) (s : State) : State :=
  let bufs := (s.host.bufs.filter (fun b => b.ring == n)).map (·.desc)
  let s := dropBufs n s
  let gone := fun x : Desc =>
    x.ring == n && (x.stage == .fetching || x.stage == .fetched || x.stage == .done || bufs.contains x.id)
  let ids := (s.host.descs.filter gone).map (·.id)
  let s := dropDma (fun d => ids.any (fun k => dmaOfDesc k d)) s
  let s := onHost (fun h => { h with descs := (h.descs.filter (fun x => !gone x)).map (fun x => if x.ring == n then { x with orphan := true } else x) }) s
  raise n 0 (onRing n (fun r => { r with state := .error, error := code, reserved := 0, zlr := false, zlrBack := false }) s)

/-! ### Starting descriptors (R114, R115, R117, R119, R124, R125) -/

/-- Opcodes that the recovery image serves (R458). -/
def recoveryServes (op : Nat) : Bool := op < 0x10 || (0xA0 ≤ op && op < 0xB0)

/-- A descriptor starts, or completes at once because it may not. -/
def startDesc (x : Desc) (s : State) : State :=
  let r := ringOf s x.ring
  let d := x.id
  let aborted := hasFence x && bit (u8 x.bytes 1) 1 && r.failed
  let s := if hasFence x then onRing x.ring (fun r => { r with failed := false, zlr := false, zlrBack := false }) s else s
  if aborted then finish d 5 0 [] s
  else if (opcodeRuns (opcodeOf x)).isNone then finish d 1 0 [] s
  else if s.rs.recovery && !recoveryServes (opcodeOf x) then notAllowed d s
  else if !ringAllows r.delivery (opcodeOf x) then finish d 3 0 [] s
  else
    let s := onDesc d (fun x => { x with stage := .started }) s
    match inputOf x.bytes with
    | some (a, n) => if (reservedFaults x.bytes).isEmpty then dmaRead (.input d) a n s else s
    | none => s

/-- The descriptors of a ring pair whose completions are not discarded: those that have ended stand last, in the order they ended. -/
def ringDescs (s : State) (n : Nat) : List Desc := s.host.descs.filter (fun x => x.ring == n && !x.orphan)
/-- A ring pair still holds a descriptor (R109). -/
def ringHolds (s : State) (n : Nat) : Bool := s.host.descs.any (fun x => x.ring == n)

/-- The host can be reached: over the PCIe link, or through the session with REMOTE_HOST (R106, R118). -/
def hostReach (s : State) : Bool :=
  if remoteHosted s then sessionUp s (hopOf s s.arch.set.remoteHost) else (s.host.link == .l0 || s.host.link == .l1) && !s.rs.perst

/-- A completion entry of ring pair n has been sent over Urrauf and is not acknowledged. -/
def entryOpen (s : State) (n : Nat) : Bool :=
  s.host.owed.any (fun p => p.1 == n) || s.arch.peers.any (fun p => p.out.any (fun o => o.use == .entry n))

/-- The next descriptor to start, if it may start now. A fence needs every earlier completion and its zero-length read (R124);
over Urrauf the acknowledgements of every write take the read's place (R106). -/
def nextStart (s : State) (n : Nat) : Option Desc :=
  match (ringDescs s n).find? (fun x => x.stage == .fetching || x.stage == .fetched) with
  | none => none
  | some x =>
    if x.stage == .fetching then none
    else if !hasFence x then some x
    else if (ringDescs s n).any (fun y => y.id < x.id) then none
    else if (if remoteHosted s then !entryOpen s n else (ringOf s n).zlrBack) then some x
    else none

/-- The zero-length read of a fence whose earlier descriptors have all completed (R124). -/
def issueZlr (n : Nat) (s : State) : State :=
  match (ringDescs s n).find? (fun x => x.stage == .fetching || x.stage == .fetched) with
  | none => s
  | some x =>
    if x.stage == .fetched && hasFence x && !remoteHosted s && !(ringOf s n).zlr && !(ringDescs s n).any (fun y => y.id < x.id) then
      emit (.zeroRead n) (onRing n (fun r => { r with zlr := true, zlrBack := false }) s)
    else s

def startRingF : Nat → Nat → State → State
  | 0, _, s => s
  | k + 1, n, s =>
    match nextStart s n with
    | none => issueZlr n s
    | some x => startRingF k n (startDesc x s)

/-- Starts what may start on a ring pair. -/
def startRing (n : Nat) (s : State) : State :=
  if (ringOf s n).state = .enabled then startRingF ((ringDescs s n).length + 1) n s else s

/-! ### Delivery buffers (R120 to R122) -/

/-- The ring pair that a profile is steered to: named by STEER_SET, else the lowest Enabled delivery ring pair (R122). -/
def steered (s : State) (profile : Nat) : Option Nat :=
  let ok := fun n => (ringOf s n).delivery && (ringOf s n).state == .enabled
  match Tab.get s.host.steer profile with
  | some n => if ok n then some n else none
  | none => (List.range 32).find? ok

/-- A delivery buffer is completed with its records (R120). -/
def closeBuf (b : DelBuf) (s : State) : State :=
  let n := (ringOf s b.ring).batch
  let s := onRing b.ring (fun r => { r with batch := r.batch + 1 }) s
  let s := onFl (fun f => { f with log := modWhere (fun e => e.placed == some b.desc) (fun e => { e with batch := some (n, b.ring) }) f.log }) s
  let s := onHost (fun h => { h with bufs := h.bufs.filter (fun x => x.desc != b.desc) }) s
  finishOk b.desc (toLE 8 n ++ toLE 4 b.records) s

/-- A buffer's write failed: DMA_ERROR, RECORDS and BATCH zero, its readings wait again (R120). -/
def failBuf (d : Nat) (s : State) : State :=
  let s := redeliver (fun e => e.placed == some d) s
  finish d 6 0 [] (onHost (fun h => { h with bufs := h.bufs.filter (fun x => x.desc != d) }) s)

/-- The bytes of a record as delivered: REDELIVERED is bit 7 of byte 20. -/
def recordBytes (e : LogEntry) : Bytes :=
  if e.again then setAt e.record 20 (e.record.getD 20 0 ||| 0x80) else e.record

/-- The records placed together: one, or a custody pair (R120, R122). -/
def groupOf (s : State) (seq : Nat) : List LogEntry := s.fl.log.filter (fun e => e.seq == seq)

/-- Writes a group into a buffer that has room. -/
def placeGroup (b : DelBuf) (g : List LogEntry) (s : State) : State :=
  let s := g.zipIdx.foldl (fun s p => hostStore .deliver b.desc (b.addr + 64 * (b.records + p.2)) (recordBytes p.1) s) s
  let b2 := { b with records := b.records + g.length, first := some (b.first.getD s.now) }
  let s := onHost (fun h => { h with bufs := h.bufs.map (fun x => if x.desc == b.desc then b2 else x) }) s
  let s := onFl (fun f =>
    { f with log := modWhere (fun e => g.any (fun y => y.seq == e.seq)) (fun e => { e with placed := some b.desc }) f.log }) s
  if b2.len < 64 * (b2.records + 1) then closeBuf b2 s else s

/-- FLUSH has elapsed since a buffer's first record (R120). -/
def bufExpired (s : State) (b : DelBuf) : Bool := b.first.any (fun t => t + (ringOf s b.ring).flush * 100000 ≤ s.now)

/-- A reading is written into the open buffer of its ring pair; a buffer without room for the group, or whose FLUSH has elapsed, is
completed first (R120). -/
def deliverOne (seq : Nat) (s : State) : State :=
  match groupOf s seq with
  | [] => s
  | e :: r =>
    if e.placed.isSome then s
    else
      match steered s e.profile with
      | none => s
      | some n =>
        let need := 64 * (1 + r.length)
        let s := match s.host.bufs.find? (fun b => b.ring == n) with
          | some b => if b.len < 64 * b.records + need || bufExpired s b then closeBuf b s else s
          | none => s
        match s.host.bufs.find? (fun b => b.ring == n) with
        | some b => placeGroup b (e :: r) s
        | none => s

/-- Beside a partner that follows, delivery waits for the JOURNAL_ACK of the reading's record (R404). -/
def deliverable (s : State) (e : LogEntry) : Bool := s.pair.st != .active || e.seq ≤ s.pair.acked

/-- Every reading in LOG that waits and can be placed is placed (R120, R122). Delivery needs NET, and the token of a pair (R407). -/
def deliverAll (s : State) : State :=
  if isUp s 10 && inService s && !isStandby s && hostReach s then
    ((s.fl.log.filter (fun e => e.placed.isNone && deliverable s e)).map (·.seq)).eraseDups.foldl (fun s q => deliverOne q s) s
  else s

/-! ### The frame of a ring command -/

/-- The command of a started descriptor runs (R115, R118, R119): a reserved bit or a field out of range completes BAD_PARAM with the
offset of the first byte in fault; a held island that serves it ends it STRAIT_ABORT (R18), but one that needs ATOLL waits for it, unless
ATOLL is marked failed (R165); it waits for its input. -/
def hostCmd (op d : Nat) (checks : Bytes → List Check) (f : Desc → State → State) (s : State) : State :=
  match descOf s d with
  | none => s
  | some x =>
    if x.stage != .started || opcodeOf x != op || !isUp s 10 then s
    else
      match (reservedFaults x.bytes ++ checkFaults (checks x.bytes)).min? with
      | some o => badParam d o s
      | none =>
        let island := servedBy op
        if needsAtoll op && !isUp s 9 then (if (islOf s 9).phase == .failed then finish d 7 0 [] s else s)
        else if island != 0 && !isUp s island then finish d 7 0 [] s
        else if (inputOf x.bytes).isSome && x.input.isNone then s
        else f x s

/-- A command that names a meter: `unknown` is the status of its class for a reference that names none (R141). By identity it needs the
table: while that is Rebuilding it completes TABLE_REBUILDING, in every class under the one code that R140 has (DEDUCED, log 57). -/
def meterCmd (op d : Nat) (retired : Bool) (unknown : Nat × Nat) (checks : Bytes → List Check)
    (f : Desc → Nat → MEntry → State → State) (s : State) : State :=
  hostCmd op d (fun b => refChecks b ++ checks b) (fun x s =>
    if s.tbl.state = 2 && !bit (u8 x.bytes 27) 7 then finish d 0x29 0 [] s
    else
    match refMeter retired s x.bytes with
    | none => finish d unknown.1 unknown.2 [] s
    | some (k, e) => f x k e s) s

/-- UNKNOWN_METER outside class 0x10: BAD_PARAM with DETAIL 16 (R141). -/
def otherClass : Nat × Nat := (2, 16)

/-- Counters with what was taken from them (R473: they stop at the largest value). -/
def addCounts (now taken : List Nat) : List Nat := now.zipIdx.map (fun p => min ctrMax (p.1 + taken.getD p.2 0))
/-- The same for counters kept per phase, radio or port, k of each. -/
def addRows (k : Nat) (now : List (List Nat)) (taken : List Nat) : List (List Nat) :=
  now.zipIdx.map (fun p => addCounts p.1 ((taken.drop (k * p.2)).take k))
/-- The same for counters kept by island and kind (R24): the first `n` places of the list. -/
def addTab (place : Nat → Nat) (taken : List Nat) (t : Tab Nat) : Tab Nat :=
  taken.zipIdx.foldl (fun t p => Tab.setNat t (place p.2) (min ctrMax (Tab.getD t (place p.2) 0 + p.1))) t

/-- The bit of CNT_SAT that the counters of a statistics command have (R473). -/
def satGroup (op : Nat) : Option Nat :=
  match op with
  | 0xB2 => some 0 | 0xBA => some 1 | 0x29 => some 2 | 0x36 => some 3 | 0x3F => some 4 | 0x53 => some 5 | 0x57 => some 6 | 0x5B => some 7
  | 0x65 => some 8 | 0x76 => some 9 | 0x7C => some 10 | 0x87 => some 11 | 0x96 => some 12 | 0x4D => some 13 | 0x49 => some 14
  | _ => none

/-- The counters that a CLEAR took come back (R119). -/
def giveBack (op : Nat) (w : List Nat) (sat : Bool) (s : State) : State :=
  let s := match satGroup op with | some g => cntSat g sat s | none => s
  match op with
  | 0xB2 => onIk (fun i => { i with stats := addCounts i.stats w }) s
  | 0xBA => onCv (fun i => { i with stats := addCounts i.stats w }) s
  | 0x29 => onLg (fun i => { i with stats := addCounts i.stats w }) s
  | 0x36 => onLg (fun i => { i with prepayStats := addCounts i.prepayStats w }) s
  | 0x3F => onLg (fun i => { i with balStats := addCounts i.balStats w }) s
  | 0x53 => onPlc (fun i => { i with stats := addRows 10 i.stats w }) s
  | 0x57 => onRad (fun i => { i with stats := addRows 12 i.stats w }) s
  | 0x5B => onWir (fun i => { i with stats := addRows 9 i.stats w }) s
  | 0x65 => onTm (fun i => { i with stats := addCounts i.stats w }) s
  | 0x76 => onArch (fun i => { i with stats := addCounts i.stats w }) s
  | 0x7C => onPair (fun i => { i with stats := addCounts i.stats w }) s
  | 0x87 => onKeys (fun i => { i with stats := addCounts i.stats w }) s
  | 0x96 => onFl (fun i => { i with stats := addCounts i.stats w }) s
  | 0x4D => onSch (fun i => { i with stats := addCounts i.stats w }) s
  | 0x4B => onTel (fun i => { i with bgLate := addCounts i.bgLate w }) s
  | 0x49 => onFab (fun f =>
      { f with
        corrected := addTab (fun k => 8 * (k / 5) + k % 5) (w.take 70) f.corrected
        uncorrected := addTab (fun k => 8 * k) (w.drop 70) f.uncorrected }) s
  | _ => s

/-- What an ended command that turns out to have failed takes back (R119). -/
def takeBack (x : Desc) (s : State) : State :=
  match x.undo with
  | .none => s
  | .counts w sat => giveBack (opcodeOf x) w sat s
  | .challenge old => onKeys (fun k => { k with challenge := old }) s

/-- An ended command gets another status than OK, and has no effect (R119). -/
def spoilWith (status : Nat) (x : Desc) (s : State) : State :=
  onDesc x.id (fun x => { x with status := status, detail := 0, result := [], undo := .none }) (takeBack x s)

/-- A statistics command: the counters as 32-bit words, padded to the buffer, then the clear, which is taken back where the buffer's write
fails (R119). -/
def statsCmd (op d len : Nat) (words : State → List Nat) (clear : State → State) (result : State → Bytes) (s : State) : State :=
  hostCmd op d statsChecks (fun x s =>
    let w := words s
    let sat := (satGroup op).any (fun g => bit s.tel.cntSat g)
    let s1 := putOut d (u64 x.bytes 24) (padTo len (w.flatMap (toLE 4))) s
    let s2 := if bit (u8 x.bytes 16) 0 then onDesc d (fun x => { x with undo := .counts w sat }) (clear s1) else s1
    finishOk d (result s) s2) s

end Sys2Proof.Machine
end

