-- ==== Sys2Proof/Machine/Options.lean ====
section
/-! DEFINITION. Two-bank records and the option store (R91 to R95), and the root slot that is current (R409). The CRC and the MAC of a
page are held as what they check to (log 20). -/
namespace Sys2Proof.Config
open Sys2Proof.Machine

/-- What a configuration body gives over the settings held, with a pair configuration where it carries one; or the offset of the first
setting refused. The layout of the body is not given (R463). Log entry 13. -/
opaque configBody : Bytes → Opt → Except Nat (Opt × Option PairCfg)

end Sys2Proof.Config

namespace Sys2Proof.Machine
open Sys2Proof

/-- The current slot: the lowest that is not Dead (R409). -/
def currentSlot (k : Keys) : Option Nat := (k.slots.zipIdx.find? (fun p => !p.1.dead)).map (·.2)

/-- The secret of a Live current slot. -/
def rootSecret (k : Keys) : Option (BitVec 256) :=
  ((currentSlot k).bind (fun n => k.slots[n]?)).bind (fun r => if r.valid && !r.dead then some r.secret else none)

/-- The root that MACs are made under: none while REEF is locked. -/
def macRootNow (s : State) : Option Nat := if s.keys.unlocked then (rootSecret s.keys).map (·.toNat) else none

/-- MAGIC of every two-bank page (R91). -/
def bankMagic : Nat := 0x50424B31

/-- A page whose MAGIC, RECORD_TYPE and CRC are correct (R92); BODY_LEN is that of the body it holds. -/
def Page.checks {α : Type} (t : Nat) (p : Page α) : Bool := p.magic == bankMagic && p.recordType == t && p.whole

/-- A bank's current copy: its last programmed page that checks, unless P3 marked it invalid (R92, R94). The mark takes the bank whole:
whether an older page of the same bank could then stand is not stated (log 95). -/
def Bank.current {α : Type} (t : Nat) (b : Bank α) : Option (Page α) := if b.bad then none else b.pages.find? (Page.checks t)

/-- The 16 KiB of a page (R91): header, BODY, CRC, MAC, and 0xFF after it. BODY's bytes and REEF's key for the record type are the
arguments: the manual lays neither out (log 20). -/
def Page.bytes {α : Type} (body key : Bytes) (p : Page α) : Bytes :=
  let head := toLE 4 p.magic ++ toLE 2 p.recordType ++ toLE 2 p.format ++ toLE 4 p.seq ++ toLE 4 body.length ++ List.replicate 16 0
  let t := head ++ body ++ toLE 4 (crc32 (head ++ body)).toNat
  let t := t ++ (hmac256 key t).take 16
  t ++ List.replicate (16384 - t.length) 0xFF

/-- later(a, b) of R92. -/
def seqLater (a b : Nat) : Bool := inWindow ((a % 2 ^ 32 + 2 ^ 32 - b % 2 ^ 32) % 2 ^ 32)
where
  inWindow (d : Nat) : Bool := 1 ≤ d && d ≤ 2 ^ 31 - 1

/-- The selected bank (R92): true for bank 1; none: no valid bank. -/
def TwoBank.sel {α : Type} (t : TwoBank α) : Option Bool :=
  match t.bank0.current t.type, t.bank1.current t.type with
  | some a, some b => some (seqLater b.seq a.seq)
  | some _, none => some false
  | none, some _ => some true
  | none, none => none

/-- The selected copy. -/
def TwoBank.selected {α : Type} (t : TwoBank α) : Option (Page α) :=
  t.sel.bind (fun b => if b then t.bank1.current t.type else t.bank0.current t.type)

/-- Pages in a block (chapter 20). -/
def bankPages : Nat := 128

/-- A page is programmed into a bank's block, which is erased first if it is full (R93). -/
def Bank.program {α : Type} (b : Bank α) (p : Page α) : Bank α :=
  { pages := if bankPages ≤ b.pages.length then [p] else p :: b.pages, bad := false }

/-- A new page of a record type (R91, R93). FORMAT is not stated: a free value (log 5). -/
def newPage {α : Type} (t seq : Nat) (root : Option Nat) (body : α) : Page α :=
  { magic := bankMagic, recordType := t, format := Config.freeNat t % 65536, seq := seq % 2 ^ 32, whole := true, macRoot := root, body := body }

/-- A write goes to the bank that is not selected, with the selected SEQ + 1; the first goes to bank 0 with SEQ 1 (R93). -/
def TwoBank.write {α : Type} (t : TwoBank α) (root : Option Nat) (body : α) : TwoBank α :=
  match t.sel, t.selected with
  | some false, some p => { t with bank1 := t.bank1.program (newPage t.type (p.seq + 1) root body) }
  | some true, some p => { t with bank0 := t.bank0.program (newPage t.type (p.seq + 1) root body) }
  | _, _ => { t with bank0 := t.bank0.program (newPage t.type 1 root body) }

/-- A setting changes and is kept in the option store (R93). -/
def saveOpt (f : Opt → Opt) (s : State) : State :=
  let o := f s.opt
  { s with opt := o, optStore := s.optStore.write (macRootNow s) o }

end Sys2Proof.Machine
end

