-- ==== Sys2Proof/Machine/Answer.lean ====
section
/-! DEFINITION. Keys as the reading path uses them (R412, R413), downlink frames (R175, R176, R179), and where a downlink frame or an
answer goes: the station's or child's queue, the wired engine, or the forwarding module (R192, R345, R377). -/
namespace Sys2Proof.Machine
open Sys2Proof

/-- The bytes of an ASCII string. -/
def ascii (t : String) : Bytes := t.toList.map (fun c => BitVec.ofNat 8 c.toNat)

/-- A key derived from the root secret (R412); the secret goes in as its 32 bytes, least significant first (log 14). -/
def rootKey (s : State) (info : String) (n : Nat) : Option Bytes :=
  if s.keys.unlocked then (rootSecret s.keys).map (fun r => hkdf384 [] (toLE 32 r.toNat) (ascii info) n) else none

def kekMeter (s : State) : Option Bytes := rootKey s "puzar kek meter" 32

/-- A wrapped key opens to 16 bytes of key for this identity (R413). -/
def unwrapKey (s : State) (w : Bytes) (id : Nat) : Option Bytes :=
  match (kekMeter s).bind (fun k => kwUnwrap k w) with
  | some t => if t.length = 24 && leNat (t.drop 16) == id then some (t.take 16) else none
  | none => none

def wrapKey (s : State) (key : Bytes) (id : Nat) : Option Bytes := (kekMeter s).map (fun k => kwWrap k (key ++ toLE 8 id))

def wrappedOf (s : State) (short : Nat) : Wrapped := Tab.getD s.db.keys short Wrapped.empty

/-- The key CURRENT of a meter: from the cache, else unwrapped (R181). -/
def currentKey (s : State) (short id : Nat) : Option Bytes :=
  if !s.keys.unlocked then none
  else
    match s.keys.cache.find? (fun c => c.1 == short) with
    | some c => some c.2
    | none => ((wrappedOf s short).current).bind (fun w => unwrapKey s w id)

/-- Keys that the cache of REEF holds (R414). -/
def cacheSize : Nat := 8192

/-- A key is used: it becomes the most recent of the cache; a miss is counted (KEY_STATS), and an unwrap that fails. -/
def useKey (short id : Nat) (s : State) : State :=
  if !s.keys.unlocked then s
  else
    let hit := s.keys.cache.any (fun c => c.1 == short)
    match currentKey s short id with
    | some k =>
      let s := onKeys (fun r => { r with cache := ((short, k) :: r.cache.filter (fun c => c.1 != short)).take cacheSize }) s
      if hit then s else statKey 6 s
    | none => if (wrappedOf s short).current.isSome then statKey 7 (statKey 6 s) else s

/-! ### Frames -/

/-- Frame header (R175). -/
def frameHeader (type : Nat) (more : Bool) (id counter len : Nat) : Bytes :=
  toLE 1 (16 * type + 1) ++ toLE 1 (b2n more) ++ toLE 8 id ++ toLE 4 counter ++ toLE 2 len

/-- Downlink key (R176). -/
def downKey (k : Bytes) : Bytes := aesEnc k (List.replicate 15 0 ++ [1])

/-- A sealed frame: header, ciphertext, 12-byte tag (R175, R176). -/
def sealFrame (key h plain : Bytes) : Bytes :=
  let c := gcmSeal key (slice h 2 12) h plain
  h ++ c.1 ++ c.2.take 12

def frameType (f : Bytes) : Nat := u8 f 0 / 16
def frameVersion (f : Bytes) : Nat := u8 f 0 % 16
def frameId (f : Bytes) : Nat := u64 f 2
def frameCounter (f : Bytes) : Nat := u32 f 10
def frameLen (f : Bytes) : Nat := u16 f 14

/-- The plaintext of a sealed frame; none: the tag fails. -/
def openFrame (key f : Bytes) : Option Bytes :=
  gcmOpen key (slice f 2 12) (f.take 16) (slice f 16 (frameLen f)) (slice f (16 + frameLen f) 12)

/-! ### Queues of the links -/

/-- Payload sizes of the physical blocks (R287). -/
def pbPayloads : List Nat := [68, 132, 260, 516]
/-- The sender's choice (R293): the smallest single block that holds the body (log 22). -/
def pbFor (len : Nat) : Nat := (pbPayloads.findIdx? (fun p => len ≤ p)).getD 3
/-- PB_SIZE and PB_COUNT for a station, which supports the sizes of a mask (R293, R300; the sender's choice, log 105): one PB where a size
that it supports holds the body, else as many as needed of its largest. -/
def pbPlan (sizes len : Nat) : Nat × Nat :=
  let ok := (List.range 4).filter (fun k => sizes % 16 == 0 || bit sizes k)
  match ok.find? (fun k => len ≤ pbPayloads.getD k 0) with
  | some k => (k, 1)
  | none =>
    let k := ok.getLast?.getD 3
    (k, (len + pbPayloads.getD k 516 - 1) / pbPayloads.getD k 516)

def stationOf (s : State) (id : Nat) : Option Station := s.plc.stations.find? (fun t => t.id == id)
def onStation (tei : Nat) (f : Station → Station) (s : State) : State :=
  onPlc (fun p => { p with stations := modWhere (fun t => t.tei == tei) f p.stations }) s
def childOf (s : State) (short : Nat) : Option Child := s.rad.children.find? (fun c => c.short == short)
def onChild (short : Nat) (f : Child → Child) (s : State) : State :=
  onRad (fun r => { r with children := modWhere (fun c => c.short == short) f r.children }) s

/-- A body waits to be sent to a station (R308). -/
def queuePlc (id : Nat) (body : Bytes) (toneMap : Bool) (s : State) : State :=
  match stationOf s id with
  | none => s
  | some t =>
    onStation t.tei (fun t =>
      { t with
        txSeq := (t.txSeq + 1) % 256
        queue := t.queue ++ [{ seq := t.txSeq, body := body, pbSize := (pbPlan t.sizes body.length).1, pbCount := (pbPlan t.sizes body.length).2, done := 0, rounds := 0,
                               toneMap := toneMap, waiting := false }] }) s

/-- A frame goes to a meter by a link: power-line or radio. The wired engine takes only answers; no rule carries a command to a meter
behind Urrauf (log 23). -/
def queueFrame (link short id : Nat) (frame : Bytes) (s : State) : State :=
  if link < 3 then queuePlc id frame false s
  else if link < 5 then onChild short (fun c => { c with queue := c.queue ++ [frame] }) s
  else if link = 15 then onTbl (fun t => { t with held := t.held ++ [(short, frame)] }) s
  else s

/-- Frames that waited for a route go to the link just learned (R150). -/
def flushHeld (link short id : Nat) (s : State) : State :=
  if link < 5 then
    let mine := (s.tbl.held.filter (fun p => p.1 == short)).map (·.2)
    mine.foldl (fun s f => queueFrame link short id f s) (onTbl (fun t => { t with held := t.held.filter (fun p => p.1 != short) }) s)
  else s

/-- The TEI of a meter whose entry became stale is released; its frames stay queued (R150, R300). -/
def releaseTei (short id : Nat) (s : State) : State :=
  match stationOf s id with
  | none => s
  | some t =>
    let frames := (t.queue.filter (fun x => !x.toneMap)).map (fun x => (short, x.body))
    onTbl (fun b => { b with held := b.held ++ frames })
      (onPlc (fun p => { p with stations := p.stations.filter (fun x => x.tei != t.tei) }) s)

/-- A frame waits for the meter on its link (CMD_PENDING, R178). -/
def framesWait (s : State) (link short id : Nat) : Bool :=
  if link < 3 then ((stationOf s id).map (fun t => !t.queue.isEmpty)).getD false
  else if link < 5 then ((childOf s short).map (fun c => !c.queue.isEmpty)).getD false
  else false

/-- The place of a child whose entry became stale is released; its frames stay queued (R150, R331). -/
def releaseChild (short : Nat) (s : State) : State :=
  match childOf s short with
  | none => s
  | some c =>
    onTbl (fun b => { b with held := b.held ++ c.queue.map (fun f => (short, f)) })
      (onRad (fun r => { r with children := r.children.filter (fun x => x.short != short) }) s)

/-- The next downlink frame of a meter (R179, R183): none without a key, or when D has reached its end; D then sets REKEY_REQUIRED. -/
def downFrame (short type : Nat) (plain : Bytes) (s : State) : Option Bytes × State :=
  match entryOf s short with
  | none => (none, s)
  | some e =>
    let m := mstateOf s short
    match currentKey s short e.id with
    | none => (none, s)
    | some k =>
      if ctrMax ≤ m.downCounter then (none, s)
      else
        let dc := m.downCounter + 1
        let m := { m with downCounter := dc, rekey := m.rekey || dc == ctrMax }
        (some (sealFrame (downKey k) (frameHeader type false e.id dc plain.length) plain),
          onDb (fun db => { db with mstate := Tab.set db.mstate short m }) (useKey short e.id s))

/-- COMMAND plaintext (R178). -/
def commandPlain (cmd seq : Nat) (args : Bytes) : Bytes := toLE 1 cmd ++ [0] ++ toLE 2 seq ++ args

/-- A COMMAND is sealed and queued on the meter's link. -/
def sendCommand (short cmd seq : Nat) (args : Bytes) (s : State) : State :=
  match entryOf s short with
  | none => s
  | some e =>
    if e.link < 5 || e.link = 15 then
      match downFrame short 9 (commandPlain cmd seq args) s with
      | (some f, s) => queueFrame e.link short e.id f s
      | (none, s) => s
    else s

/-- ARGS of KEY_RELAY (R420). -/
def relayArgs (w : Wrapped) : Bytes := padTo 24 w.blob ++ toLE 1 (b2n w.pendingReset)

/-- KEY_RELAY is offered at a downlink opportunity until PENDING is promoted (R420); its CMD_SEQ is not stated: a free number (log 5). -/
def offerRelay (short : Nat) (s : State) : State :=
  match entryOf s short with
  | none => s
  | some e =>
    let w := wrappedOf s short
    if w.relayQueued && w.pending.isSome && !framesWait s e.link short e.id then
      statKey 5 (sendCommand short 0x50 (Config.freeNat s.free % 65536) (relayArgs w) (useFree s))
    else s

/-! ### Answers -/

/-- ANSWER plaintext (R178). -/
def answerPlain (status : Nat) (pending : Bool) (counter last : Nat) : Bytes :=
  toLE 1 status ++ toLE 1 (b2n pending) ++ toLE 4 counter ++ toLE 4 last ++ [0, 0]

def pollOf (s : State) (port short : Nat) : Option (Nat × PollEntry) := s.db.polls.find? (fun p => p.1 / 256 == port && p.2.short == short)

/-- The wired engine takes an answer (R345). -/
def wiredAnswer (port short status last : Nat) (s : State) : State :=
  match pollOf s port short with
  | none => s
  | some (k, _) =>
    onPoll k (fun p =>
      if status < 3 then { p with held := none }
      else if status = 3 then { p with held := none, counter := min ctrMax (last + 1) }
      else { p with held := none, suspended := true, lastResult := 6 }) s

/-- DURABLE_ACK of a forwarded frame (R377); the frame's outcome is settled. -/
def settleForward (id counter disp : Nat) (answer : Bytes) (s : State) : State :=
  match s.arch.owed.find? (fun o => o.1 == id && o.2.1 == counter) with
  | none => s
  | some o =>
    let s := onArch (fun a => { a with owed := a.owed.erase o }) s
    sendAcked o.2.2.1 0x11 .plain (toBE 4 o.2.2.2 ++ toBE 1 disp ++ [0] ++ toBE 2 answer.length ++ answer) s

/-- The ANSWER to a frame leaves on the link of that frame (R192): status, the counter answered, the link and its route. -/
def answerTo (short status counter link : Nat) (s : State) : State :=
  let m := mstateOf s short
  let id := ((entryOf s short).map (·.id)).getD 0
  if link == 5 || link == 6 then wiredAnswer (link - 5) short status m.lastCounter s
  else
    let s := if link == 7 then s else offerRelay short s
    match downFrame short 8 (answerPlain status (framesWait s link short id) counter m.lastCounter) s with
    | (none, s) => s
    | (some f, s) => if link == 7 then settleForward id counter 0 f s else queueFrame link short id f s

/-- A frame that came by Urrauf is dropped without an answer (R377). -/
def dropForwarded (link id counter : Nat) (s : State) : State := if link == 7 then settleForward id counter 1 [] s else s

end Sys2Proof.Machine
end

