-- ==== Sys2Proof/Machine/Campaign.lean ====
section
/-! DEFINITION. Campaigns to meters (R468 to R470): the multicast blocks of a round, the commands to a target, its answers, and the rows
CAMPAIGN_START to CAMPAIGN_CANCEL. -/
namespace Sys2Proof.Machine
open Sys2Proof

/-- Bytes of a block, and blocks in a QUERY (R469). -/
def blockBytes : Nat := 192
def queryBlocks : Nat := 2048

/-! ### The image of a campaign -/

def stagedOf (s : State) (entry : Nat) : Option ImgSlot := Tab.get s.img.staging entry
def imgType (h : Bytes) : Nat := u8 h 4
def imgLength (h : Bytes) : Nat := u32 h 32
/-- Blocks of a body. -/
def blocksOf (len : Nat) : Nat := (len + blockBytes - 1) / blockBytes

def campImage (s : State) (c : Campaign) : ImgSlot := (stagedOf s c.entry).getD { header := [], body := [], complete := false }
def campBlocks (s : State) (c : Campaign) : Nat := blocksOf (imgLength (campImage s c).header)
/-- It carries a tariff and price table (codes 0x10 and 0x11), else an image. -/
def campTable (s : State) (c : Campaign) : Bool := imgType (campImage s c).header == 9

def campOf (s : State) (id : Nat) : Option Campaign := s.img.campaigns.find? (fun c => c.id == id)
def onCamp (id : Nat) (f : Campaign → Campaign) (s : State) : State :=
  onImg (fun i => { i with campaigns := modWhere (fun c => c.id == id) f i.campaigns }) s
def onTarget (id short : Nat) (f : Target → Target) (s : State) : State :=
  onCamp id (fun c => { c with targets := modWhere (fun t => t.short == short) f c.targets }) s

/-! ### Multicast blocks (R470) -/

/-- ARGS of BLOCK. -/
def blockArgs (s : State) (c : Campaign) (k : Nat) : Bytes :=
  toLE 2 c.id ++ toLE 2 k ++ padTo blockBytes (((campImage s c).body.drop (blockBytes * k)).take blockBytes)

/-- METER_ID of a multicast frame (R12). -/
def allMeters : Nat := 2 ^ 64 - 1

/-- The frame of a multicast block, 228 bytes: sealed under CAMPAIGN_KEY as R176 seals a downlink frame. -/
def blockFrame (s : State) (c : Campaign) (k : Nat) : Bytes :=
  let plain := commandPlain 0x31 0 (blockArgs s c k)
  sealFrame (downKey c.key) (frameHeader 9 false allMeters ((k + 65536 * c.round) % 2 ^ 32) plain.length) plain

/-- A round's blocks may go out from START on, while the campaign runs on the token holder (R468, R469). -/
def campSends (s : State) (c : Campaign) : Bool := !c.finished && c.start ≤ netTime s && (campImage s c).complete

/-- The blocks that a beacon period carries go to the queue of broadcasts (R470). -/
def offerBlocks (c : Campaign) (s : State) : State :=
  if campSends s c then
    let now := c.toPlc.take c.burst
    onCamp c.id (fun c => { c with toPlc := c.toPlc.drop c.burst })
      (onPlc (fun p => { p with bcast := p.bcast ++ now.map (fun k => (c.media % 8, 1, blockFrame s c k)) }) s)
  else s

/-- At the beacon period of the lowest phase that a campaign names. -/
def plcBlocks (ph : Nat) (s : State) : State :=
  (s.img.campaigns.filter (fun c => ((List.range 3).find? (bit c.media)) == some ph)).foldl (fun s c => offerBlocks c s) s

/-- The next block that a radio is to send. -/
def radioBlock (s : State) (r : Nat) : Option (Campaign × Nat) :=
  (s.img.campaigns.filter (campSends s)).findSome? (fun c => ((if r = 0 then c.toA else c.toB).head?).map (fun k => (c, k)))

/-- The block has been sent by a radio. -/
def blockSent (r id : Nat) (s : State) : State :=
  onCamp id (fun c => if r = 0 then { c with toA := c.toA.drop 1 } else { c with toB := c.toB.drop 1 }) s

/-! ### Commands to targets (R469) -/

/-- A command of a campaign goes to one target under its own key. -/
def campCommand (id short cmd : Nat) (args : Bytes) (s : State) : State :=
  let s := onCamp id (fun c => { c with cmdSeq := (c.cmdSeq + 1) % 65536 }) s
  sendCommand short cmd (((campOf s id).map (·.cmdSeq)).getD 0) args s

/-- ARGS of ANNOUNCE. -/
def announceArgs (s : State) (c : Campaign) : Bytes :=
  let h := (campImage s c).header
  toLE 2 c.id ++ toLE 2 (campBlocks s c - 1) ++ toLE 4 (imgLength h) ++ padTo 16 c.key ++ slice h 40 48 ++ slice h 20 4 ++ slice h 6 2 ++
    toLE 6 c.start

def askBlocks (id short first : Nat) (s : State) : State :=
  campCommand id short 0x32 (toLE 2 id ++ toLE 2 first) (onTarget id short (fun t => { t with asked := some first, heard := false }) s)

/-- Targets that take part and are still to be completed. -/
def openTargets (c : Campaign) : List Target := c.targets.filter (fun t => t.state == 1 && t.answered)

/-- A round begins: these blocks go out on each medium named. -/
def startRound (round : Nat) (blocks : List Nat) (c : Campaign) : Campaign :=
  { c with
    round := round
    toPlc := if c.media % 8 = 0 then [] else blocks
    toA := if bit c.media 3 then blocks else []
    toB := if bit c.media 4 then blocks else []
    targets := c.targets.map (fun t => if t.state == 1 then { t with asked := none, heard := false } else t) }

/-- The multicast of the round is over: every block has left. -/
def roundSent (s : State) (c : Campaign) : Bool := c.toPlc.isEmpty && c.toA.isEmpty && c.toB.isEmpty && s.plc.bcast.all (fun x => x.2.1 != 1)

/-- Blocks that some target misses, in rising order. -/
def unionMissing (s : State) (c : Campaign) : List Nat :=
  (List.range (campBlocks s c)).filter (fun k => (openTargets c).any (fun t => t.missing.contains k))

/-- A target gets the blocks it still misses as unicast commands, and is asked again (R469 step 5). -/
def unicastBlocks (c : Campaign) (t : Target) (s : State) : State :=
  let s := t.missing.foldl (fun s k => campCommand c.id t.short 0x31 (blockArgs s c k) s) s
  onTarget c.id t.short (fun t => { t with asked := none, heard := false }) s

/-- APPLY goes to each complete target (R469 step 6). -/
def sendApply (c : Campaign) (s : State) : State :=
  let at_ := c.lastDone + c.delay * 32768
  let s := onCamp c.id (fun c => { c with applyAt := some at_, finished := c.targets.all (fun t => t.state != 2) }) s
  (c.targets.filter (fun t => t.state == 2)).foldl (fun s t =>
    campCommand c.id t.short (if campTable s c then 0x11 else 0x33) (toLE 2 c.id ++ toLE 6 at_) s) s

/-- CAMPAIGN_QUERY_ROUND: after a round the targets are queried; once all have answered, the union of what they miss goes out again,
or by unicast after the last round; once every target is complete or out, APPLY is sent. -/
def execCampaignQueryRound (campaign : Nat) (s : State) : Out :=
  .next <|
    match campOf s campaign with
    | none => s
    | some c =>
      if !isUp s 1 || c.finished || c.applyAt.isSome || !campSends s c || !roundSent s c then s
      else
        let ask := (openTargets c).filter (fun t => !t.heard && t.asked.isNone)
        if !ask.isEmpty then ask.foldl (fun s t => askBlocks c.id t.short 0 s) s
        else if (openTargets c).any (fun t => !t.heard) then s
        else
          let miss := unionMissing s c
          if !miss.isEmpty then
            if c.round < c.rounds then onCamp c.id (startRound (c.round + 1) miss) s
            else (openTargets c).foldl (fun s t => unicastBlocks c t s) s
          else if c.targets.any (fun t => t.state == 1) then s
          else sendApply c s

/-! ### What a meter answers -/

/-- The blocks of a QUERY's answer that are missing. -/
def bitmapMissing (first blocks : Nat) (data : Bytes) : List Nat :=
  ((List.range queryBlocks).filter (fun k => bit (u8 data (6 + k / 8)) (k % 8) && first + k < blocks)).map (first + ·)

/-- The answer to ANNOUNCE. -/
def announceAnswer (result : Nat) (t : Target) : Target :=
  if result = 0 then { t with result := result, answered := true } else { t with result := result, state := 4 }

/-- The answer to QUERY: the blocks of the range, then the next range, or the target's count is known. -/
def queryAnswer (c : Campaign) (t : Target) (first : Nat) (plain : Bytes) (s : State) : State :=
  let blocks := campBlocks s c
  let miss := t.missing.filter (fun k => k < first || first + queryBlocks ≤ k) ++ bitmapMissing first blocks plain
  let last := blocks ≤ first + queryBlocks
  let done := last && miss.isEmpty
  let s := onTarget c.id t.short (fun t =>
    { t with result := u8 plain 1, missing := miss, asked := none, heard := last, state := if done then 2 else t.state }) s
  let s := if done then onCamp c.id (fun c => { c with lastDone := netTime s }) s else s
  if last then s else askBlocks c.id t.short (first + queryBlocks) s

/-- The answer to APPLY; the campaign ends with the last. -/
def applyAnswer (c : Campaign) (t : Target) (result : Nat) (s : State) : State :=
  onCamp c.id (fun c => { c with finished := c.targets.all (fun t => t.state != 1 && t.state != 2) })
    (onTarget c.id t.short (fun t => { t with result := result, state := if result = 0 then 3 else 4 }) s)

/-- A CMD_RESULT of the codes 0x10 to 0x1F and 0x30 to 0x3F goes to the campaigns that hold the meter as a target (R178). -/
def campaignResult (short : Nat) (plain : Bytes) (s : State) : State :=
  let cmd := u8 plain 0
  (s.img.campaigns.filter (fun c => !c.finished)).foldl (fun s c =>
    match c.targets.find? (fun t => t.short == short) with
    | none => s
    | some t =>
      if cmd = (if campTable s c then 0x10 else 0x30) && t.state == 1 && !t.answered then onTarget c.id short (announceAnswer (u8 plain 1)) s
      else if cmd = 0x32 && t.state == 1 && t.answered then
        match t.asked with
        | some first => if u8 plain 1 = 0 then queryAnswer c t first plain s else onTarget c.id short (fun t => { t with result := u8 plain 1 }) s
        | none => s
      else if cmd = (if campTable s c then 0x11 else 0x33) && t.state == 2 && c.applyAt.isSome then applyAnswer c t (u8 plain 1) s
      else s) s

/-! ### The commands -/

/-- A listed meter is fit for the campaign (R468). -/
def fitTarget (s : State) (media hw short : Nat) : Bool :=
  match entryOf s short with
  | none => false
  | some e =>
    let known := if e.link < 3 then (stationOf s e.id).bind (·.hw) else (childOf s short).bind (·.hw)
    !e.retired && e.link < 5 && bit media e.link && known.all (· == hw)

/-- The targets listed in the host's buffer. -/
def targetsOf (s : State) (media hw : Nat) (buf : Bytes) (count : Nat) : List Target :=
  ((List.range count).map (fun k => u32 buf (4 * k))).eraseDups.map (fun n =>
    { short := n, state := if fitTarget s media hw n then 1 else 0, result := 0, answered := false, missing := [], asked := none, heard := false })

def unlessZero (v d : Nat) : Nat := if v = 0 then d else v

/-- CAMPAIGN_START (R468, R469). START and the first CMD_SEQ are the model's (log 41, log 8). -/
def execCampaignStart (d : Nat) (s : State) : Out :=
  .next (hostCmd 0xA6 d (fun b => [(u8 b 16 < 64, 16), (u8 b 17 % 32 != 0, 17), (u8 b 18 ≤ 15, 18), (u8 b 19 ≤ 64, 19),
      addrCheck b 24 1, (inRange (u32 b 32) 1 3072, 32)]) (fun x s =>
    let b := x.bytes
    if isStandby s then notAllowed d s
    else
      match stagedOf s (u8 b 16) with
      | none => finish d 0x2A 0 [] s
      | some im =>
        if !im.complete then finish d 0x2A 0 [] s
        else
          let ts := targetsOf s (u8 b 17 % 32) (u16 im.header 6) (x.input.getD []) (u32 b 32)
          let n := (ts.filter (fun t => t.state == 1)).length
          if n = 0 then finish d 0x2F 0 [] s
          else
            let c : Campaign :=
              { id := s.img.nextCampaign % 65536, entry := u8 b 16, media := u8 b 17 % 32, rounds := unlessZero (u8 b 18) 5,
                burst := unlessZero (u8 b 19) 16, delay := u32 b 20, key := toLE 16 (Config.trng s.free).toNat
                start := (netTime s + Config.freeNat (s.free + 1)) % 2 ^ 48, round := 1, toPlc := [], toA := [], toB := [], targets := ts,
                cmdSeq := 0, lastDone := 0, applyAt := none, finished := false }
            let s := useFree (useFree (onImg (fun i => { i with campaigns := i.campaigns ++ [c], nextCampaign := i.nextCampaign + 1 }) s))
            let s := onCamp c.id (startRound 1 (List.range (campBlocks s c))) s
            let s := (ts.filter (fun t => t.state == 1)).foldl (fun s t =>
              campCommand c.id t.short (if campTable s c then 0x10 else 0x30) (announceArgs s c) s) s
            finishOk d (toLE 2 c.id ++ toLE 4 n ++ toLE 4 (ts.length - n)) s) s)

/-- An entry of CAMPAIGN_STATUS. -/
def statusEntry (t : Target) : Bytes := toLE 4 t.short ++ toLE 1 t.state ++ toLE 1 t.result ++ toLE 2 (min 0xFFFF t.missing.length)

/-- CAMPAIGN_STATUS. -/
def execCampaignStatus (d : Nat) (s : State) : Out :=
  .next (hostCmd 0xA7 d (fun b => logChecks b 64) (fun x s =>
    match campOf s (u16 x.bytes 16) with
    | none => finish d 0x2E 0 [] s
    | some c =>
      let es := c.targets.take (u32 x.bytes 32 / 8)
      finishOk d (toLE 4 es.length ++ toLE 1 c.round) (putOut d (u64 x.bytes 24) (es.flatMap statusEntry) s)) s)

/-- CAMPAIGN_CANCEL: the campaign ends and is forgotten. -/
def execCampaignCancel (d : Nat) (s : State) : Out :=
  .next (hostCmd 0xA8 d (fun _ => []) (fun x s =>
    match campOf s (u16 x.bytes 16) with
    | none => finish d 0x2E 0 [] s
    | some c => finishOk d [] (onImg (fun i => { i with campaigns := i.campaigns.filter (fun y => y.id != c.id) }) s)) s)

end Sys2Proof.Machine
end

