-- ==== Sys2Proof/Machine/Memory.lean ====
section
/-! DEFINITION. The two addressed memories of the block, DRAM and the host part of the lagoon: lists of (address, byte) in one canonical
form, and their reads and writes. An address that is not listed reads 0 (log 9). -/
namespace Sys2Proof.Machine
open Sys2Proof

/-- The byte at an address. -/
def memRead (m : List Host.Cell) (a : Nat) : Byte := ((m.find? (fun c => c.1 == a)).map (·.2)).getD 0

/-- Writes a byte, keeping addresses strictly rising and no entry equal to what an unlisted address reads as. -/
def memWrite : List Host.Cell → Nat → Byte → List Host.Cell
  | [], a, b => if b = 0 then [] else [(a, b)]
  | (k, v) :: r, a, b =>
    if a < k then (if b = 0 then (k, v) :: r else (a, b) :: (k, v) :: r)
    else if a = k then (if b = 0 then r else (a, b) :: r)
    else (k, v) :: memWrite r a b

/-- Writes a string from an address on. -/
def memWriteAll (m : List Host.Cell) (a : Nat) : Bytes → List Host.Cell
  | [] => m
  | b :: r => memWriteAll (memWrite m a b) (a + 1) r

/-- n bytes from an address on. -/
def memReadAll (m : List Host.Cell) (a n : Nat) : Bytes := (List.range n).map (fun i => memRead m (a + i))

/-- The canonical form: addresses strictly rising, no entry that reads as an unlisted address. -/
def memWf : List Host.Cell → Bool
  | [] => true
  | [(_, v)] => v != 0
  | (k, v) :: (k2, v2) :: r => v != 0 && k < k2 && memWf ((k2, v2) :: r)

/-- Bytes of DRAM (R21, R37): 2 GiB. -/
def dramBytes : Nat := 2 ^ 31

/-- A 16-byte unit, byte 0 in bits [7:0] (R7, R21). -/
def unitRead (m : List Host.Cell) (a : Nat) : BitVec 128 := BitVec.ofNat 128 (leNat (memReadAll m a 16))
def unitWrite (m : List Host.Cell) (a : Nat) (w : BitVec 128) : List Host.Cell := memWriteAll m a (toLE 16 w.toNat)

end Sys2Proof.Machine
end

