-- ==== Sys2Proof/Machine/Sched.lean ====
section
/-! DEFINITION. Work scheduling on the atoll (chapter 07): pools, flow locks, the choice of the next item, pre-emption, ends of items,
dependence counters, the background budget and draining. -/
namespace Sys2Proof.Machine
open Sys2Proof

def itemAt (s : State) (slot : Nat) : Option Item := s.sch.items.find? (fun i => i.slot == slot)
def onItem (slot : Nat) (f : Item → Item) (s : State) : State := onSch (fun c => { c with items := modWhere (fun i => i.slot == slot) f c.items }) s
def dropItem (slot : Nat) (s : State) : State := onSch (fun c => { c with items := c.items.filter (fun i => i.slot != slot) }) s

/-! ### Pools (R161) -/

/-- First slot and number of slots of the pool of an item: reading items, the shared pool, class U. Which slot numbers a pool holds is
the model's own (log 19). -/
def poolOf (reading : Bool) (cls : Nat) : Nat × Nat :=
  if cls = 2 then (64512, 1024) else if reading then (0, 60416) else (60416, 4096)

/-- The lowest slot of a pool that is free. -/
def freeSlot (s : State) (pool : Nat × Nat) : Option Nat :=
  let used := s.sch.items.map (·.slot)
  ((List.range (used.length + 1)).map (pool.1 + ·)).find? (fun k => k < pool.1 + pool.2 && !used.contains k)

/-! ### Flow locks (R157) -/

def lockEntry (s : State) (i : Item) : Nat := Config.flowHash s.sch.flowDraw i.space i.key % 8192
def holderOf (s : State) (i : Item) : Option Item := (Tab.get s.sch.locks (lockEntry s i)).bind (itemAt s)
def sameFlow (a b : Item) : Bool := a.space == b.space && a.key == b.key

/-- A ready item that needs its lock and does not hold it. -/
def wantsLock (i : Item) : Bool := i.state == .ready && !i.noFlow && !i.released && !i.locked

/-- The item at the head of an entry's queue: the oldest that waits on it. -/
def lockHead (s : State) (e : Nat) : Option Item := s.sch.items.find? (fun j => wantsLock j && lockEntry s j == e)

/-- The item may run as far as its lock goes: it needs none, it holds it, or its entry is free and it is the oldest that waits on it. -/
def lockReady (s : State) (i : Item) : Bool :=
  i.noFlow || i.released || i.locked ||
    ((Tab.get s.sch.locks (lockEntry s i)).isNone && (lockHead s (lockEntry s i)).any (fun j => j.slot == i.slot))

/-- The item takes its entry: when it enters a slot or a core, or when the holder before it releases it. -/
def takeLock (i : Item) (s : State) : State :=
  if i.noFlow || i.released || i.locked then s
  else onItem i.slot (fun j => { j with locked := true }) (onSch (fun c => { c with locks := Tab.set c.locks (lockEntry s i) i.slot }) s)

/-- The head of an entry's queue takes the entry (R157 step 5). -/
def passLock (e : Nat) (s : State) : State :=
  match lockHead s e with
  | some j => takeLock j s
  | none => s

/-- The holder releases its entry, and the item at the head of the queue takes it (R157). -/
def releaseLock (slot : Nat) (s : State) : State :=
  match itemAt s slot with
  | none => s
  | some i =>
    if i.locked then
      passLock (lockEntry s i)
        (onItem slot (fun j => { j with locked := false, released := true }) (onSch (fun c => { c with locks := Tab.del c.locks (lockEntry s i) }) s))
    else s

/-! ### Priority (R154, R155, R159) -/

def effPrio (i : Item) : Nat := min 7 (i.prio + i.aged)
def deadlineOf (i : Item) : Nat := i.made + i.deadline * 10000

/-- Class U, or the holder of an entry that a ready class U item waits for. -/
def actsU (s : State) (i : Item) : Bool :=
  i.cls == 2 || (i.locked && s.sch.items.any (fun u => u.cls == 2 && wantsLock u && lockEntry s u == lockEntry s i && u.slot != i.slot))

/-- a goes before b, an earlier arrival, among items that act as class U: the earliest deadline first (R155). -/
def urgentBefore (a b : Item) : Bool :=
  if (a.deadline == 0) != (b.deadline == 0) then a.deadline != 0
  else a.deadline != 0 && deadlineOf a < deadlineOf b

/-- a goes before b, an earlier arrival of its class: the higher effective priority, then the one that came back from an island later
(R155, R157). -/
def goesBefore (a b : Item) : Bool := if effPrio a != effPrio b then effPrio b < effPrio a else b.front < a.front

/-- Core time that class B may use in the window, ns (R160). -/
def budgetNs (s : State) : Nat := (s.sch.cores.filter (·.powered)).length * (100 * msNs) * s.sch.set.budget / 100

/-- Class B is within its budget (R160). -/
def inBudget (s : State) : Bool := s.sch.used < budgetNs s

/-- An item that has run before and came back from an island: its return is no start (R160). -/
def hasStarted (i : Item) : Bool := 0 < i.front

/-- A class B item may start: below 130 degrees, and within the budget unless it borrows a core that would be idle (R72, R160). What has
started, and what acts as class U for the sake of its lock (R159), is not held by the budget. -/
def bMayStart (s : State) (borrow : Bool) (i : Item) : Bool :=
  i.cls != 1 || hasStarted i || (!s.pw.stopB && (inBudget s || borrow || actsU s i))

/-- The best of a list of items in the order of their arrival. -/
def bestBy (before : Item → Item → Bool) (l : List Item) : Option Item :=
  l.foldl (fun (best : Option Item) i => match best with
    | none => some i
    | some b => if before i b then some i else best) none

/-- Ready items whose lock lets them run. -/
def eligibleItems (s : State) : List Item := s.sch.items.filter (fun i => i.state == .ready && lockReady s i)

/-- The next item that acts as class U (R155, R159); one that holds its lock in a slot is taken from there. -/
def bestUrgent (s : State) : Option Item :=
  bestBy urgentBefore (s.sch.items.filter (fun i =>
    actsU s i && bMayStart s false i && (match i.state with | .ready => lockReady s i | .slotted _ => true | _ => false)))

/-- The best of classes S and B: the first of each class, then by effective priority, then by ARRIVAL (R155). -/
def bestOf (s : State) (l : List Item) : Option Item :=
  let tops := [bestBy goesBefore (l.filter (·.cls == 0)), bestBy goesBefore (l.filter (·.cls == 1))].filterMap id
  bestBy (fun a b => effPrio b < effPrio a) (s.sch.items.filter (fun i => tops.any (fun x => x.slot == i.slot)))

/-- The next item of classes S and B for a core or a slot; class B within its budget. -/
def nextItem (s : State) : Option Item := bestOf s ((eligibleItems s).filter (fun i => i.cls != 2 && bMayStart s false i))

/-- The class B item that borrows a core that would be idle (R160). -/
def borrower (s : State) : Option Item :=
  if s.sch.set.borrow then bestOf s ((eligibleItems s).filter (fun i => i.cls == 1 && bMayStart s true i)) else none

/-- A class B item that only the budget holds. -/
def heldByBudget (s : State) : Option Item :=
  if s.pw.stopB then none
  else bestOf s ((eligibleItems s).filter (fun i => i.cls == 1 && !i.deferred && !bMayStart s false i))

/-! ### Cores -/

def runningOn (s : State) (c : Nat) : Option Item := s.sch.items.find? (fun i => i.state == .running c)
def slottedOn (s : State) (c : Nat) : List Item := s.sch.items.filter (fun i => i.state == .slotted c)
/-- A core takes items: it is powered, and neither drains nor is drained (R163, R164). -/
def coreServes (k : Core) : Bool := k.powered && !k.draining && !k.drained
def idleCores (s : State) : List Nat :=
  (s.sch.cores.zipIdx.filter (fun p => coreServes p.1 && (runningOn s p.2).isNone)).map (·.2)
/-- Cores with a local slot free. -/
def slotCores (s : State) : List Nat :=
  (s.sch.cores.zipIdx.filter (fun p => coreServes p.1 && (slottedOn s p.2).length < 2)).map (·.2)

/-- Image of a core, and the image under which items are made: that of the group reloaded last, the old one until an update has ended
(R163). -/
def coreImage (s : State) (c : Nat) : Nat := (s.sch.cores.getD c Core.reset).image
def itemImage (s : State) : Nat := coreImage s 23

/-- An item on a core of another image is run again from its start (R163). -/
def underImage (v : Nat) (i : Item) : Item :=
  if i.image = v then i else { i with image := v, step := if i.reading.isSome && i.step != .posted then .lookup else i.step }

/-- A share of the core time of the last window, per cent. -/
def sharePercent (s : State) (t : Nat) : Nat :=
  let all := (s.sch.cores.filter (·.powered)).length * (100 * msNs)
  if all = 0 then 0 else min 255 (t * 100 / all)

/-- The item runs on a core from now on. -/
def runOn (i : Item) (c : Nat) (s : State) : State :=
  onItem i.slot (fun j => { underImage (coreImage s c) j with state := .running c, since := s.now, charged := s.now }) (takeLock i s)

/-- Core time used by an item's run is charged to its class (R160, R167). -/
def chargeRun (i : Item) (s : State) : State :=
  match i.state with
  | .running _ =>
    let t := s.now - i.charged
    onItem i.slot (fun j => { j with charged := s.now }) (onSch (fun c =>
      { c with
        used := if i.cls = 1 then c.used + t else c.used
        busyNow := modAt c.busyNow (if i.cls = 2 then 0 else if i.cls = 1 then 1 else 2) (· + t) }) s)
  | _ => s

/-- An item leaves its core: an item pre-empted there resumes (R158). -/
def leaveCore (i : Item) (s : State) : State :=
  match i.state with
  | .running c =>
    let s := chargeRun i s
    onSch (fun k => { k with items := modWhere (fun j => j.state == .preempted c) (fun j =>
      { j with state := .running c, since := s.now, charged := s.now }) k.items }) s
  | _ => s

/-- The core that a ready class U item takes: an idle one, or the one that runs the least class B, else class S, item (R158). A core
that runs a class U item or the holder of a lock that one waits for is not pre-empted (R158, R159). -/
def coreForU (s : State) : Option (Nat × Bool) :=
  match idleCores s with
  | c :: _ => some (c, false)
  | [] =>
    let running := (s.sch.cores.zipIdx.filter (fun p => coreServes p.1)).filterMap (fun p => (runningOn s p.2).map (fun i => (p.2, i)))
    let least := fun cls => (running.filter (fun p => p.2.cls == cls && !actsU s p.2)).foldl (fun (b : Option (Nat × Item)) p => match b with
      | none => some p
      | some q => if effPrio p.2 < effPrio q.2 then some p else b) none
    match least 1, least 0 with
    | some p, _ => some (p.1, true)
    | none, some p => some (p.1, true)
    | none, none => none

/-- An item takes a core as class U does: what runs there moves to the shadow bank (R158). -/
def seizeCore (i : Item) (c : Nat) (s : State) : State :=
  let s := match runningOn s c with
    | some v => statSch 2 (onItem v.slot (fun j => { j with state := .preempted c }) (chargeRun v s))
    | none => s
  runOn i c s

/-- What an item does on its core is done as it is dispatched: a reading's step, a background item's work. -/
def hasWork (i : Item) : Bool := i.reading.isSome || (match i.task with | .background .. | .kat .. => true | _ => false)

/-- A ready class U item pre-empts at once, where its lock lets it run (R158, R159). An item with work of its own waits for its dispatch. -/
def preempt (s : State) : State :=
  match bestUrgent s with
  | none => s
  | some i => if hasWork i then s else match coreForU s with | some (c, _) => seizeCore i c s | none => s

/-! ### Creation and end (R151, R156, R161) -/

/-- Dependence counters (R156). -/
def depCounters : Nat := 16384
/-- The lowest counter that is free: which one a creator gets is not stated (DESIGN CHOICE, log 19). -/
def freeCounter (s : State) : Option Nat := (List.range (min depCounters (s.sch.deps.length + 1))).find? (fun k => (Tab.get s.sch.deps k).isNone)

/-- READING_SHARE_FULL counts when a creation fills the pool of reading items (R161, R167). -/
def noteShare (i : Item) (s : State) : State :=
  if i.reading.isSome && (freeSlot s (poolOf true 0)).isNone then statSch 5 s else s

/-- A new item in its slot. -/
def insertItem (k : Nat) (i : Item) (s : State) : State :=
  let i := { i with
    slot := k, arrival := s.sch.arrival % 2 ^ 32, made := s.now, since := s.now, image := itemImage s, data := Config.freeNat s.free % 2 ^ 25 * 64 }
  let s := useFree (onSch (fun c => { c with items := c.items ++ [i], arrival := c.arrival + 1 }) s)
  let s := match holderOf s i with
    | some h => if !i.noFlow && !sameFlow h i then statSch 1 s else s
    | none => s
  preempt (noteShare i s)

/-- The item of a creator, where ATOLL runs, its pool has a slot and, with a dependence count, a counter is free (R156, R161). -/
def placeItem (w : ItemWait) (s : State) : Option State :=
  if !isUp s 9 then none
  else
    match freeSlot s (poolOf w.item.reading.isSome w.item.cls) with
    | none => none
    | some k =>
      if w.count = 0 then some (insertItem k w.item s)
      else
        match freeCounter s with
        | none => none
        | some c =>
          some (insertItem k { w.item with state := .waiting, dep := some c }
            (onSch (fun h => { h with deps := Tab.set h.deps c { value := w.count % 65536, item := some k, failed := false } }) s))

/-- A creator makes its item, or waits until it can (R156, R161). -/
def createWith (w : ItemWait) (s : State) : State := (placeItem w s).getD (onSch (fun c => { c with asks := c.asks ++ [w] }) s)
def createItem (i : Item) (s : State) : State := createWith { item := i, count := 0 } s

/-- The descriptor that an item works for. -/
def itemDesc (i : Item) : Option Nat :=
  match i.task with
  | .keyEntry d _ => some d
  | _ => i.desc

/-- The command of a waiting creator has ended otherwise. -/
def askDropped (s : State) (w : ItemWait) : Bool := (itemDesc w.item).any (fun d => !(descOf s d).any (fun x => x.stage == .started || x.stage == .waiting))

/-- Creators that wait try again, the oldest first. -/
def retryAsks (s : State) : State :=
  let l := s.sch.asks
  l.foldl (fun s w => if askDropped s w then s else createWith w s) (onSch (fun c => { c with asks := [] }) s)

/-- A blank item of a class. -/
def blankItem (cls prio space key handler : Nat) : Item :=
  { slot := 0, key := key, cls := cls, prio := prio, noFlow := false, space := space, handler := handler, dep := none, notify0 := none,
    notify1 := none, deadline := 0, arrival := 0, state := .ready, step := .ended, locked := false, aged := 0, since := 0, made := 0,
    front := 0, data := 0, released := false, image := 0, deferred := false, charged := 0, depFailed := false, task := .plain, desc := none
    reading := none }

/-- A reading as its frame comes from its queue (R151, R169). -/
def newReading (queue : Nat) (f : QFrame) : Reading :=
  { queue := queue, meta16 := f.meta16, frame := f.bytes, meas := f.meas, short := 0, profile := 0, pver := 0, plain := [], replay := false,
    released := false, valFlags := 0, checks := 0, reason := 0, values := [], incs := [], vver := 0, cver := 0, ns := [], resid := [], pathA := none, pathB := none,
    single := false, onB := false }

/-- The work item of a reading: its flow is the meter's (R152, R157). -/
def readingItem (s : State) (id : Nat) (r : Reading) : Item :=
  { blankItem 0 s.sch.set.readingPrio 0 id (Config.handler 0 % 256) with step := .lookup, reading := some r }

/-- A decrement of a counter at zero or free: counted, with a firmware fault record (R156). -/
def depFault (c : Nat) (s : State) : State := statSch 4 (onSch (fun h => { h with faults := h.faults ++ [(c, s.now)] }) s)

/-- One decrement of a counter; what a failed item decrements carries its mark to the item that waits (R156). -/
def notifyCounter (failed : Bool) (c : Nat) (s : State) : State :=
  match Tab.get s.sch.deps c with
  | none => depFault c s
  | some k =>
    if k.value = 0 then depFault c s
    else if k.value = 1 then
      let s := onSch (fun h => { h with deps := Tab.del h.deps c }) s
      match k.item with
      | some i =>
        retryAsks (preempt (onItem i (fun j =>
          if j.state == .waiting then { j with state := .ready, since := s.now, depFailed := failed || k.failed } else j) s))
      | none => retryAsks s
    else onSch (fun h => { h with deps := Tab.set h.deps c { k with value := k.value - 1, failed := failed || k.failed } }) s

def notifyOpt (failed : Bool) : Option Nat → State → State
  | none, s => s
  | some c, s => notifyCounter failed c s

/-- An item ends: its core, slot and lock are freed, its counters are decremented, and creators that wait try again (R156, R157, R161). A
class U item that is late is counted. -/
def endItem (slot : Nat) (failed : Bool) (s : State) : State :=
  match itemAt s slot with
  | none => s
  | some i =>
    let s := if i.cls = 2 && i.deadline != 0 && deadlineOf i < s.now then statSch 3 s else s
    let s := onImg (fun m => { m with crit := bumpAt m.crit 3 }) (statSch 0 (dropItem slot (leaveCore i (releaseLock slot s))))
    retryAsks (notifyOpt failed i.notify1 (notifyOpt failed i.notify0 s))

/-! ### Commands that run as work items (R151, R152, R165, R260) -/

/-- A descriptor's item: on the flow of the meter or balance node it names, else of its ring pair. VALVE_CMD is of class U, with its DEADLINE (R260). -/
def hostItem (s : State) (x : Desc) : Item :=
  let urgent := opcodeOf x == 0x32
  let byId := fun id =>
    { blankItem (if urgent then 2 else 0) (ringOf s x.ring).prio 0 id (Config.handler (opcodeOf x) % 256) with
      desc := some x.id, deadline := if urgent then u16 x.bytes 30 else 0 }
  if onNodeFlow x.bytes (opcodeOf x) then { byId (nodeNamed x.bytes (opcodeOf x)) with space := 2 }
  else
    match if onFlow (opcodeOf x) then refMeter true s x.bytes else none with
    | some (_, e) => byId e.id
    | none => { byId x.ring with space := 1 }

def itemOfDesc (s : State) (d : Nat) : Option Item := s.sch.items.find? (fun i => i.desc == some d)

/-- NET makes the item of a descriptor, one for each (R151). -/
def ensureItem (x : Desc) (s : State) : State :=
  if (itemOfDesc s x.id).isSome || s.sch.asks.any (fun w => w.item.desc == some x.id) then s else createItem (hostItem s x) s

/-- Every older item of its flow has ended or has released the flow (R152, R157). -/
def flowTurn (s : State) (i : Item) : Bool :=
  (s.sch.items.takeWhile (fun j => j.slot != i.slot)).all (fun j => !sameFlow j i || j.noFlow || j.released || j.state == .waiting)

/-- The item of a command that has done its work ends. -/
def endOwn (d : Nat) (s : State) : State :=
  match itemOfDesc s d with
  | some i => if (descOf s d).any (fun x => x.stage == .started) then s else endItem i.slot false s
  | none => s

/-- A command runs as its work item, in its turn on its flow. -/
def asItem (x : Desc) (f : State → State) (s : State) : State :=
  let s := ensureItem x s
  match itemOfDesc s x.id with
  | some i => if flowTurn s i then endOwn x.id (f s) else s
  | none => s

/-- An item parks for another island, keeping its lock (R157). -/
def parkItem (slot : Nat) (step : ItemStep) (s : State) : State :=
  match itemAt s slot with
  | none => s
  | some i => onItem slot (fun j => { j with state := .parked, step := step }) (leaveCore i s)

/-- A parked item whose island has answered returns to the front of the ready items (R157). Its ageing starts anew: whether ready times
add up over a park is not stated (DESIGN CHOICE, log 19). -/
def resumeItem (slot : Nat) (s : State) : State :=
  let s := onSch (fun c => { c with resumes := c.resumes + 1 }) s
  preempt (onItem slot (fun j => { j with state := .ready, since := s.now, aged := 0, front := s.sch.resumes }) s)

/-- The item is run again from its start (R27, R163). -/
def rerunItem (slot : Nat) (s : State) : State :=
  match itemAt s slot with
  | none => s
  | some i => onItem slot (fun j => { j with state := .ready, step := if i.reading.isSome then .lookup else j.step, since := s.now }) (leaveCore i s)

/-! ### The rows -/

/-- PRIO_AGE_TICK: 50 ms more as a ready item that is not dispatched (R155). -/
def execPrioAgeTick (slot : Nat) (s : State) : Out :=
  .next <|
    match itemAt s slot with
    | none => s
    | some i =>
      if i.state == .ready && i.prio + i.aged < 7 then
        let s := passTo (i.since + (i.aged + 1) * (50 * msNs)) s
        statSch 7 (onItem slot (fun j => { j with aged := j.aged + 1 }) s)
      else s

/-- BUDGET_WINDOW: the shares of the window are kept, the overrun is charged to the next, and new settings apply (R160, R166). -/
def execBudgetWindow (s : State) : Out :=
  .next <|
    if !isUp s 9 then s
    else
      let s := passTo (s.sch.window + 100 * msNs) s
      let s := s.sch.items.foldl (fun s i => chargeRun i s) s
      let ovr := s.sch.used - budgetNs s
      onSch (fun c =>
        { c with
          busy := c.busyNow, busyNow := [0, 0, 0], used := ovr, window := s.now, set := c.nextSet.getD c.set, nextSet := none
          items := c.items.map (fun i => { i with deferred := false }) }) s

/-- ITEM_RUN_TIMEOUT: a run longer than t_run (200 µs) resets ATOLL (R162). -/
def execItemRunTimeout (core : Nat) (s : State) : Out :=
  .next <|
    match runningOn s core with
    | none => s
    | some i => startIslandReset 9 1 (passTo (i.since + 200001) s)

/-- A core takes no further item; its slotted items are ready again, with their locks (R163). -/
def drainCore (core : Nat) (s : State) : State :=
  if isUp s 9 && (s.sch.cores.getD core Core.reset).powered then
    onSch (fun c =>
      { c with
        cores := modAt c.cores core (fun k => { k with draining := true, drained := false, drainSince := s.now })
        items := modWhere (fun i => i.state == .slotted core) (fun i => { i with state := .ready, front := 0 }) c.items }) s
  else s

/-- Cores of group g of an ATOLL reload. -/
def groupCores (g : Nat) : List Nat := (List.range 4).map (4 * g + ·)

def drainGroup (g : Nat) (s : State) : State := (groupCores g).foldl (fun s c => drainCore c s) s

/-- CORE_DRAIN (R163). -/
def execCoreDrain (core : Nat) (s : State) : Out := .next (drainCore core s)

/-- Cores that stay powered in a power state; an activation of ATOLL firmware powers them all (R60, R63, R463). -/
def coresIn (s : State) : Nat :=
  if s.img.act.any (fun a => a.type == 2) then 24
  else match s.pw.st with
  | .trim => s.pw.trimCores
  | .ebb => 4
  | _ => 24

/-- Power of k cores in credits (R65: 16 cores need 0.928 W, or 19 credits). -/
def coreCredits (k : Nat) : Nat := (58 * k + 49) / 50
def poweredCores (s : State) : Nat := (s.sch.cores.filter (·.powered)).length
/-- Credits between p and q powered cores: those of the cores that are off (R65; DEDUCED, log 97). -/
def creditsBetween (p q : Nat) : Nat := coreCredits (24 - p) - coreCredits (24 - q)

/-- CORE_DRAINED: nothing runs on the core any more. In TRIM and EBB a core beyond those kept is powered down, and its credits are released
(R60, R65, R163). -/
def execCoreDrained (core : Nat) (s : State) : Out :=
  .next <|
    if (s.sch.cores.getD core Core.reset).draining && (runningOn s core).isNone &&
        !s.sch.items.any (fun i => i.state == .preempted core) then
      let p := poweredCores s
      let s := onSch (fun c => { c with cores := modAt c.cores core (fun k =>
        { k with drained := true, draining := false, powered := k.powered && core < coresIn s }) }) s
      onIsl 9 (fun i => { i with grant := max i.idle (i.grant - creditsBetween (poweredCores s) p) }) s
    else s

/-- Work of the item is still owed: a command not ended, a clock step, an entry of a key message. -/
def owesWork (s : State) (i : Item) : Bool :=
  match i.task with
  | .clockStep | .keyEntry .. => true
  | _ => i.desc.any (fun d => (descOf s d).any (fun x => x.stage == .started))

/-- ITEM_END: the item ends; one that fails still makes its decrements, and marks its result failed (R156). A reading ends once its path is
over. -/
def execItemEnd (slot : Nat) (failed : Bool) (s : State) : Out :=
  .next <|
    match itemAt s slot with
    | none => s
    | some i =>
      let ovr := match i.state with
        | .running _ => i.reading.isNone && !owesWork s i || i.step == .posted || i.step == .ended && i.reading.isSome
        | _ => i.step == .posted || (i.step == .ended && i.reading.isSome)
      if isUp s 9 && ovr then endItem slot failed s else s

/-- ITEM_RESUME: the island that a parked item waits on has answered (R157). -/
def execItemResume (slot : Nat) (s : State) : Out :=
  .next <|
    match itemAt s slot with
    | none => s
    | some i =>
      let answered := i.step == .authed || i.step == .posted || i.step == .thirdPath || (i.step == .ended && i.reading.isNone)
      if isUp s 9 && i.state == .parked && answered then resumeItem slot s else s

/-- The fields of SCHED_SET (R166). -/
def schedSetOf (b : Bytes) : SchedSet := { budget := u8 b 16, borrow := bit (u8 b 17) 0, readingPrio := u8 b 18 % 8 }

/-- SCHED_SET: the values apply from the next window and are kept in the option store (R166). -/
def execSchedSet (d : Nat) (s : State) : Out :=
  .next (hostCmd 0x4C d (fun b => [(inRange (u8 b 16) 1 50, 16)]) (fun x s => asItem x (fun s =>
    let v := schedSetOf x.bytes
    finishOk d [] (saveOpt (fun o => { o with sched := v }) (onSch (fun c => { c with nextSet := some v }) s))) s) s)

/-- SCHED_SAT_CLEAR: SCHED_STATUS.SAT is W1C (R167). -/
def execSchedSatClear (v : BitVec 32) (s : State) : Out :=
  .next (if regOpen s 9 then onSch (fun c => { c with sat := andNot 8 c.sat (v.toNat / 2 ^ 24) }) s else s)

/-- SCHED_STATS (R167). -/
def execSchedStats (d : Nat) (s : State) : Out :=
  .next (statsCmd 0x4D d 64 (fun s => s.sch.stats) (fun s => cntClear 13 (onSch (fun c => { c with stats := List.replicate 8 0 }) s))
    (fun _ => []) s)

end Sys2Proof.Machine
end

