-- ==== Sys2Proof/Machine/Fabric.lean ====
section
/-! DEFINITION. Straits and the sound (chapter 01): transfers, the code's corrections, arbitration, DRAM accesses, and what an
uncorrectable word leads to. -/
namespace Sys2Proof.Machine
open Sys2Proof

/-! ### The code (R23) -/

/-- How a word reads: good, corrected in a symbol, found uncorrectable, or miscorrected to another content. -/
inductive EccResult where
  | good
  | corrected (symbol : Nat)
  | bad
  | wrong (content : BitVec 128)
  deriving DecidableEq, Repr

/-- A word with three or more failing symbols is detected or miscorrected: no guarantee (R23), a free choice. -/
def eccRead (e : Ecc) (s : State) : EccResult × State :=
  match e with
  | .none => (.good, s)
  | .one k => (.corrected k, s)
  | .two => (.bad, s)
  | .many => (if Config.freeBool s.free then .bad else .wrong (Config.freeWord s.free), useFree s)

/-! ### Straits -/

/-- Number of a lane in ECC_LOG (the manual numbers no lanes): 16 × source + destination (log 21). -/
def laneNo (src dst : Nat) : Nat := 16 * src + dst

def laneOf (s : State) (src dst : Nat) : Lane :=
  (s.fab.lanes.find? (fun l => l.src == src && l.dst == dst)).getD
    { src := src, dst := dst, req := false, ack := false, words := [], kind := 0, outstanding := 0, got := none, held := [] }

def putLane (l : Lane) (s : State) : State :=
  onFab (fun f => { f with lanes := l :: f.lanes.filter (fun k => !(k.src == l.src && k.dst == l.dst)) }) s

/-- The words of the message with this transfer; none where no message is under way (R16, R18). -/
def laneWords (l : Lane) (x : StraitXfer) (w : BitVec 128) : Option (List (BitVec 128)) :=
  if x.first then some [w] else if l.words.isEmpty then none else some (l.words ++ [w])

/-- A control code outside the four is treated as ERR (R16). -/
def controlCode (w : BitVec 128) : Nat := let c := w.toNat % 256; if 1 ≤ c && c ≤ 4 then c else 3

/-- A request adds to those outstanding with its receiver; a response takes one from the opposite lane (R18). -/
def countRequest (src dst kind : Nat) (s : State) : State :=
  if kind = 1 then (let l := laneOf s src dst; putLane { l with outstanding := l.outstanding + 1 } s)
  else if kind = 2 then (let l := laneOf s dst src; putLane { l with outstanding := l.outstanding - 1 } s)
  else s

/-- One handshake: the sender places a transfer and toggles REQ, the receiver latches it and toggles ACK (R17). Placing, latching, the
check and the release of the sender's copy are one command, so the receiver's two-deep buffer is empty between commands (log 93). -/
def handshake (x : StraitXfer) (s : State) : State := let l := laneOf s x.src x.dst; putLane { l with req := !l.req, ack := !l.ack } s

/-- A transfer whose check has passed joins its message; with LAST the message is delivered (R18). -/
def acceptXfer (x : StraitXfer) (w : BitVec 128) (s : State) : State :=
  let l := laneOf s x.src x.dst
  let w := if x.kind = 3 then BitVec.ofNat 128 (controlCode w) else w
  match laneWords l x w with
  | none => s
  | some ws =>
    if x.last then countRequest x.src x.dst x.kind (putLane { l with words := [], kind := x.kind, got := some (x.kind, ws) } s)
    else putLane { l with words := ws, kind := x.kind } s

/-- One reception: mismatched sideband copies count as uncorrectable (R16). -/
def readXfer (x : StraitXfer) (e : Ecc) (s : State) : EccResult × State :=
  if x.copyOk then eccRead e s else (.bad, s)

def acceptResult (x : StraitXfer) (r : EccResult) (s : State) : State :=
  match r with
  | .good => acceptXfer x x.data s
  | .corrected k => acceptXfer x x.data (eccCorrected x.dst 0 k (laneNo x.src x.dst) s)
  | .wrong w => acceptXfer x w s
  | .bad => s

/-- The message ends STRAIT_ABORT, and the receiving island is reset (R27). -/
def abortXfer (x : StraitXfer) (s : State) : State :=
  sramReset x.dst (emit (.strait x.dst x.src 0x100) (putLane { laneOf s x.src x.dst with words := [] } s))
where
  sramReset (n : Nat) (s : State) : State := startIslandReset n 2 s

/-- The receiver takes a transfer. A word found uncorrectable is asked for once more, and the sender repeats it from its copy with a
handshake of its own (R17, R23, R27). -/
def receiveXfer (x : StraitXfer) (s : State) : State :=
  match readXfer x x.err (handshake x s) with
  | (.bad, s) =>
    let s := handshake x (emit (.strait x.dst x.src 4) (eccUncorrectable x.dst 0 (laneNo x.src x.dst) s))
    match eccRead x.again s with
    | (.bad, s) => abortXfer x (eccUncorrectable x.dst 0 (laneNo x.src x.dst) s)
    | (r, s) => acceptResult x r s
  | (r, s) => acceptResult x r s

/-- An island asked to prepare for its reset completes what it has begun and answers the requests it has taken (R82). -/
def straitSends (s : State) (x : StraitXfer) : Bool :=
  isUp s x.src || ((islOf s x.src).phase == .idleReq && (!x.first || x.kind == 2))
/-- It takes no new request on its straits (R82). -/
def straitTakes (s : State) (x : StraitXfer) : Bool :=
  isUp s x.dst || ((islOf s x.dst).phase == .idleReq && !(x.kind == 1 && x.first))

/-- Straits to CAPE hold their words while it is stopped (R14, R82): the sender places the first and keeps its copy of each. -/
def holdXfer (x : StraitXfer) (s : State) : State :=
  let l := laneOf s x.src x.dst
  putLane { l with held := l.held ++ [x], req := if l.held.isEmpty then !l.req else l.req } s

/-- CAPE runs again: the words that its straits hold are taken, each lane's in order. -/
def releaseHeldXfers (s : State) : State :=
  let xs := s.fab.lanes.flatMap (fun l => if l.dst = 1 then l.held else [])
  let s := onFab (fun f => { f with lanes := f.lanes.map (fun l =>
    if l.dst = 1 && !l.held.isEmpty then { l with held := [], req := !l.req } else l) }) s
  xs.foldl (fun s x => receiveXfer x s) s

/-- STRAIT_MESSAGE (R15 to R18, R23, R27, R82). An island that is stopped answers a new request with ERR; its other transfers are part of
no message that it could still take, but for those to CAPE, which wait. -/
def execStraitMessage (x : StraitXfer) (s : State) : Out :=
  .next <|
    if !straitJoins x.src x.dst || !straitSends s x then s
    else if straitTakes s x then receiveXfer x s
    else if x.dst = 1 && !isUp s 1 && (islOf s 1).phase != .idleReq then holdXfer x s
    else if x.kind = 1 then emit (.strait x.dst x.src 3) s
    else s

/-! ### The sound -/

/-- The port served next: the one whose turn lasts, else the next in order that asks (R19). -/
def nextPort (s : State) (ports : List Nat) : Option Nat :=
  if 0 < s.fab.rrLeft && ports.contains s.fab.rrPort then some s.fab.rrPort
  else ((List.range 16).map (fun k => (s.fab.rrPort + 1 + k) % 16)).find? ports.contains

/-- A port is served once in its turn; a turn lasts for the port's weight (R19). -/
def takeTurn (p : Nat) (s : State) : State :=
  onFab (fun f =>
    { f with
      rrPort := p
      rrLeft := (if 0 < f.rrLeft && f.rrPort = p then f.rrLeft else max 1 (f.weights.getD p 2)) - 1 }) s

/-- Island and KIND of ECC_LOG for the place of a word (R26). -/
def locKind : Loc → Nat × Nat
  | .flashCopy _ | .noCopy _ | .bucket _ => (3, 2)
  | .overflow => (5, 1)
  | .custody _ => (8, 1)
  | .sram i => (i, 1)

/-- What the structure that held an uncorrectable word asks for (R27, R139). A reload takes the poison away. -/
def uncorrectableAt (l : Loc) (unit : Nat) (s : State) : State :=
  let clean := onFab (fun f => { f with poison := f.poison.filter (· != unit) })
  match l with
  | .flashCopy slot => rerunItem slot (clean s)
  | .noCopy slot => endItem slot true s
  | .bucket slot =>
    let s := onTbl (fun t => { t with bktReload := t.bktReload ++ [(slot, unit)] }) s
    match itemAt s slot with
    | some i => onItem slot (fun j => { j with state := .parked, step := .rebuildWait }) (leaveCore i s)
    | none => s
  | .overflow => onTbl (fun t => { t with ovfReload := true }) (clean s)
  | .custody ch => rebuildCustody (onLg (fun l => { l with rebuild := l.rebuild.filter (· != ch) ++ [ch] }) (clean s))
  | .sram i => sramFailure i (clean s)

/-- A write of one 16-byte unit, atomic (R21). -/
def storeUnit (r : SoundReq) (w : BitVec 128) (s : State) : State :=
  onFab (fun f => { f with dram := unitWrite f.dram r.addr w, poison := f.poison.filter (· != r.addr) }) s

/-- The answer to a request; the results of an island that has been reset since are discarded (R22). -/
def soundAnswer (wanted : Bool) (r : SoundReq) (v : Option (BitVec 128)) (s : State) : State :=
  if wanted then onFab (fun f => { f with answers := f.answers ++ [(r.port, r.addr, v)] }) s else s

/-- A word found uncorrectable where the sound carried it: logged under the port, and the structure it belongs to is served as by R27's
row for the word itself, as no row names the sound (log 94). -/
def carriedBad (island : Nat) (r : SoundReq) (s : State) : State := uncorrectableAt r.loc r.addr (eccUncorrectable island 4 r.port s)

/-- A write: the word comes over the sound to MEM. A word found uncorrectable on the way is not written, and its unit is poisoned. -/
def soundWrite (wanted : Bool) (r : SoundReq) (s : State) : State :=
  match eccRead r.carry s with
  | (.good, s) => soundAnswer wanted r (some r.data) (storeUnit r r.data s)
  | (.corrected y, s) => soundAnswer wanted r (some r.data) (storeUnit r r.data (eccCorrected 3 4 y r.port s))
  | (.wrong w, s) => soundAnswer wanted r (some w) (storeUnit r w s)
  | (.bad, s) => carriedBad 3 r (onFab (fun f => { f with poison := r.addr :: f.poison }) (soundAnswer wanted r none s))

/-- A word read goes over the sound to its port. -/
def carryBack (wanted : Bool) (r : SoundReq) (w : BitVec 128) (s : State) : State :=
  let n := portIsland r.port
  match eccRead r.carry s with
  | (.good, s) => soundAnswer wanted r (some w) s
  | (.corrected y, s) => soundAnswer wanted r (some w) (eccCorrected n 4 y r.port s)
  | (.wrong v, s) => soundAnswer wanted r (some v) s
  | (.bad, s) => carriedBad n r (soundAnswer wanted r none s)

/-- A read of one unit: corrected, poisoned, or miscorrected (R23, R24, R27). A poisoned unit is never used as data. A miscorrected word
passes for a good one: what is read is wrong, and DRAM and the counters stay (log 94). -/
def soundRead (wanted : Bool) (r : SoundReq) (s : State) : State :=
  if s.fab.poison.contains r.addr then soundAnswer wanted r none s
  else
    let k := locKind r.loc
    match eccRead r.err s with
    | (.good, s) => carryBack wanted r (unitRead s.fab.dram r.addr) s
    | (.corrected y, s) => carryBack wanted r (unitRead s.fab.dram r.addr) (eccCorrected k.1 k.2 y (r.addr / 16) s)
    | (.wrong w, s) => carryBack wanted r w s
    | (.bad, s) =>
      let s := onFab (fun f => { f with poison := r.addr :: f.poison }) s
      uncorrectableAt r.loc r.addr (eccUncorrectable k.1 k.2 (r.addr / 16) (soundAnswer wanted r none s))

def soundServe (q : SoundReq × Bool) (s : State) : State := if q.1.write then soundWrite q.2 q.1 s else soundRead q.2 q.1 s

/-- Serves waiting requests in the order of arbitration; those of one port in their order of issue (R19, R20). -/
def soundLoop : Nat → List (SoundReq × Bool) → State → State
  | 0, _, s => s
  | k + 1, rs, s =>
    match nextPort s (rs.map (·.1.port)) with
    | none => s
    | some p =>
      match rs.find? (fun r => r.1.port == p) with
      | none => s
      | some r => soundLoop k (rs.eraseP (fun x => x.1.port == p)) (soundServe r (takeTurn p s))

/-- CAPE sets a port's weight; 0 is taken as 1 (R19). -/
def setWeight (w : Nat × Nat) (s : State) : State := onFab (fun f => { f with weights := setAt f.weights w.1 (max 1 (w.2 % 16)) }) s

/-- The requests that waited for MEM are served (R14). -/
def soundDrain (s : State) : State :=
  let rs := s.fab.soundWait
  soundLoop rs.length rs (onFab (fun f => { f with soundWait := [] }) s)

/-- SOUND_REQUEST: CAPE's weights first; while MEM is stopped the requests wait (R14). An address past the 2 GiB does not exist (R37). -/
def execSoundRequest (x : SoundBurst) (s : State) : Out :=
  if x.reqs.any (fun r => dramBytes ≤ r.addr) then .fault .dramAddress
  else
    let s := if isUp s 1 then x.weights.foldl (fun s w => setWeight w s) s else s
    let s := onFab (fun f => { f with answers := [], soundWait := f.soundWait ++ x.reqs.map (fun r => (r, true)) }) s
    .next (if isUp s 3 then soundDrain s else s)

/-- An island is reset: its requests are completed and their results discarded (R22). -/
def discardAnswers (n : Nat) (s : State) : State :=
  onFab (fun f =>
    { f with answers := f.answers.filter (fun a => portIsland a.1 != n)
             soundWait := f.soundWait.map (fun q => if portIsland q.1.port = n then (q.1, false) else q) }) s

end Sys2Proof.Machine
end

