-- ==== Sys2Proof/Machine/Journal.lean ====
section
/-! DEFINITION. Durability (R31, R32, R507): group commits, the acknowledgements of a synchronous pair (R403), and what is done when a record
becomes durable: completions, answers, the delivery backlog (R453, R456), the records that step 14 takes. -/
namespace Sys2Proof.Machine
open Sys2Proof

/-! ### The pool of LOG (R452, R455, R456) -/

/-- Backlog slots that the pool holds. -/
def poolSlots : Nat := 1854996480
/-- Slots that a frame entry takes the room of: seven frames of the largest size stand in a sector of 170 slots. -/
def frameSlots : Nat := 24

def poolUsed (s : State) : Nat := s.fl.log.length + s.fl.settled + frameSlots * (s.arch.fwd.length + s.db.quars.length)
def poolPercent (s : State) : Nat := poolUsed s * 100 / poolSlots
def poolHasRoom (s : State) (slots : Nat) : Bool := poolUsed s + slots ≤ poolSlots

/-- Settled slots leave the pool with their sectors: at once where nothing unsettled stands before them (log 32). -/
def reclaimPool (s : State) : State :=
  let s := if s.fl.log.isEmpty && s.arch.fwd.isEmpty && s.db.quars.isEmpty then onFl (fun f => { f with settled := 0 }) s else s
  let s := if poolPercent s < 70 then onFl (fun f => { f with backlogArmed := true }) s else s
  if poolHasRoom s 2 then onFl (fun f => { f with poolFull := false }) s else s

/-- BACKLOG_HIGH and FLASH_FULL of the pool. -/
def notePool (s : State) : State :=
  let s := if 75 ≤ poolPercent s && s.fl.backlogArmed then raise 61 (poolPercent s) (onFl (fun f => { f with backlogArmed := false }) s) else s
  if !poolHasRoom s 2 && !s.fl.poolFull then raise 39 2 (onFl (fun f => { f with poolFull := true }) s) else s

/-- The delivered records of a posting enter the backlog with their POST_TIME (R122, R453). -/
def appendLog (seq : Nat) (p : PostBody) (s : State) : State :=
  if p.recs.isEmpty then s
  else
    let es : List LogEntry := p.recs.zipIdx.map (fun r =>
      { seq := seq, profile := p.profile, record := r.1.take 56 ++ toLE 8 (stamp s), cont := r.2 == 1, placed := none, batch := none, again := false })
    notePool (onFl (fun f => { f with log := f.log ++ es }) s)

/-! ### What durability releases (R31) -/

def runDurAct (a : DurAct) (s : State) : State :=
  match a with
  | .complete d st detail result => finish d st detail result s
  | .posted r =>
    match r.body with
    | .posting p => onLg (fun l => { l with folds := l.folds ++ [r] }) (appendLog r.seq p s)
    | _ => s
  | .answer short status counter link _ => answerTo short status counter link s
  | .freeIndex short => onDb (purgeDone short) s
  | .quarVisible q => notePool (onDb (fun d => { d with quars := d.quars ++ [q] }) s)
  | .apply r => onDb (fun d => applyRec d r) s
  | .calKept cal count sec =>
    saveOpt (fun o => { o with counts := setAt o.counts cal count, calFrom := setAt o.calFrom cal (max sec (o.calFrom.getD cal 0)) }) s

/-- The SEQ up to which records are durable: programmed, and acknowledged while synchronous mode is in force. -/
def durableNow (s : State) : Nat := if s.pair.sync then min s.jr.programmed s.pair.acked else s.jr.programmed

/-- Records that have become durable take effect, in the order they were appended (R31, R32). -/
def advanceDurable (s : State) : State :=
  let d := max s.jr.durable (durableNow s)
  let due := s.jr.waits.filter (fun w => w.1 ≤ d)
  let s := onJr (fun j => { j with durable := d, waits := j.waits.filter (fun w => d < w.1) }) s
  deliverAll (due.foldl (fun s w => runDurAct w.2 s) s)

/-! ### Group commits -/

/-- 10 ms (R32). -/
def commitPeriod : Nat := 10 * msNs

/-- The instant at which the next commit is due: at once where one is owed. -/
def toCommit (s : State) : State :=
  match s.jr.startAt with
  | some t => if s.pw.lastCommit then s else passTo (t + commitPeriod) s
  | none => s

/-- SEQ of the last record of a list. -/
def lastSeqOf (l : List JRec) (d : Nat) : Nat := (l.getLast?.map (·.seq)).getD d

/-- The program of a commit into JOURNAL is complete (R31, R403). MEM completes it even while it prepares for a reset (R507). -/
def groupCommitComplete (s : State) : State :=
    match s.jr.commit with
    | none => s
    | some rs =>
      if s.fl.readOnly || (!isUp s 3 && (islOf s 3).phase != .idleReq) then s
      else
        let s := onJr (fun j => { j with commit := none, flash := j.flash ++ rs, programmed := max j.programmed (lastSeqOf rs j.programmed) }) s
        let s := if s.pw.lastCommit && s.jr.open_.isEmpty then onPw (fun p => { p with lastCommit := false }) s else s
        let s :=
          if s.pair.sync && s.pair.acked < s.jr.programmed then
            onPair (fun p => { p with waitAcks := p.waitAcks ++ [(s.jr.programmed, s.now)] }) s
          else s
        rebuildCustody (advanceDurable s)

/-- The partner has acknowledged every record up to a SEQ (R402, R403). -/
def mirrorAck (seq : Nat) (s : State) : State :=
  let s := onPair (fun p => { p with acked := max p.acked seq }) s
  advanceDurable (onPair (fun p => { p with waitAcks := p.waitAcks.filter (fun w => p.acked < w.1) }) s)

/-- Readings of LOG that the host has confirmed are settled (R121, R405, R454). -/
def settleLog (p : LogEntry → Bool) (s : State) : State :=
  reclaimPool (onFl (fun f => { f with log := f.log.filter (fun e => !p e), settled := f.settled + (f.log.filter p).length }) s)

end Sys2Proof.Machine
end

