-- ==== Sys2Proof/Machine/Flash.lean ====
section
/-! DEFINITION. The flash store (chapter 20): blocks, streams and pages, spare blocks, checkpoints, collection and failures, HOSTNS, and
the commands 0x90 to 0x96. What LOG, PROFILE, RECORDER and IMAGES hold stands in the structures of their chapters; a page of theirs is
programmed here without its content (log 39). -/
namespace Sys2Proof.Machine
open Sys2Proof

/-! ### Geometry and health (R431, R432, R448, R450) -/

def blocksPerDie : Nat := 10880
/-- Data pages of a block; page 127 is its summary. -/
def dataPages : Nat := 127
def factoryBad (die : Nat) : Nat := min 220 (Config.factoryBad die)
def factoryBadAll : Nat := ((List.range 4).map factoryBad).sum

/-- Good managed blocks less 39,683. -/
def spareLeft (s : State) : Nat := 43456 - factoryBadAll - s.fl.grown - 39683

/-- Blocks of a die that were never opened and are good. -/
def neverOpened (s : State) (die : Nat) : Nat := blocksPerDie - factoryBad die - s.fl.fresh.getD die 16
def freeCount (s : State) (die : Nat) : Nat := neverOpened s die + (s.fl.free.getD die []).length

/-- Erase counts of the good managed blocks that have been opened. -/
def eraseCounts (s : State) : List Nat :=
  ((s.fl.blocks.filter (fun b => b.st != .bad)).map (·.erases)) ++ s.fl.free.flatMap (fun l => l.map (·.2))
def someNever (s : State) : Bool := (List.range 4).any (fun d => 0 < neverOpened s d)
def maxErase (s : State) : Nat := (eraseCounts s).foldl max 0
def minErase (s : State) : Nat := if someNever s then 0 else ((eraseCounts s).min?).getD 0

/-- WEAR_USED in 0.01 %. -/
def wearUsed (s : State) : Nat :=
  let good := 43456 - factoryBadAll - s.fl.grown
  if good = 0 then 0 else (eraseCounts s).sum * 10000 / (good * 50000)

/-- The store becomes read-only (R450). -/
def storeReadOnly (s : State) : State :=
  if s.fl.readOnly then s else giveUp .diagnosis (raise 39 1 (onFl (fun f => { f with readOnly := true }) s))

/-- SPARE_LEFT has changed: FLASH_HEALTH at 1,024 and at each further 256 lost; read-only at 0 (R450). -/
def noteSpare (s : State) : State :=
  let n := spareLeft s
  let s := if n ≤ 1024 && s.fl.spareMark.all (fun m => n + 256 ≤ m) then
      raise 38 1 (onFl (fun f => { f with spareMark := some (match f.spareMark with | some m => m - 256 | none => 1024) }) s)
    else s
  if n = 0 then storeReadOnly s else s

/-- A counter of FLASH_HEALTH_READ. -/
def bump32 (n : Nat) : Nat := min ctrMax (n + 1)

/-! ### Blocks -/

def onBlock (die num : Nat) (f : Block → Block) (s : State) : State :=
  onFl (fun l => { l with blocks := modWhere (fun b => b.die == die && b.num == num) f l.blocks }) s
def blockOf (s : State) (die num : Nat) : Option Block := s.fl.blocks.find? (fun b => b.die == die && b.num == num)
def openOn (s : State) (stream die : Nat) : Option Block := s.fl.blocks.find? (fun b => b.st == .open_ && b.stream == stream && b.die == die)

/-- The next sequence number (R435). -/
def drawSeq (s : State) : Nat × State := (s.fl.seq, onFl (fun f => { f with seq := f.seq + 1 }) s)

/-- A block is opened from the head of its die's free list: blocks never opened, then erased ones in erase order (R431, R448). -/
def openBlock (stream die : Nat) (s : State) : State :=
  if (openOn s stream die).isSome || s.fl.deadDies.contains die then s
  else
    let q := drawSeq s
    let add := fun (num erases : Nat) (s : State) =>
      onFl (fun f => { f with
        blocks := f.blocks ++ [{ die := die, num := num, st := .open_, erases := erases, reads := 0, stream := stream, openSeq := q.1, pages := [], emptied := 0 }] }) s
    if 0 < neverOpened s die then
      add (s.fl.fresh.getD die 16) 1 (onFl (fun f => { f with fresh := modAt f.fresh die (· + 1), formatted := true }) q.2)
    else
      match s.fl.free.getD die [] with
      | (num, erases) :: rest => add num erases (onFl (fun f => { f with free := setAt f.free die rest }) q.2)
      | [] => s

/-- The die of a stream's superblock that takes the next page: the one with the fewest pages programmed, the lowest first (R437). -/
def pageDie (s : State) (stream : Nat) : Option (Nat × Block) :=
  ((List.range 4).filterMap (fun d => (openOn s stream d).map (fun b => (d, b)))).foldl (fun best p =>
    match best with
    | none => some p
    | some q => if p.2.pages.length < q.2.pages.length then some p else best) none

/-- A mapped sector of a block: it wins under R436. Sectors of other namespaces count while their block stands (log 39). -/
def sectorValid (s : State) (x : Sector) : Bool :=
  if x.ns = 7 then (Tab.get s.fl.host x.lsa).any (fun h => h.writeSeq == x.writeSeq && h.copySeq == x.copySeq)
  else x.ns != 0 && x.ns != 0x80 && !x.pad

def blockSectors (b : Block) : List Sector := b.pages.flatMap id
def validIn (s : State) (b : Block) : List Sector := (blockSectors b).filter (sectorValid s)

/-- Sectors wait for a stream's pages. -/
def enqueue (stream : Nat) (l : List Sector) (s : State) : State := onFl (fun f => { f with queues := modAt f.queues stream (· ++ l) }) s

/-- A copy of a sector: it keeps WRITE_SEQ and draws COPY_SEQ (R435). -/
def copyOf (x : Sector) (s : State) : Sector × State :=
  let q := drawSeq s
  let data := if x.ns = 7 then ((Tab.get s.fl.host x.lsa).map (·.data)).getD [] else []
  ({ x with copy := true, copySeq := q.1, data := data }, q.2)

/-- The valid sectors of a block are copied into a stream. -/
def copyOut (stream : Nat) (b : Block) (s : State) : State :=
  (validIn s b).foldl (fun s x => let c := copyOf x s; enqueue stream [c.1] c.2) s

/-- Collection of a block: its valid sectors go to stream 2, and it is Deferred (R444). -/
def collectBlock (b : Block) (s : State) : State :=
  onBlock b.die b.num (fun x => { x with st := .deferred, emptied := s.fl.lastN }) (copyOut 2 b s)

/-! ### Pages (R436, R437) -/

/-- What a programmed sector does to the map (R436). -/
def mapSector (x : Sector) (s : State) : State :=
  if x.ns = 7 then
    let cur := Tab.get s.fl.host x.lsa
    let wins := if x.copy then cur.any (fun h => h.writeSeq == x.writeSeq && h.copySeq < x.copySeq)
      else cur.all (fun h => h.writeSeq ≤ x.writeSeq)
    if wins then onFl (fun f => { f with host := Tab.set f.host x.lsa { writeSeq := x.writeSeq, copySeq := x.copySeq, data := x.data } }) s else s
  else if x.ns = 0x80 then
    let covered := fun (p : Nat × HostSector) =>
      p.2.writeSeq < x.writeSeq && x.ranges.any (fun r => r.1 == 7 && r.2.1 ≤ p.1 && p.1 < r.2.1 + r.2.2)
    onFl (fun f => { f with host := f.host.filter (fun p => !covered p) }) s
  else s

/-- A host command whose last sector is programmed completes. -/
def noteProgrammed (q : Nat) (s : State) : State :=
  let s := onFl (fun f => { f with hostWrites := f.hostWrites.map (fun w => { w with left := w.left.filter (· != q) }) }) s
  let done := s.fl.hostWrites.filter (fun w => w.left.isEmpty)
  done.foldl (fun s w => finishOk w.desc w.result s) (onFl (fun f => { f with hostWrites := f.hostWrites.filter (fun w => !w.left.isEmpty) }) s)

/-- The tags that stay on the page: the data of HOSTNS is in the map. -/
def asTag (x : Sector) : Sector := { x with data := [] }

/-- A sector of the module's own data in a namespace, with no content here. -/
def ownSector (ns q : Nat) (pad : Bool) : Sector :=
  { lsa := 0, ns := ns, pad := pad, copy := false, writeSeq := q, copySeq := 0, data := [], ranges := [] }

/-- The four sectors of the next page: those that wait, and else the stream's own; none: nothing is to be programmed. -/
def nextPage (stream : Nat) (s : State) : List Sector × State :=
  let l := (s.fl.queues.getD stream []).take 4
  let s := onFl (fun f => { f with queues := modAt f.queues stream (·.drop 4) }) s
  let ns := if stream = 0 then 1 else if stream = 1 then 3 else 2
  let own := if stream = 0 then s.jr.commit.isSome else if stream = 1 then true else s.fl.running.isSome
  if l.isEmpty then
    if own then
      let q := drawSeq s
      (List.replicate 4 (ownSector ns q.1 false), q.2)
    else ([], s)
  else (l ++ List.replicate (4 - l.length) (ownSector 0 0 true), s)

/-- A block whose page 126 is programmed closes; the superblock's parity goes once all of it is closed and read back (R437). -/
def closeFull (stream : Nat) (s : State) : State :=
  let s := onFl (fun f =>
    { f with blocks := f.blocks.map (fun b => if b.st == .open_ && b.stream == stream && dataPages ≤ b.pages.length then { b with st := .closed } else b) }) s
  if (List.range 4).all (fun d => (openOn s stream d).isNone) then onFl (fun f => { f with parity := f.parity.filter (fun p => p.1 != stream) }) s else s

/-- The stripe's parity page follows its four data pages (R437). -/
def noteParity (stream stripe : Nat) (s : State) : State :=
  let full := (List.range 4).all (fun d => (openOn s stream d).any (fun b => stripe < b.pages.length))
  if full && !s.fl.parity.contains (stream, stripe) then onFl (fun f => { f with parity := f.parity ++ [(stream, stripe)] }) s else s

/-- FLASH_PAGE_PROGRAM (R437). -/
def execFlashPageProgram (stream : Nat) (s : State) : Out :=
  .next <|
    if 3 ≤ stream || !isUp s 3 || s.fl.mount = 0 || s.fl.readOnly then s
    else
      let opened := (List.range 4).foldl (fun s d => openBlock stream d s) s
      match pageDie opened stream with
      | none => s
      | some (die, b) =>
        let p := nextPage stream opened
        if p.1.isEmpty then s
        else
          let s := onBlock die b.num (fun x => { x with pages := x.pages ++ [p.1.map asTag] }) p.2
          let s := onFl (fun f => { f with cpBytes := f.cpBytes + 16384 }) s
          let s := p.1.foldl (fun s x => if x.pad then s else noteProgrammed x.writeSeq (mapSector x s)) s
          closeFull stream (noteParity stream b.pages.length s)

/-! ### The start of a commit (R32, R507) -/

/-- The JOURNAL block whose commit was cut: its valid pages go to a new block, and it is released and erased later, not retired (R446, R507). -/
def leaveCutBlock (s : State) : State :=
  match pageDie s 0 with
  | none => s
  | some (_, b) => onBlock b.die b.num (fun x => { x with st := .deferred, emptied := s.fl.lastN }) (copyOut 0 b s)

/-- GROUP_COMMIT_START (R32): every record appended since the last start; a commit that was cut is programmed again first, in a new block (R507). -/
def execGroupCommitStart (s : State) : Out :=
  .next <|
    if !isUp s 3 || s.fl.readOnly || s.jr.commit.isSome then s
    else
      let s := toCommit s
      match s.jr.cut with
      | some c => onJr (fun j => { j with commit := some c, cut := none }) (leaveCutBlock s)
      | none => onJr (fun j => { j with commit := some j.open_, open_ := [], startAt := some s.now }) s

/-! ### Checkpoints (R439, R440, R444) -/

/-- A checkpoint starts: the structures are frozen (R439). -/
def startCheckpoint (desc : Option Nat) (s : State) : State :=
  let n := s.fl.lastN + 1
  let hidden := s.jr.waits.filterMap (fun w => match w.2 with
    | .quarVisible q => some q
    | _ => none)
  let root : Root := { n := n, j := lastSeq s, s := s.fl.seq - 1, image := { soonDb s with quars := s.db.quars ++ hidden }, good := true, copyGood := true }
  onFl (fun f => { f with running := some (root, desc), lastN := n, cpAt := some s.now, cpBytes := 0, cpJournal := 0 }) s

def checkpointDue (s : State) : Bool :=
  s.fl.cpAt.isNone || 4 * 2 ^ 30 ≤ s.fl.cpBytes || 768 * 2 ^ 20 ≤ s.fl.cpJournal ||
  (List.range 4).any (fun d => freeCount s d ≤ 64)

def mayCheckpoint (s : State) : Bool := isUp s 3 && s.fl.mount != 0 && !s.fl.readOnly && s.fl.running.isNone

/-- CHECKPOINT_START. -/
def execCheckpointStart (s : State) : Out :=
  .next <|
    if !mayCheckpoint s then s
    else
      startCheckpoint none (if checkpointDue s then s else match s.fl.cpAt with
        | some t => passTo (t + 60 * secNs) s
        | none => s)

/-- A block is erased and goes to the tail of its die's free list (R444, R448). -/
def eraseBlock (b : Block) (s : State) : State :=
  onFl (fun f =>
    { f with blocks := f.blocks.filter (fun x => !(x.die == b.die && x.num == b.num))
             free := modAt f.free b.die (· ++ [(b.num, b.erases + 1)]) }) s

/-- Blocks that no kept root needs: Deferred ones emptied before the older root, and journal blocks whose last record is older (R440). -/
def releasable (s : State) (b : Block) : Bool :=
  match s.fl.roots with
  | [_, old] =>
    (b.st == .deferred && b.emptied < old.n) ||
      (b.st == .closed && b.stream == 0 && (blockSectors b).all (fun x => x.writeSeq ≤ old.s))
  | _ => false

def releaseBlocks (s : State) : State := (s.fl.blocks.filter (releasable s)).foldl (fun s b => eraseBlock b s) s

/-- JOURNAL keeps what the older root's replay needs: the records after it, and the postings that step 14 had not taken. -/
def trimJournal (s : State) : State :=
  match s.fl.roots with
  | [_, old] => onJr (fun j => { j with flash := j.flash.filter (fun r => min old.j old.image.folded < r.seq) }) s
  | _ => s

/-- CHECKPOINT_DONE (R440): the root is programmed, once JOURNAL holds every record that the image shows. -/
def execCheckpointDone (s : State) : Out :=
  .next <|
    match s.fl.running with
    | none => s
    | some (root, desc) =>
      if !isUp s 3 || s.fl.readOnly || s.jr.programmed < root.j then s
      else
        let s := statFl 6 (onFl (fun f => { f with running := none, roots := (root :: f.roots).take 2 }) s)
        let s := releaseBlocks (trimJournal s)
        let s := onImg (fun i => { i with crit := bumpAt i.crit 2 }) s
        match desc with
        | some d => finishOk d (toLE 4 root.n) s
        | none => s

/-! ### Collection and failures (R444 to R446, R448) -/

/-- The victim of a die: fewest valid sectors, then the lower erase count. -/
def victim (s : State) (die : Nat) : Option Block :=
  (s.fl.blocks.filter (fun b => b.die == die && b.st == .closed && (b.stream == 1 || b.stream == 2))).foldl (fun best b =>
    match best with
    | none => some b
    | some v =>
      let x := (validIn s b).length
      let y := (validIn s v).length
      if x < y || (x == y && b.erases < v.erases) then some b else best) none

/-- COLLECTION (R444). -/
def execCollection (die : Nat) (s : State) : Out :=
  .next <|
    if !isUp s 3 || s.fl.readOnly || s.fl.mount = 0 || 128 ≤ freeCount s die then s
    else
      match victim s die with
      | none => s
      | some b => releaseBlocks (statFl 2 (collectBlock b s))

/-- Static wear levelling of a die (R448); held while FLASH_NO_HISTORY is set. -/
def wearMove (die : Nat) (s : State) : State :=
  let counts := (s.fl.blocks.filter (fun b => b.die == die && b.st != .bad)).map (·.erases) ++ (s.fl.free.getD die []).map (·.2)
  let low := if 0 < neverOpened s die then 0 else (counts.min?).getD 0
  let closed := s.fl.blocks.filter (fun b => b.die == die && b.st == .closed && b.stream != 0)
  if s.rs.flashNoHistory || counts.foldl max 0 ≤ low + 2000 then s
  else
    match closed.foldl (fun (best : Option Block) b => match best with
        | none => some b
        | some v => if b.erases < v.erases then some b else best) none with
    | some b => statFl 3 (collectBlock b s)
    | none => s

/-- A block is retired as grown bad. -/
def retire (die num : Nat) (s : State) : State :=
  noteSpare (onFl (fun f => { f with grown := f.grown + 1 }) (onBlock die num (fun b => { b with st := .bad }) s))

/-- PROGRAM_FAIL (R446). -/
def execProgramFail (die block : Nat) (s : State) : Out :=
  .next <|
    match blockOf s die block with
    | none => s
    | some b =>
      if b.st != .open_ || !isUp s 3 then s
      else
        let s := copyOut (min 2 b.stream) b s
        raise 38 3 (retire die block (onFl (fun f => { f with programFail := bump32 f.programFail }) s))

/-- ERASE_FAIL (R446): a block of the free list, or a Deferred one. -/
def execEraseFail (die block : Nat) (s : State) : Out :=
  .next <|
    if !isUp s 3 then s
    else
      let count := onFl (fun f => { f with eraseFail := bump32 f.eraseFail })
      match (s.fl.free.getD die []).find? (fun p => p.1 == block), blockOf s die block with
      | some (n, e), _ =>
        let b : Block := { die := die, num := n, st := .bad, erases := e, reads := 0, stream := 0, openSeq := 0, pages := [], emptied := 0 }
        let s := onFl (fun f => { f with free := modAt f.free die (fun l => l.filter (fun p => p.1 != block)), blocks := f.blocks ++ [b] }) s
        raise 38 4 (retire die block (count s))
      | none, some b => if b.st == .deferred then raise 38 4 (retire die block (count s)) else s
      | none, none => s

/-- DIE_FAIL (R446, R450). -/
def execDieFail (die : Nat) (s : State) : Out :=
  .next (if s.fl.deadDies.contains die then s else storeReadOnly (onFl (fun f => { f with deadDies := f.deadDies ++ [die] }) s))

/-- Bin of a NAND temperature. -/
def tempBin (t : Int) : Nat := if t < -30 then 0 else min 15 (1 + ((t + 30) / 10).toNat)

/-- NAND_TEMP_SAMPLE (R449). -/
def execNandTempSample (t : Int) (s : State) : Out :=
  .next (if isUp s 3 then onFl (fun f => { f with temps := modAt f.temps (tempBin t) bump32 }) s else s)

/-- Slots of a backlog sector (R452). -/
def sectorSlots : Nat := 170

/-- POOL_RECLAIM (R455): the oldest sector goes when all its entries are settled, or when fewer than 43 are not and move to the newest. -/
def execPoolReclaim (s : State) : Out :=
  .next <|
    if !isUp s 3 || s.fl.settled = 0 then s
    else if sectorSlots ≤ s.fl.settled then reclaimPool (onFl (fun f => { f with settled := f.settled - sectorSlots }) s)
    else
      let move := sectorSlots - s.fl.settled
      if move < 43 && move ≤ s.fl.log.length then
        reclaimPool ((List.range move).foldl (fun s _ => statFl 8 s) (onFl (fun f => { f with settled := 0 }) s))
      else reclaimPool s

/-! ### Reads (R438, R447, R449) -/

/-- Bin of a codeword's corrected bits. -/
def corrBin (n : Nat) : Nat := if n = 0 then 0 else if 40 < n then 15 else if n = 40 then 14 else (n + 2) / 3

/-- The block and page of a mapped sector. -/
def placeOf (s : State) (lsa : Nat) (h : HostSector) : Option (Block × Nat) :=
  s.fl.blocks.findSome? (fun b =>
    (b.pages.findIdx? (fun p => p.any (fun x => x.ns == 7 && x.lsa == lsa && x.writeSeq == h.writeSeq && x.copySeq == h.copySeq))).map (fun k => (b, k)))

/-- Codewords of a block are read: histogram, the block's reads, and a refresh past its limits (R449). -/
def readWords (die num : Nat) (bits : List Nat) (s : State) : State :=
  let s := onFl (fun f => { f with bits := bits.foldl (fun h n => modAt h (corrBin n) bump32) f.bits }) s
  let s := cntSat 12 (s.fl.bits.contains ctrMax) s
  let s := onBlock die num (fun b => { b with reads := b.reads + 1 }) s
  match blockOf s die num with
  | some b =>
    if b.st == .closed && b.stream != 0 && (bits.any (fun n => s.opt.refreshBits ≤ n) || s.opt.readLimit ≤ b.reads) then statFl 4 (collectBlock b s) else s
  | none => s

/-- An uncorrectable page of an open superblock is rebuilt where its stripe has parity (R438). -/
def rebuilds (s : State) (b : Block) (page : Nat) : Bool := b.st == .open_ && s.fl.parity.contains (b.stream, page)

/-- An uncorrectable sector that is lost (R447). -/
def lostSector (s : State) : State := raise 38 2 (onFl (fun f => { f with uncorrectable := bump32 f.uncorrectable }) s)

/-- An uncorrectable sector of a page is rebuilt, or lost: then true (R438, R447). -/
def badSector (b : Block) (page : Nat) (s : State) : Bool × State := if rebuilds s b page then (false, statFl 5 s) else (true, lostSector s)

/-- Reads sector k of a command: true where its data cannot be had. -/
def readSector (lsa : Nat) (words : List Nat) (s : State) : Bool × State :=
  match Tab.get s.fl.host lsa with
  | none => (false, s)
  | some h =>
    match placeOf s lsa h with
    | none => (false, s)
    | some (b, page) =>
      let bad := words.any (40 < ·)
      let s := readWords b.die b.num words s
      if bad then badSector b page s else (false, s)

/-! ### Commands (class 0x90) -/

/-- Sectors of HOSTNS. -/
def hostSectors (s : State) : Nat := s.fl.hostMiB * 256

/-- Sectors are discarded: the map, and a DISCARD record in stream 1; its sequence number (R451). -/
def discard (lsa count : Nat) (s : State) : Nat × State :=
  let q := drawSeq s
  let rec_ : Sector := { lsa := 0, ns := 0x80, pad := false, copy := false, writeSeq := q.1, copySeq := 0, data := [], ranges := [(7, lsa, count)] }
  (q.1, enqueue 1 [rec_] q.2)

/-- HOSTNS_SET (R433). -/
def execHostnsSet (d : Nat) (s : State) : Out :=
  .next (hostCmd 0x90 d (fun _ => []) (fun x s =>
    let n := u32 x.bytes 16
    if n % 64 != 0 || 16384 < n then finish d 0x23 0 [] s
    else if s.fl.readOnly then finish d 0x21 0 [] s
    else
      let old := s.fl.hostMiB
      let s := if n < old then (discard (n * 256) ((old - n) * 256) s).2 else s
      finishOk d (toLE 4 n) (saveOpt (fun o => { o with hostMiB := n }) (onFl (fun f => { f with hostMiB := n }) s))) s)

/-- HOSTNS_READ. -/
def execHostnsRead (d : Nat) (corrected : List Nat) (s : State) : Out :=
  .next (hostCmd 0x91 d (fun b => [(inRange (u16 b 20) 1 256, 20), addrCheck b 24 4096]) (fun x s =>
    let lsa := u32 x.bytes 16
    let n := u16 x.bytes 20
    if hostSectors s < lsa + n then finish d 0x20 0 [] s
    else
      let r := (List.range n).foldl (fun (a : Option Nat × State) k =>
        let w := readSector (lsa + k) ((corrected.drop (4 * k)).take 4) a.2
        (if a.1.isNone && w.1 then some k else a.1, w.2)) (none, statFl 0 s)
      match r.1 with
      | some k => finish d 8 k [] r.2
      | none =>
        let data := (List.range n).flatMap (fun k => ((Tab.get r.2.fl.host (lsa + k)).map (·.data)).getD (List.replicate 4096 0))
        finishOk d [] (putOut d (u64 x.bytes 24) data r.2)) s)

/-- HOSTNS_WRITE (R435): it completes when its sectors are programmed. -/
def execHostnsWrite (d : Nat) (s : State) : Out :=
  .next (hostCmd 0x92 d (fun b => [(inRange (u16 b 20) 1 256, 20), addrCheck b 24 4096]) (fun x s =>
    let lsa := u32 x.bytes 16
    let n := u16 x.bytes 20
    if s.fl.readOnly then finish d 0x21 0 [] s
    else if hostSectors s < lsa + n then finish d 0x20 0 [] s
    else
      let first := s.fl.seq
      let secs := (chunks 4096 (x.input.getD [])).zipIdx.map (fun c =>
        { lsa := lsa + c.2, ns := 7, pad := false, copy := false, writeSeq := first + c.2, copySeq := 0, data := c.1, ranges := [] : Sector })
      let s := enqueue 1 secs (onFl (fun f =>
        { f with seq := f.seq + n, hostWrites := f.hostWrites ++ [{ desc := d, left := secs.map (·.writeSeq), result := toLE 8 first }] }) s)
      holdDesc d (statFl 1 s)) s)

/-- HOSTNS_DISCARD (R451): it completes when its record is programmed. -/
def execHostnsDiscard (d : Nat) (s : State) : Out :=
  .next (hostCmd 0x93 d (fun b => [(inRange (u32 b 20) 1 4194304, 20)]) (fun x s =>
    let lsa := u32 x.bytes 16
    let n := u32 x.bytes 20
    if s.fl.readOnly then finish d 0x21 0 [] s
    else if hostSectors s < lsa + n then finish d 0x20 0 [] s
    else
      let r := discard lsa n s
      holdDesc d (onFl (fun f => { f with hostWrites := f.hostWrites ++ [{ desc := d, left := [r.1], result := [] }] }) r.2)) s)

/-- FLASH_HEALTH_READ. -/
def execFlashHealthRead (d : Nat) (s : State) : Out :=
  .next (hostCmd 0x94 d (fun b => [addrCheck b 24 64]) (fun x s =>
    let f := s.fl
    let b := toLE 4 (spareLeft s) ++ toLE 2 (min 65535 (wearUsed s)) ++ [0, 0] ++ toLE 4 (maxErase s) ++ toLE 4 (minErase s) ++ toLE 4 f.grown ++
      toLE 4 factoryBadAll ++ toLE 4 f.uncorrectable ++ toLE 4 f.programFail ++ toLE 4 f.eraseFail ++ f.bits.flatMap (toLE 4) ++ f.temps.flatMap (toLE 4)
    finishOk d (toLE 4 (spareLeft s)) (putOut d (u64 x.bytes 24) (padTo 256 b) s)) s)

/-- FLASH_CHECKPOINT (R439): it completes when the root is programmed. -/
def execFlashCheckpoint (d : Nat) (s : State) : Out :=
  .next (hostCmd 0x95 d (fun _ => []) (fun _ s =>
    if s.fl.readOnly then finish d 0x21 0 [] s
    else if s.fl.running.isSome then finish d 0x22 0 [] s
    else if s.fl.mount = 0 then notAllowed d s
    else startCheckpoint (some d) (holdDesc d s)) s)

/-- FLASH_STATS. -/
def execFlashStats (d : Nat) (s : State) : Out :=
  .next (statsCmd 0x96 d 64 (fun s => s.fl.stats) (fun s => cntClear 12 (onFl (fun f => { f with stats := List.replicate 10 0 }) s)) (fun _ => []) s)

end Sys2Proof.Machine
end

