-- ==== Sys2Proof/Machine/If97.lean ====
section
/-! DEFINITION. The equations of IAPWS-IF97 that R205 names, in the form and order of R205 and R206. The coefficients are those of the
IF97 release, which the manual names and does not print: PRESUMED, log 16. -/
namespace Sys2Proof.Machine
open Sys2Proof

/-- A coefficient of region 1 or 2: powers I and J, and the value m × 10^k. -/
structure IfTerm where
  i : Int
  j : Int
  m : Int
  k : Int
  deriving DecidableEq, Repr

def region1a : List IfTerm :=
  [⟨0, -2, 14632971213167, -14⟩, ⟨0, -1, -84548187169114, -14⟩, ⟨0, 0, -37563603672040, -13⟩, ⟨0, 1, 33855169168385, -13⟩,
   ⟨0, 2, -95791963387872, -14⟩, ⟨0, 3, 15772038513228, -14⟩, ⟨0, 4, -16616417199501, -15⟩, ⟨0, 5, 81214629983568, -17⟩,
   ⟨1, -9, 28319080123804, -17⟩, ⟨1, -7, -60706301565874, -17⟩, ⟨1, -1, -18990068218419, -15⟩, ⟨1, 0, -32529748770505, -15⟩]

def region1b : List IfTerm :=
  [⟨1, 1, -21841717175414, -15⟩, ⟨1, 3, -52838357969930, -18⟩, ⟨2, -3, -47184321073267, -17⟩, ⟨2, 0, -30001780793026, -17⟩,
   ⟨2, 1, 47661393906987, -18⟩, ⟨2, 3, -44141845330846, -19⟩, ⟨2, 17, -72694996297594, -29⟩, ⟨3, -4, -31679644845054, -18⟩,
   ⟨3, 0, -28270797985312, -19⟩, ⟨3, 6, -85205128120103, -23⟩, ⟨4, -5, -22425281908000, -19⟩, ⟨4, -2, -65171222895601, -20⟩]

def region1c : List IfTerm :=
  [⟨4, 10, -14341729937924, -26⟩, ⟨5, -8, -40516996860117, -20⟩, ⟨8, -11, -12734301741641, -22⟩, ⟨8, -6, -17424871230634, -23⟩,
   ⟨21, -29, -68762131295531, -32⟩, ⟨23, -31, 14478307828521, -33⟩, ⟨29, -38, 26335781662795, -36⟩, ⟨30, -39, -11947622640071, -36⟩,
   ⟨31, -40, 18228094581404, -37⟩, ⟨32, -41, -93537087292458, -39⟩]

def region1 : List IfTerm := region1a ++ region1b ++ region1c

/-- Ideal-gas part of region 2; I is not used. -/
def region2o : List IfTerm :=
  [⟨0, 0, -96927686500217, -13⟩, ⟨0, 1, 10086655968018, -12⟩, ⟨0, -5, -56087911283020, -16⟩, ⟨0, -4, 71452738081455, -15⟩,
   ⟨0, -3, -40710498223928, -14⟩, ⟨0, -2, 14240819171444, -13⟩, ⟨0, -1, -43839511319450, -13⟩, ⟨0, 2, -28408632460772, -14⟩,
   ⟨0, 3, 21268463753307, -15⟩]

def region2a : List IfTerm :=
  [⟨1, 0, -17731742473213, -16⟩, ⟨1, 1, -17834862292358, -15⟩, ⟨1, 2, -45996013696365, -15⟩, ⟨1, 3, -57581259083432, -15⟩,
   ⟨1, 6, -50325278727930, -15⟩, ⟨2, 1, -33032641670203, -18⟩, ⟨2, 2, -18948987516315, -17⟩, ⟨2, 4, -39392777243355, -16⟩,
   ⟨2, 7, -43797295650573, -15⟩, ⟨2, 36, -26674547914087, -18⟩, ⟨3, 0, 20481737692309, -21⟩]

def region2b : List IfTerm :=
  [⟨3, 1, 43870667284435, -20⟩, ⟨3, 3, -32277677238570, -18⟩, ⟨3, 6, -15033924542148, -16⟩, ⟨3, 35, -40668253562649, -15⟩,
   ⟨4, 1, -78847309559367, -23⟩, ⟨4, 2, 12790717852285, -21⟩, ⟨4, 3, 48225372718507, -20⟩, ⟨5, 7, 22922076337661, -19⟩,
   ⟨6, 3, -16714766451061, -24⟩, ⟨6, 16, -21171472321355, -16⟩, ⟨6, 35, -23895741934104, -12⟩]

def region2c : List IfTerm :=
  [⟨7, 0, -59059564324270, -31⟩, ⟨7, 11, -12621808899101, -19⟩, ⟨7, 25, -38946842435739, -15⟩, ⟨8, 8, 11256211360459, -24⟩,
   ⟨8, 36, -82311340897998, -13⟩, ⟨9, 13, 19809712802088, -21⟩, ⟨10, 4, 10406965210174, -32⟩, ⟨10, 10, -10234747095929, -26⟩,
   ⟨10, 14, -10018179379511, -22⟩, ⟨16, 29, -80882908646985, -24⟩, ⟨16, 50, 10693031879409, -14⟩]

def region2d : List IfTerm :=
  [⟨18, 57, -33662250574171, -14⟩, ⟨20, 20, 89185845355421, -38⟩, ⟨20, 35, 30629316876232, -26⟩, ⟨20, 48, -42002467698208, -19⟩,
   ⟨21, 21, -59056029685639, -39⟩, ⟨22, 53, 37826947613457, -19⟩, ⟨23, 39, -12768608934681, -28⟩, ⟨24, 26, 73087610595061, -42⟩,
   ⟨24, 40, 55414715350778, -30⟩, ⟨24, 58, -94369707241210, -20⟩]

def region2r : List IfTerm := region2a ++ region2b ++ region2c ++ region2d

def IfTerm.n (t : IfTerm) : F64 := fDec t.m t.k

/-- ((n × k) × a) × b of R206. -/
def ifTerm (n : F64) (k : Int) (a b : F64) : F64 := fMul (fMul (fMul n (fOfInt k)) a) b

/-- v and h from γ_π and γ_τ (R206). -/
def ifVolume (p t pi gp : F64) : F64 :=
  fDiv (fMul (fMul pi gp) (fMul (fDec 461526 (-6)) t)) (fMul p (fOfNat 1000))
def ifEnthalpy (t tau gt : F64) : F64 := fMul (fMul tau gt) (fMul (fDec 461526 (-6)) t)

/-- Specific volume and enthalpy of region 1 at (p, T) (R206). -/
def ifRegion1 (p t : F64) : F64 × F64 :=
  let pi := fDiv p (fDec 1653 (-2))
  let tau := fDiv (fOfNat 1386) t
  let x := fSub (fDec 71 (-1)) pi
  let y := fSub tau (fDec 1222 (-3))
  let gp := region1.foldl (fun s c => fAdd s (ifTerm c.n (-c.i) (fPow x (c.i - 1)) (fPow y c.j))) fZero
  let gt := region1.foldl (fun s c => fAdd s (ifTerm c.n c.j (fPow x c.i) (fPow y (c.j - 1)))) fZero
  (ifVolume p t pi gp, ifEnthalpy t tau gt)

/-- Specific volume and enthalpy of region 2 at (p, T) (R206). -/
def ifRegion2 (p t : F64) : F64 × F64 :=
  let pi := p
  let tau := fDiv (fOfNat 540) t
  let y := fSub tau (fDec 5 (-1))
  let gp0 := fAdd fZero (fDiv fOne pi)
  let gt0 := region2o.foldl (fun s c => fAdd s (fMul (fMul c.n (fOfInt c.j)) (fPow tau (c.j - 1)))) fZero
  let gp := region2r.foldl (fun s c => fAdd s (ifTerm c.n c.i (fPow pi (c.i - 1)) (fPow y c.j))) gp0
  let gt := region2r.foldl (fun s c => fAdd s (ifTerm c.n c.j (fPow pi c.i) (fPow y (c.j - 1)))) gt0
  (ifVolume p t pi gp, ifEnthalpy t tau gt)

def ifN1 : F64 := fDec 11670521452767 (-10)
def ifN2 : F64 := fDec (-72421316703206) (-8)
def ifN3 : F64 := fDec (-17073846940092) (-12)
def ifN4 : F64 := fDec 12020824702470 (-9)
def ifN5 : F64 := fDec (-32325550322333) (-7)
def ifN6 : F64 := fDec 14915108613530 (-12)
def ifN7 : F64 := fDec (-48232657361591) (-10)
def ifN8 : F64 := fDec 40511340542057 (-8)
def ifN9 : F64 := fDec (-23855557567849) (-14)
def ifN10 : F64 := fDec 65017534844798 (-11)

/-- p_s(t) in MPa (R205). -/
def ifPs (t : F64) : F64 :=
  let th := fAdd t (fDiv ifN9 (fSub t ifN10))
  let tt := fMul th th
  let a := fAdd (fAdd tt (fMul ifN1 th)) ifN2
  let b := fAdd (fAdd (fMul ifN3 tt) (fMul ifN4 th)) ifN5
  let c := fAdd (fAdd (fMul ifN6 tt) (fMul ifN7 th)) ifN8
  let x := fDiv (fMul (fOfNat 2) c) (fAdd (fSub fZero b) (fSqrt (fSub (fMul b b) (fMul (fMul (fOfNat 4) a) c))))
  fMul (fMul (fMul x x) x) x

/-- T_s(p) in K (R205). -/
def ifTs (p : F64) : F64 :=
  let be := fSqrt (fSqrt p)
  let bb := fMul be be
  let e := fAdd (fAdd bb (fMul ifN3 be)) ifN6
  let f := fAdd (fAdd (fMul ifN1 bb) (fMul ifN4 be)) ifN7
  let g := fAdd (fAdd (fMul ifN2 bb) (fMul ifN5 be)) ifN8
  let d := fDiv (fMul (fOfNat 2) g) (fSub (fSub fZero f) (fSqrt (fSub (fMul f f) (fMul (fMul (fOfNat 4) e) g))))
  let s := fAdd ifN10 d
  fDiv (fSub s (fSqrt (fSub (fMul s s) (fMul (fOfNat 4) (fAdd ifN9 (fMul ifN10 d)))))) (fOfNat 2)

end Sys2Proof.Machine
end

