-- ==== Sys2Proof/Machine/Profile.lean ====
section
/-! DEFINITION. The meter profile's body: its fields, and the checks that PROFILE_SET makes of them (R147, R186, R199, R200, R220,
R252, R268). -/
namespace Sys2Proof.Machine
open Sys2Proof

/-! General part (R147). -/
def pfMedium (b : Bytes) : Nat := u8 b 2
def pfQuantities (b : Bytes) : Nat := u8 b 3
def pfAgeLimit (b : Bytes) : Nat := u32 b 4
def pfLinks (b : Bytes) : Nat := u8 b 8
def pfHyst (b : Bytes) : Nat := u8 b 9
def pfHold (b : Bytes) : Nat := u16 b 10
def pfWake (b : Bytes) : Nat := u32 b 12

/-! Validation block (R186). -/
def pfAction (b : Bytes) (k : Nat) : Nat := bits (u16 b 64) (2 * k + 1) (2 * k)
def pfStatusMask (b : Bytes) : Nat := u16 b 66
/-- GAP_LIMIT in seconds; 0 means 3 × WAKE_PERIOD. -/
def pfGapLimit (b : Bytes) : Nat := if u32 b 68 = 0 then 3 * pfWake b else u32 b 68
def pfFutureLimit (b : Bytes) : Nat := u16 b 72
def pfPtMargin (b : Bytes) : Nat := u16 b 74
def pfPtMode (b : Bytes) : Nat := u8 b 76

/-- An element rule (R186). -/
structure Rule where
  kind : Nat
  exp : Int
  digits : Nat
  rateMax : Nat
  min : Int
  max : Int
  deriving DecidableEq, Repr

def pfRule (b : Bytes) (i : Nat) : Rule :=
  let o := 80 + 24 * i
  { kind := u8 b o, exp := i8 b (o + 1), digits := u8 b (o + 2), rateMax := u32 b (o + 4), min := i64 b (o + 8),
    max := i64 b (o + 16) }

def pfRules (b : Bytes) : List Rule := (List.range 8).map (pfRule b)
/-- The used rules with their positions. -/
def pfUsed (b : Bytes) : List (Nat × Rule) := ((List.range 8).map (fun i => (i, pfRule b i))).filter (fun p => p.2.kind != 0)

def isTotaliser (kind : Nat) : Bool := kind == 1 || kind == 2 || kind == 3
def isKind (kind : Nat) : Bool := isTotaliser kind || kind == 0x10 || kind == 0x11 || kind == 0x12 || kind == 0x13 || kind == 0x20 || kind == 0x21

/-! Conversion block (R199). -/
def pfMethod (b : Bytes) : Nat := u8 b 272
def pfStateSrc (b : Bytes) : Nat := u8 b 273
def pfBasis (b : Bytes) : Nat := u8 b 274
def pfPtAvg (b : Bytes) : Bool := bit (u8 b 275) 0
def pfMassSide (b : Bytes) : Bool := bit (u8 b 275) 1
def pfVirial (b : Bytes) : Nat := u8 b 276
def pfFixedP (b : Bytes) : F64 := f64 b 280
def pfFixedT (b : Bytes) : F64 := f64 b 288
def pfRefP (b : Bytes) : F64 := f64 b 296
def pfRefT (b : Bytes) : F64 := f64 b 304
def pfMolar (b : Bytes) : F64 := f64 b 312
def pfOut (b : Bytes) (q : Nat) : Nat := u8 b (320 + q) / 16
def pfOutPos (b : Bytes) (q : Nat) : Nat := u8 b (320 + q) % 16

/-! Register block (R220). -/
def pfE (b : Bytes) (q : Nat) : Int := i8 b (400 + q)
def pfDigits (b : Bytes) (q : Nat) : Nat := u8 b (404 + q)
/-- DEMAND_Q; none: no demand. -/
def pfDemandQ (b : Bytes) : Option Nat := if u8 b 408 = 255 then none else some (u8 b 408)
def pfDemandLen (b : Bytes) : Nat := u8 b 409
def pfSubLen (b : Bytes) : Nat := u8 b 410
def pfSubCount (b : Bytes) : Nat := u8 b 411
def pfBillCal (b : Bytes) : Nat := u8 b 412

/-! Prepayment block (R252). -/
def pfPrepayAllowed (b : Bytes) : Bool := bit (u8 b 448) 0
def pfFriendly (b : Bytes) : Bool := bit (u8 b 448) 1
def pfPriceQ (b : Bytes) : Nat := u8 b 449
def pfRetryTime (b : Bytes) : Nat := u16 b 450
def pfArmMin (b : Bytes) : Nat := u32 b 452
def pfAllow (b : Bytes) (level : Nat) : Nat := if level = 0 then 0 else u32 b (452 + 4 * level)
def pfRate (b : Bytes) (k : Nat) : Nat := u32 b (472 + 4 * k)

/-! Accuracy and indicator block (R268): a field of value 0 selects its default. -/
def orDefault (v d : Nat) : Nat := if v = 0 then d else v
def pfRelPpm (b : Bytes) (q : Nat) : Nat := orDefault (u32 b (544 + 4 * q)) 20000
def pfFloor (b : Bytes) (q : Nat) : Nat := orDefault (u32 b (560 + 4 * q)) 1
def pfIndMask (b : Bytes) : Nat := orDefault (u16 b 576) 0xFF
def pfFpLimit (b : Bytes) : Nat := orDefault (u8 b 578) 24
def pfFpConfirm (b : Bytes) : Nat := orDefault (u8 b 579) 3
def pfTimingLimit (b : Bytes) : Nat := orDefault (u16 b 580) 200
def pfPhaseConfMin (b : Bytes) : Nat := orDefault (u8 b 582) 192
def pfPhaseConfirm (b : Bytes) : Nat := orDefault (u8 b 583) 3
def pfRssiShift (b : Bytes) : Nat := orDefault (u8 b 584) 10
def pfCfoShift (b : Bytes) : Nat := orDefault (u8 b 585) 20
def pfRadioConfirm (b : Bytes) : Nat := orDefault (u8 b 586) 3
def pfReplayInd (b : Bytes) : Nat := orDefault (u8 b 587) 3
def pfZeroRun (b : Bytes) : Nat := orDefault (u16 b 588) 96
def pfSkewLimit (b : Bytes) : Nat := orDefault (u16 b 590) 2000
def pfSkewConfirm (b : Bytes) : Nat := orDefault (u8 b 592) 3

/-! Checks. Each gives the offsets of the bytes in fault; PROFILE_SET reports the lowest (R200). Which byte stands for a fault of
several fields: log 17. -/

def faultIf (c : Bool) (o : Nat) : List Nat := if c then [o] else []
/-- Bytes of a reserved range that are not zero. -/
def nonZeroIn (b : Bytes) (o n : Nat) : List Nat := ((List.range n).map (o + ·)).filter (fun k => u8 b k != 0)

def lengths60 : List Nat := [1, 2, 3, 4, 5, 6, 10, 12, 15, 20, 30, 60]
def lengths15 : List Nat := [1, 2, 3, 4, 5, 6, 10, 12, 15]

/-- Fields of R147. -/
def pfFaultGeneral (id : Nat) (b : Bytes) : List Nat :=
  faultIf (u16 b 0 != id) 0 ++ faultIf (pfMedium b > 6) 2 ++ faultIf (!(([1, 2, 4] : List Nat).contains (pfQuantities b))) 3 ++
  faultIf (pfAgeLimit b != 0 && (pfAgeLimit b < 60 || pfAgeLimit b > 31536000)) 4 ++ faultIf (pfHyst b > 30) 9 ++ nonZeroIn b 16 48

def hasRule (b : Bytes) (kind : Nat) : Bool := (pfRules b).any (fun r => r.kind == kind)

/-- Fields of one element rule (R186). -/
def pfFaultRule (b : Bytes) (i : Nat) : List Nat :=
  let o := 80 + 24 * i
  let r := pfRule b i
  if r.kind = 0 then nonZeroIn b o 24
  else
    faultIf (!isKind r.kind) o ++ faultIf (r.exp < -12 || 6 < r.exp) (o + 1) ++
    faultIf (if isTotaliser r.kind then r.digits != 0 && (r.digits < 6 || 15 < r.digits) else r.digits != 0) (o + 2) ++
    nonZeroIn b (o + 3) 1

/-- The validation block (R186). -/
def pfFaultValidation (b : Bytes) : List Nat :=
  (List.range 8).flatMap (fun k => faultIf (pfAction b k == 3 || (k == 4 && pfAction b k == 1)) (64 + k / 4)) ++
  faultIf (bit (pfStatusMask b) 7) 66 ++
  faultIf (pfPtMode b ≥ 3 || (pfPtMode b != 0 && (!hasRule b 0x10 || !hasRule b 0x11))) 76 ++ nonZeroIn b 77 3 ++
  (List.range 8).flatMap (pfFaultRule b)

def badState (lo hi x : F64) : Bool := !(fLe lo x && fLe x hi)
/-- p outside 0.05–10 MPa, T outside 273.15–873.15 K, or not finite (R200, R211). -/
def badP (x : F64) : Bool := badState (fDec 5 (-2)) (fOfNat 10) x
def badT (x : F64) : Bool := badState (fDec 27315 (-2)) (fDec 87315 (-2)) x

/-- The KIND of the converted totaliser by the rules: 1, 2 or none (R196). -/
def pfConverted (b : Bytes) : Option Nat := if hasRule b 1 then some 1 else if hasRule b 2 then some 2 else none

def pfOuts (b : Bytes) : List Nat := (List.range (min 4 (pfQuantities b))).map (pfOut b)

/-- METHOD 3 uses MOLAR_MASS (R200, R210). -/
def pfUsesMolar (b : Bytes) : Bool :=
  pfMethod b == 3 &&
    ((pfConverted b == some 2 && ((pfOuts b).contains 3 || (pfOuts b).contains 4)) || (pfConverted b == some 1 && (pfOuts b).contains 1))

def methodSuits (m medium : Nat) : Bool :=
  match m with
  | 0 => true
  | 1 => medium == 1
  | 2 => medium == 0 || medium == 2 || medium == 3
  | 3 => medium == 4 || medium == 5
  | _ => false

def outAllowed (m src : Nat) : Bool :=
  match src with
  | 0 => true
  | 1 => m == 1 || m == 2 || m == 3
  | 2 => m == 1 || m == 2
  | 3 => m == 1 || m == 2 || m == 3
  | 4 => m == 3
  | 5 => true
  | _ => false

/-- One OUT byte (R198, R200). -/
def pfFaultOut (b : Bytes) (q : Nat) : List Nat :=
  let src := pfOut b q
  let pos := pfOutPos b q
  faultIf (if pfQuantities b ≤ q then u8 b (320 + q) != 0
    else !outAllowed (pfMethod b) src || (if src == 5 then 8 ≤ pos || !isTotaliser (pfRule b pos).kind else pos != 0)) (320 + q)

/-- The conversion block (R199, R200). `loaded`: virial tables that have been loaded. -/
def pfFaultConversion (loaded : Nat → Bool) (b : Bytes) : List Nat :=
  let m := pfMethod b
  let ss := pfStateSrc b
  let bs := pfBasis b
  let thermo := m == 1 || m == 2
  let state := thermo || m == 3
  let ref := (thermo && bs == 1) || m == 3
  faultIf (!methodSuits m (pfMedium b)) 272 ++
  faultIf (state && (ss > 4 || (m == 3 && (ss == 1 || ss == 2)))) 273 ++
  faultIf (state && (((ss == 0 || ss == 1) && !hasRule b 0x10) || ((ss == 0 || ss == 2 || ss == 3) && !hasRule b 0x11))) 273 ++
  faultIf (thermo && (bs > 2 || (m == 1 && bs == 2))) 274 ++ faultIf (thermo && bs == 2 && !hasRule b 0x12) 274 ++
  faultIf (u8 b 275 > 3) 275 ++ faultIf (m == 3 && (pfVirial b > 15 || !loaded (pfVirial b))) 276 ++ nonZeroIn b 277 3 ++
  faultIf (state && (ss == 3 || ss == 4) && badP (pfFixedP b)) 280 ++ faultIf (state && ss == 4 && badT (pfFixedT b)) 288 ++
  faultIf (ref && badP (pfRefP b)) 296 ++ faultIf (ref && badT (pfRefT b)) 304 ++
  faultIf (thermo && bs == 1 && !badP (pfRefP b) && !badT (pfRefT b) && !fLt (pfRefT b) (ifTs (pfRefP b))) 296 ++
  faultIf (m == 3 && pfMedium b == 4 && pfRefP b != fDec 1 (-1)) 296 ++
  faultIf (m == 3 && pfMedium b == 4 && pfRefT b != fDec 29315 (-2)) 304 ++
  faultIf (pfUsesMolar b && !(fFinite (pfMolar b) && fLt fZero (pfMolar b))) 312 ++
  (List.range 4).flatMap (pfFaultOut b) ++ nonZeroIn b 324 76

/-- The register block (R220). -/
def pfFaultRegister (b : Bytes) : List Nat :=
  let n := pfQuantities b
  (List.range 4).flatMap (fun q =>
    faultIf (if q < n then pfE b q < -12 || 12 < pfE b q else u8 b (400 + q) != 0) (400 + q) ++
    faultIf (if q < n then pfDigits b q < 6 || 15 < pfDigits b q else u8 b (404 + q) != 0) (404 + q)) ++
  (match pfDemandQ b with
    | none => []
    | some q => faultIf (n ≤ q) 408 ++ faultIf (!lengths60.contains (pfDemandLen b)) 409) ++
  faultIf (if n == 4 then !lengths15.contains (pfSubLen b) else pfSubLen b != 0) 410 ++
  faultIf (if n == 4 then pfSubCount b < 1 || 15 < pfSubCount b else pfSubCount b != 0) 411 ++
  faultIf (pfBillCal b > 3) 412 ++ nonZeroIn b 413 35

/-- The prepayment block (R252). -/
def pfFaultPrepay (b : Bytes) : List Nat :=
  faultIf (u8 b 448 > 3) 448 ++ faultIf (pfPriceQ b > 1) 449 ++ faultIf (pfRetryTime b < 60) 450 ++ nonZeroIn b 468 4 ++ nonZeroIn b 536 8

def outside (v lo hi : Nat) : Bool := v != 0 && (v < lo || hi < v)

/-- The accuracy and indicator block (R268). -/
def pfFaultAccuracy (b : Bytes) : List Nat :=
  (List.range 4).flatMap (fun q => faultIf (outside (u32 b (544 + 4 * q)) 1 1000000) (544 + 4 * q)) ++
  nonZeroIn b 577 1 ++ faultIf (outside (u8 b 578) 4 200) 578 ++ faultIf (outside (u8 b 579) 1 15) 579 ++
  faultIf (outside (u16 b 580) 10 5000) 580 ++ faultIf (outside (u8 b 583) 1 15) 583 ++ faultIf (outside (u8 b 584) 3 40) 584 ++
  faultIf (outside (u8 b 585) 5 100) 585 ++ faultIf (outside (u8 b 586) 1 15) 586 ++ faultIf (outside (u16 b 590) 10 60000) 590 ++
  faultIf (outside (u8 b 592) 1 15) 592 ++ nonZeroIn b 593 431

/-- All faults of a profile's body. -/
def pfFaults (id : Nat) (loaded : Nat → Bool) (b : Bytes) : List Nat :=
  pfFaultGeneral id b ++ pfFaultValidation b ++ pfFaultConversion loaded b ++ pfFaultRegister b ++ pfFaultPrepay b ++ pfFaultAccuracy b

/-- The lowest byte offset in fault; none: the body is accepted. -/
def profileFault (id : Nat) (loaded : Nat → Bool) (b : Bytes) : Option Nat := (pfFaults id loaded b).min?

end Sys2Proof.Machine
end

