-- ==== Sys2Proof/Machine/Posting.lean ====
section
/-! DEFINITION. What a posting does to a ledger record (chapter 10): registers and rollover, tariff periods, the apportioning of an
increment, demand intervals, and the custody minutes and subintervals. Instants are READ_TIME values, 1/65,536 s of TAI. -/
namespace Sys2Proof.Machine
open Sys2Proof

/-- READ_TIME units in a second. -/
def unitsPerSec : Int := 65536

/-! ### Registers (R219, R221) -/

/-- Adds n to the register r of quantity q: the registers, the rollover count, and whether it rolled over. -/
def postRegister (tot : Tab Int) (roll rollMax r digits : Nat) (n : Int) : Tab Int × Nat × Bool :=
  let m : Int := 10 ^ digits
  let sum := Tab.getD tot r 0 + n
  (Tab.setInt tot r (sum % m), if m ≤ sum then min (roll + (sum / m).toNat) rollMax else roll, m ≤ sum || sum < 0)

/-! ### The tariff timeline (R227) -/

/-- A tariff timeline: newest change first. -/
abbrev Timeline := List (Int × Nat × Nat × Bool)

def unitsOf (ns : Int) : Int := ns * unitsPerSec / 1000000000

/-- Period at an instant, and whether the reading is older than every change held. -/
def periodAt (l : Timeline) (t : Int) : Nat × Bool :=
  match l.find? (fun c => unitsOf c.1 < t), l.getLast? with
  | some c, _ => (c.2.1, false)
  | none, some o => (o.2.2.1, t < unitsOf o.1)
  | none, none => (0, false)

/-- The period in force now (R226). -/
def periodNow (l : Timeline) : Nat := (l.head?.map (·.2.1)).getD 0

/-! ### Elapsed time and parts (R229, R238) -/

/-- The stretches in which the clock ran from t_last to t; a step ends one at the old time and opens the next at the new. -/
def clockRuns (a t : Int) : List (Int × Int) → List (Int × Int)
  | [] => [(a, t)]
  | (old, new) :: r => (a, old) :: clockRuns new t r

/-- X: the time elapsed over all stretches. -/
def elapsed (runs : List (Int × Int)) : Int := (runs.map (fun r => r.2 - r.1)).sum

/-- x(b): the time elapsed until the clock first reaches b. -/
def elapsedTo (b : Int) : List (Int × Int) → Int
  | [] => 0
  | [(a, e)] => clampInt 0 (e - a) (b - a)
  | (a, e) :: r => if b ≤ e then clampInt 0 (e - a) (b - a) else (e - a) + elapsedTo b r

/-- The parts of n at rising elapsed times: one part before each, and the rest. -/
def apportion (n total : Int) (xs : List Int) : List Int :=
  if total ≤ 0 then xs.map (fun _ => 0) ++ [n]
  else
    let p := xs.map (fun x => ratHalfEven (n * x) total.toNat)
    List.zipWith (· - ·) (p ++ [n]) (0 :: p)

/-! ### Intervals of a grid (R230, R231, R238) -/

/-- Start of the interval of `len` seconds that holds a TAI second; `off` leads from TAI to standard billing time. -/
def gridStart (off len t : Int) : Int := (t + off) / len * len - off

/-- An interval that closes: the time elapsed at its close, its start and nominal end in TAI seconds, and that a step split it. -/
structure Cut where
  x : Int
  start : Int
  stop : Int
  split : Bool
  deriving DecidableEq, Repr

/-- The open interval while the clock runs on, with the closes met so far, newest first. -/
structure Walk where
  start : Int
  stop : Int
  x : Int
  split : Bool
  cuts : List Cut
  deriving DecidableEq, Repr

def closeUpF (len : Int) : Nat → Int × Int → Walk → Walk
  | 0, _, w => w
  | f + 1, r, w =>
    if w.stop * unitsPerSec ≤ r.2 then
      closeUpF len f r
        { w with
          start := w.stop, stop := w.stop + len, split := false
          cuts := { x := w.x + max 0 (w.stop * unitsPerSec - r.1), start := w.start, stop := w.stop, split := w.split } :: w.cuts }
    else w

/-- The clock runs over one stretch: every interval whose end it reaches closes there. -/
def walkRun (len : Int) (r : Int × Int) (w : Walk) : Walk :=
  let w := closeUpF len ((r.2 / unitsPerSec - w.stop) / len + 1).toNat r w
  { w with x := w.x + (r.2 - r.1) }

/-- The clock steps: the interval that is open by then is split, and closes at the step where the new time lies past its end. -/
def walkStep (off len old new : Int) (w : Walk) : Walk :=
  if old < w.start * unitsPerSec && new < w.stop * unitsPerSec then w
  else if w.stop * unitsPerSec ≤ new then
    let g := gridStart off len (new / unitsPerSec)
    { w with
      start := g, stop := g + len, split := false
      cuts := { x := w.x, start := w.start, stop := w.stop, split := true } :: w.cuts }
  else { w with split := true }

def walkAll (off len : Int) : List (Int × Int) → Walk → Walk
  | [], w => w
  | [r], w => walkRun len r w
  | r :: q :: rest, w => walkAll off len (q :: rest) (walkStep off len r.2 q.1 (walkRun len r w))

/-- The open interval that starts at a TAI second, before the clock runs on; it ends on the grid, a leap second longer or shorter
where one lay in it (R349). -/
def Walk.at (off start len : Int) : Walk :=
  { start := start, stop := gridStart off len (start + len + len / 2), x := 0, split := false, cuts := [] }

/-- The grid points from after a TAI time up to a second, as elapsed times: the bounds of intervals already closed (R233). -/
def lateBounds (off len : Int) (tLast stop : Int) (runs : List (Int × Int)) : List Int :=
  let g := gridStart off len (tLast / unitsPerSec)
  ((List.range ((stop - g) / len).toNat).map (fun k : Nat => elapsedTo ((g + len * ((k : Int) + 1)) * unitsPerSec) runs))

/-- The grid points strictly between two instants, in READ_TIME units. -/
def gridBetween (off len a t : Int) : List Int :=
  let g := gridStart off len (a / unitsPerSec)
  ((List.range ((t / unitsPerSec - g) / len).toNat).map (fun k : Nat => (g + len * ((k : Int) + 1)) * unitsPerSec)).filter (fun b => a < b && b < t)

/-- An increment over a grid: what falls in closed intervals and how many parts of it are not zero, the part of each interval that
closes, and what stays in the interval left open. -/
structure Shares where
  late : Int
  lateParts : Nat
  closed : List (Cut × Int)
  rest : Int
  opened : Walk
  deriving DecidableEq, Repr

/-- The shares of n when `start` opens the open interval; intervals that end at or before `lateTo` are closed (R229, R231, R233). -/
def sharesOf (off len : Int) (runs : List (Int × Int)) (start : Int) (lateTo : Option Int) (n : Int) : Shares :=
  let total := elapsed runs
  if runs.isEmpty || total ≤ 0 then
    { late := 0, lateParts := 0, closed := [], rest := n, opened := Walk.at off start len }
  else
    let w := walkAll off len runs (Walk.at off start len)
    let tLast := (runs.head?.map (·.1)).getD 0
    let lb := match lateTo with
      | some t => lateBounds off len tLast t runs
      | none => []
    let cuts := w.cuts.reverse
    let parts := apportion n total (lb ++ cuts.map (·.x))
    let late := parts.take lb.length
    let open_ := parts.drop lb.length
    { late := late.sum, lateParts := (late.filter (· != 0)).length, closed := cuts.zip open_, rest := open_.getLastD 0, opened := w }

/-! ### Outages (R243) -/

/-- An outage that ended in an instant-unknown change overlaps the span from a to b. -/
def overlapsUnknown (outages : List (Int × Int × Bool)) (a b : Int) : Bool :=
  outages.any (fun o => o.2.2 && unitsOf o.1 < b && a < unitsOf o.2.1)

/-! ### Demand of a standard meter (R223, R231, R233) -/

/-- Saturation of DEM_ACC and MD. -/
def satDemand (v : Int) : Int := clampInt (-(2 ^ 31 - 1)) (2 ^ 31 - 1) v
def demandSat (v : Int) : Nat := b2n (satDemand v != v)

/-- The open demand interval of a standard record starts here (R222, R233). -/
def stdOpen (off len : Int) (lastTime : Int) (r : Std) : Int := gridStart off len (max (lastTime / unitsPerSec) (r.closedTo : Int))

/-- One demand interval closes (R231): the record, and how many values saturated. -/
def closeStdInterval (len : Int) (outages : List (Int × Int × Bool)) (c : Cut) (r : Std) : Std × Nat :=
  let d := r.demAcc * (3600 / len)
  let part := r.accPartial || overlapsUnknown outages (c.start * unitsPerSec) (c.stop * unitsPerSec)
  let v := satDemand d
  let r2 := if r.md < v then { r with md := v, mdTime := c.stop.toNat, mdPartial := part, mdEstimated := r.accEstimated } else r
  ({ r2 with demAcc := 0, accEstimated := false, accPartial := false }, demandSat d)

/-- Consumption enters the open interval. -/
def addDemand (n : Int) (est : Bool) (r : Std) : Std × Nat :=
  let v := r.demAcc + n
  ({ r with demAcc := satDemand v, accEstimated := r.accEstimated || est }, demandSat v)

/-- The demand of a posting: the record, saturations and late parts. The first posting of a meter only opens the interval. -/
def stdDemand (off len : Int) (outages : List (Int × Int × Bool)) (runs : List (Int × Int)) (lastTime : Int) (est : Bool) (n : Int)
    (r : Std) : Std × Nat × Nat :=
  let start := stdOpen off len lastTime r
  let sh := sharesOf off len runs start (if lastTime < start * unitsPerSec then some start else none) n
  let step := fun (a : Std × Nat) (p : Cut × Int) =>
    let b := addDemand p.2 est a.1
    let c := closeStdInterval len outages p.1 b.1
    (c.1, a.2 + b.2 + c.2)
  let (r1, k1) := sh.closed.foldl step (r, 0)
  let (r2, k2) := addDemand sh.rest est r1
  let keep := if elapsed runs ≤ 0 && !runs.isEmpty then { r2 with closedTo := max r2.closedTo start.toNat } else r2
  (keep, k1 + k2, sh.lateParts)

/-! ### Custody intervals (R232, R238, R239, R246) -/

/-- Flags of fixed intervals and subintervals: 0 PARTIAL, 1 SPLIT, 2 ESTIMATED, 3 CLOCK_INVALID, 4 SINGLE_PATH (R224). -/
def fixBits (partial_ split est invalid single : Bool) : Nat :=
  b2n partial_ + 2 * b2n split + 4 * b2n est + 8 * b2n invalid + 16 * b2n single

/-- Flags of minutes: 0 ESTIMATED, 1 SPLIT, 2 PARTIAL, 3 LATE, 4 CLOCK_INVALID, 5 INSTANT_UNKNOWN, 6 SINGLE_PATH, 7 ROLLOVER (R246). -/
def minBits (est split partial_ late invalid unknown single roll : Bool) : Nat :=
  b2n est + 2 * b2n split + 4 * b2n partial_ + 8 * b2n late + 16 * b2n invalid + 32 * b2n unknown + 64 * b2n single + 128 * b2n roll

def orNat (a b : Nat) : Nat := a ||| b

/-- What a posting tells the custody intervals it touches. -/
structure Marks where
  est : Bool
  late : Bool
  invalid : Bool
  unknown : Bool
  single : Bool
  roll : Bool
  deriving DecidableEq, Repr

/-- The profile's demand settings of a custody channel. -/
structure DemandSet where
  off : Int
  q : Option Nat
  len : Int
  subLen : Int
  subCount : Nat
  outages : List (Int × Int × Bool)
  timeline : Timeline
  deriving DecidableEq, Repr

def cutPartial (d : DemandSet) (c : Cut) : Bool := overlapsUnknown d.outages (c.start * unitsPerSec) (c.stop * unitsPerSec)

/-- A fixed interval closes: its demand is not scaled for the time it lasted (R238). -/
def closeFix (d : DemandSet) (m : Marks) (p : Cut × Int) (r : Cust) : Cust × Nat :=
  let acc := r.fixAcc + p.2
  let dem := acc * (3600 / d.len)
  let fl := orNat r.fixFlags (fixBits (cutPartial d p.1) p.1.split m.est m.invalid m.single)
  let r := if r.fixMd < dem then { r with fixMd := dem, fixMdTime := p.1.stop.toNat, fixMdFlags := fl } else r
  ({ r with fixAcc := 0, fixFlags := 0 }, b2n (bit fl 1))

/-- Ring slot k places behind the newest. -/
def ringBack (head k : Nat) : Nat := (head + 15 - k) % 15

/-- A subinterval closes into the ring, and the window's demand is formed (R232). -/
def closeSub (d : DemandSet) (m : Marks) (p : Cut × Int) (r : Cust) : Cust :=
  let fl := orNat r.subOpenFlags (fixBits (cutPartial d p.1) p.1.split m.est m.invalid m.single)
  let h := if r.subFilled = 0 then 0 else (r.subHead + 1) % 15
  let r := { r with subAcc := setAt r.subAcc h (r.subOpen + p.2), subFlags := setAt r.subFlags h fl, subHead := h
                    subFilled := min 15 (r.subFilled + 1), subOpen := 0, subOpenFlags := 0 }
  if r.subFilled < d.subCount then r
  else
    let ks := (List.range d.subCount).map (ringBack h)
    let dem := ratHalfEven ((ks.map (fun k => r.subAcc.getD k 0)).sum * 3600) ((d.subCount : Int) * d.subLen).toNat
    if r.slideMd < dem then
      { r with slideMd := dem, slideMdTime := p.1.stop.toNat, slideMdFlags := (ks.map (fun k => r.subFlags.getD k 0)).foldl orNat 0 }
    else r

/-- A minute closes: its entry (R246), and the record with the next minute open. -/
def closeMinute (d : DemandSet) (m : Marks) (c : Cut) (parts : List Int) (r : Cust) : Cust × Minute :=
  let fl := orNat r.minFlags (minBits m.est c.split (cutPartial d c) m.late m.invalid m.unknown m.single m.roll)
  let qs := (List.range 4).map (fun q => r.minAcc.getD q 0 + parts.getD q 0)
  ({ r with minAcc := [0, 0, 0, 0], minFlags := 0 },
    { minute := ((c.start + d.off) / 60).toNat, tariff := (periodAt d.timeline (c.stop * unitsPerSec)).1, flags := fl, q := qs })

/-- The fixed interval after a posting of n: the record, splits and late parts. -/
def custFix (d : DemandSet) (m : Marks) (runs : List (Int × Int)) (lateTo : Option Int) (n : Int) (r : Cust) : Cust × Nat × Nat :=
  let sh := sharesOf d.off d.len runs r.fixStart lateTo n
  let (r, k) := sh.closed.foldl (fun (a : Cust × Nat) p => let b := closeFix d m p a.1; (b.1, a.2 + b.2)) (r, 0)
  ({ r with fixStart := sh.opened.start.toNat, fixAcc := r.fixAcc + sh.rest
            fixFlags := orNat r.fixFlags (fixBits false sh.opened.split m.est false m.single) }, k, sh.lateParts)

def custSub (d : DemandSet) (m : Marks) (runs : List (Int × Int)) (lateTo : Option Int) (n : Int) (r : Cust) : Cust :=
  if d.subLen = 0 then r
  else
    let sh := sharesOf d.off d.subLen runs r.subStart lateTo n
    let r := sh.closed.foldl (fun r p => closeSub d m p r) r
    { r with subStart := sh.opened.start.toNat, subOpen := r.subOpen + sh.rest
             subOpenFlags := orNat r.subOpenFlags (fixBits false sh.opened.split m.est false m.single) }

/-- The minutes after a posting: every quantity is apportioned at the same boundaries. -/
def custMinutes (d : DemandSet) (m : Marks) (runs : List (Int × Int)) (lateTo : Option Int) (ns : List Int) (r : Cust) :
    Cust × List Minute :=
  let start : Int := 60 * (r.minIndex : Int) - d.off
  let shs := (List.range 4).map (fun q => sharesOf d.off 60 runs start lateTo (ns.getD q 0))
  let w := (shs.head?.map (·.opened)).getD (Walk.at d.off start 60)
  let cuts := (shs.head?.map (fun s => s.closed.map (·.1))).getD []
  let step := fun (a : Cust × List Minute) (p : Cut × Nat) =>
    let parts := shs.map (fun s => (s.closed.map (·.2)).getD p.2 0)
    let b := closeMinute d m p.1 parts a.1
    (b.1, a.2 ++ [b.2])
  let (r, ms) := cuts.zipIdx.foldl step (r, [])
  ({ r with minIndex := ((w.start + d.off) / 60).toNat
            minAcc := (List.range 4).map (fun q => r.minAcc.getD q 0 + ((shs.map (·.rest)).getD q 0))
            minFlags := orNat r.minFlags (minBits m.est w.split false m.late false m.unknown m.single m.roll) }, ms)

/-- The intervals that hold t are opened: the channel's first posting. -/
def custOpen (d : DemandSet) (t : Int) (r : Cust) : Cust :=
  let sec := t / unitsPerSec
  { r with
    fixStart := if d.len = 0 then 0 else (gridStart d.off d.len sec).toNat
    subStart := if d.subLen = 0 then 0 else (gridStart d.off d.subLen sec).toNat
    minIndex := ((sec + d.off) / 60).toNat }

/-! ### Registers of a posting (R228) -/

/-- The tariff changes between t_last and t as rising elapsed times, with the period each ends (R228, R229). -/
def tariffBounds (tl : Timeline) (runs : List (Int × Int)) : List (Int × Nat) :=
  let total := elapsed runs
  ((tl.reverse.filter (fun c => runs.any (fun r => r.1 < unitsOf c.1 && unitsOf c.1 ≤ r.2))).map
    (fun c => (elapsedTo (unitsOf c.1) runs, c.2.2.1))).filter (fun p => 0 < p.1 && p.1 < total)

/-- The parts of n by period, oldest first: the last goes to the period at t. -/
def tariffParts (tl : Timeline) (runs : List (Int × Int)) (n : Int) (last : Nat) : List (Nat × Int) :=
  let b := tariffBounds tl runs
  (b.map (·.2) ++ [last]).zip (apportion n (elapsed runs) (b.map (·.1)))

/-- Posts parts of quantity q into its registers. -/
def postParts (rollMax q digits : Nat) (parts : List (Nat × Int)) (a : Tab Int × Nat × Bool) : Tab Int × Nat × Bool :=
  parts.foldl (fun a p =>
    let b := postRegister a.1 a.2.1 rollMax (16 * q + p.1) digits p.2
    (b.1, b.2.1, a.2.2 || b.2.2)) a

end Sys2Proof.Machine
end

