-- ==== Sys2Proof/Machine/Tariff.lean ====
section
/-! DEFINITION. Time scales of billing (R230, R348), friendly hours (R258, R259), the instants of a billing calendar (R234), and the
source of the tariff period in force (R225, R226). -/
namespace Sys2Proof.Machine
open Sys2Proof

/-! ### Billing time -/

/-- DST in minutes at a UTC second: the last entry at or before it (R348). -/
def dstAt (z : Zone) (utc : Int) : Int := z.dst.foldl (fun d e => if (e.1 : Int) ≤ utc then e.2 else d) 0

/-- Billing time of a TAI second. -/
def billingAt (s : State) (tai : Int) : Int :=
  let utc := tai - utcOffset s
  utc + 60 * (s.tm.zone.zone + dstAt s.tm.zone utc)

/-- The stretches of UTC with one daylight-saving offset each: first second (none: from the start), minutes, and the next's first
second. -/
def dstSpans (z : Zone) : List (Option Int × Int × Option Int) :=
  let starts : List (Option Int × Int) := (none, 0) :: z.dst.map (fun e => (some (e.1 : Int), e.2))
  (starts.zip ((starts.drop 1).map (·.1) ++ [none])).map (fun p => (p.1.1, p.1.2, p.2))

/-- The TAI second of a billing time: the first occurrence of a repeated one, the transition for a skipped one (R234). -/
def taiOfBill (s : State) (b : Int) : Int :=
  let cand := (dstSpans s.tm.zone).filterMap (fun p =>
    let utc := b - 60 * (s.tm.zone.zone + p.2.1)
    let t := match p.1 with | some a => max a utc | none => utc
    match p.2.2 with
    | some e => if t < e then some t else none
    | none => some t)
  cand.headD b + utcOffset s

/-- Day of the week of a day number from 2000-01-01, a Saturday: Monday is 0. -/
def weekday (day : Int) : Nat := ((day + 5) % 7).toNat

/-- Day of the month of a day number from 2000-01-01 (the proleptic Gregorian calendar). -/
def dayOfMonth (day : Int) : Nat :=
  let doe := ((day + 730425) % 146097).toNat
  let yoe := (doe - doe / 1460 + doe / 36524 - doe / 146096) / 365
  let doy := doe - (365 * yoe + yoe / 4 - yoe / 100)
  doy - (153 * ((5 * doy + 2) / 153) + 2) / 5 + 1

def daySec : Int := 86400

/-! ### Friendly hours (R258, R259) -/

def friendlyOnDay (o : Opt) (day : Int) : List (Nat × Nat) :=
  (o.friendly.filter (fun p => bit p.1 7 && bit p.1 (weekday day))).map (·.2) ++
  (if o.holidays.any (fun h => h != 65535 && (h : Int) == day) then [(0, 1440)] else [])

/-- A TAI second lies in friendly hours. -/
def isFriendly (s : State) (tai : Int) : Bool :=
  let b := billingAt s tai
  let m := (b % daySec) / 60
  (friendlyOnDay s.opt (b / daySec)).any (fun p => (p.1 : Int) ≤ m && m < (p.2 : Int))

/-- The time line goes on to the end of the friendly hours that run now. -/
def toFriendlyEnd : Nat → State → State
  | 0, s => s
  | f + 1, s =>
    let b := billingAt s (taiSec s)
    let m := (b % daySec) / 60
    match (((friendlyOnDay s.opt (b / daySec)).filter (fun p => (p.1 : Int) ≤ m && m < (p.2 : Int))).map (·.2)).max? with
    | some e => toFriendlyEnd f (passClock (taiOfBill s (b / daySec * daySec + 60 * e) * 1000000000) s)
    | none => s

/-- Start of the next friendly period after a TAI second, as a TAI second. -/
def nextFriendly (s : State) (tai : Int) : Option Int :=
  let b := billingAt s tai
  let week : List Int := (List.range 9).map (fun k => b / daySec + Int.ofNat k)
  let days := week ++ (s.opt.holidays.filter (· != 65535)).map Int.ofNat
  let starts := days.flatMap (fun d => (friendlyOnDay s.opt d).map (fun p => taiOfBill s (d * daySec + 60 * p.1)))
  (starts.filter (fun t => tai < t)).min?

/-! ### Billing calendars (R234) -/

/-- Calendar c names a boundary on this day of billing time. -/
def calDay (c : BillCal) (day : Int) : Bool :=
  match c.kind with
  | 1 => true
  | 2 => weekday day == c.day
  | 3 => dayOfMonth day == c.day
  | _ => false

/-- The next boundary of a calendar: TAI second and billing second. It lies after the last one crossed on both scales, so that a
changed offset does not cross it again (R236). -/
def nextBoundary (s : State) (cal : Nat) : Option (Int × Int) :=
  let c := s.opt.cals.getD cal BillCal.reset
  let last := s.db.crossings.getD cal (0, 0, 0)
  let from_ := max (last.2.1 / 1000000000) (s.opt.calFrom.getD cal 0)
  let day0 := billingAt s from_ / daySec - 2
  let bills := ((List.range 100).map (fun k : Nat => day0 + k)).filter (calDay c)
  let cand := bills.map (fun d => d * daySec + 3600 * (c.hour : Int) + 60 * (c.minute : Int))
  ((cand.filter (fun b => last.2.2 < b)).map (fun b => (taiOfBill s b, b))).find? (fun p => from_ < p.1)

/-- The crossing count of a calendar (R234): that of the journal, or of the option store where the store was formatted since. -/
def crossCount (s : State) (cal : Nat) : Nat := max (s.db.crossings.getD cal (0, 0, 0)).1 (s.opt.counts.getD cal 0)

/-! ### The period in force (R225, R226) -/

/-- Period of an input code: 0 until a table is loaded. -/
def translateCode (s : State) (code : Nat) : Nat := s.lg.map.getD code 0

/-- An override that is set and has not expired. -/
def overrideNow (s : State) : Option Nat :=
  match s.lg.ovr with
  | some (p, none) => some p
  | some (p, some e) => if s.now < e then some p else none
  | none => none

/-- The period that the first source that applies gives, and the source. -/
def periodSource (s : State) : Nat × Nat :=
  match overrideNow s with
  | some p => (p, 2)
  | none =>
    match s.opt.follow && s.arch.bcastOn, s.arch.bcast with
    | true, some b => (b.2.1, 1)
    | _, _ => (translateCode s s.lg.lastCode, 0)

/-- TARIFF: PERIOD, CHANGE_NO and the instant of the change (R373, R383). -/
def sendTariff (period time : Nat) (s : State) : State :=
  broadcast 0x31 ([BitVec.ofNat 8 (period % 16), 0] ++ toBE 2 s.arch.changeNo ++ toBE 8 (stampOf time))
    (onArch (fun a => { a with tariffAt := s.now }) s)

/-- The designated member broadcasts each change of its period in force (R383). -/
def announceTariff (period time : Nat) (s : State) : State :=
  if isDesignated s then sendTariff period time (onArch (fun a => { a with changeNo := (a.changeNo + 1) % 65536 }) s) else s

/-- A command that changes meter or ledger state: a standby refuses it (R398). -/
def unlessStandby (d : Nat) (f : State → State) (s : State) : State := if isStandby s then notAllowed d s else f s

end Sys2Proof.Machine
end

