-- ==== Sys2Proof/Machine/Prepay.lean ====
section
/-! DEFINITION. Prepayment (chapter 11): debit, the comparison of credit and allowance, the valve's moves, friendly hours, the log, and the
commands of class 0x30. -/
namespace Sys2Proof.Machine
open Sys2Proof

def valveOf (s : State) (short : Nat) : ValveState := Tab.getD s.db.valves short ValveState.fresh

/-- Largest magnitude of CREDIT (R253). -/
def creditMax : Int := 2 ^ 47 - 1
def satCredit (v : Int) : Int := clampInt (-creditMax) creditMax v

/-- Entries of the prepayment log (R261). -/
def prepayLogSize : Nat := 4194304

/-- A change of PREPAY, CREDIT or the command in flight: its PREPAY record, with a log entry where `kind` names one (R257, R261). -/
def prepayMove (short kind result ref : Nat) (f : Std → Std) (g : ValveState → ValveState) (s : State) : State :=
  let c := f (stdOf s short)
  let l : PrepayLog :=
    { time := stamp s, seq := s.jr.next % 2 ^ 48, kind := kind, result := result, short := short, ref := ref, credit := c.credit }
  let s := if kind != 0 && prepayLogSize ≤ s.db.plog.length then statPp 6 s else s
  appendMeter 10 short 0 (.prepay l c.credit c.prepay (g (valveOf s short))) s

/-- No RESULT of a meter. -/
def noResult : Nat := 0xFF

def setValve (v : Nat) (c : Std) : Std := { c with prepay := { c.prepay with valve := v } }
def setTries (n : Nat) (c : Std) : Std := { c with prepay := { c.prepay with tries := min 7 n } }

/-! ### Debit (R253) -/

/-- The debit of n units at a rate: the credit, and whether n was negative and the credit saturated. -/
def debit (credit : Int) (rate : Nat) (n : Int) : Int × Bool × Bool :=
  if n ≤ 0 then (credit, n < 0, false)
  else
    let v := credit - n * (rate : Int)
    (satCredit v, false, satCredit v != v)

/-! ### Sending (R255, R257, R258, R262) -/

/-- Friendly hours as the profile applies them: every instant while the clock is invalid (R258). -/
def friendlyFor (s : State) (body : Bytes) : Bool := pfFriendly body && (!s.tm.validSeen || isFriendly s (taiSec s))

/-- VALVE_CLOSE may be sent now (R258). -/
def closeAllowed (s : State) (body : Bytes) : Bool := s.tm.validSeen && !(pfFriendly body && isFriendly s (taiSec s))

/-- Anything may be sent to this meter now: the module is active, not keyless, and the meter has its key and needs no rekey (R258, R260, R262). -/
def maySendTo (s : State) (short : Nat) : Bool :=
  !isStandby s && !keyless s && !(mstateOf s short).rekey && (entryOf s short).any (fun e => (currentKey s short e.id).isSome)

/-- NOT_AFTER (R258): the next friendly period's start as network time, 0 for none. -/
def notAfter (s : State) (body : Bytes) : Nat :=
  if pfFriendly body then ((nextFriendly s (taiSec s)).map (fun t => netOf (t * 1000000000))).getD 0 else 0

/-- The argument bytes of a valve command (R255). -/
def valveArgs (cmd na reason : Nat) : Bytes := if cmd = 0x20 then toLE 6 na ++ toLE 1 reason ++ [0] else toLE 4 0

/-- The command in flight is sent, once more or for the first time (R257, R262). A close that waited takes the NOT_AFTER of the instant at which
it is sent first (R258). -/
def transmitValve (short : Nat) (body : Bytes) (s : State) : State :=
  match (valveOf s short).flight with
  | none => s
  | some (cmd, seq, na, reason) =>
    let tries := (stdOf s short).prepay.tries
    let first := tries == 0
    let v := valveOf s short
    if !maySendTo s short || (first && cmd == 0x20 && !v.override && !closeAllowed s body) then s
    else
      let na := if first && cmd == 0x20 && !v.override then notAfter s body else na
      let s := prepayMove short (if tries + 1 = 5 then 0x0C else 0) noResult seq (setTries (tries + 1))
        (fun v => { v with sentAt := s.now, flight := some (cmd, seq, na, reason) }) s
      let s := if tries + 1 = 5 then statPp 5 s else s
      sendCommand short cmd seq (valveArgs cmd na reason) s

/-- A new command is given its CMD_SEQ and becomes the one in flight (R255, R257). A close keeps the state that VALVE had before, for its
cancelling (R254). -/
def startValve (short cmd na reason : Nat) (override : Bool) (body : Bytes) (s : State) : State :=
  let seq := ((valveOf s short).cmdSeq + 1) % 65536
  let s := prepayMove short (if cmd = 0x20 then 5 else 8) noResult seq (fun c => setTries 0 (setValve (if cmd = 0x20 then 2 else 4) c))
    (fun v => { v with
      cmdSeq := seq, flight := some (cmd, seq, na, reason), sentAt := s.now, reason := reason, override := override
      before := let p := (stdOf s short).prepay.valve; if cmd = 0x20 && p != 1 && p != 2 then p else v.before }) s
  transmitValve short body (if cmd = 0x20 then statPp 2 s else s)

/-- A pending close is sent where it may be, for the reason it came due for (R255, R258). -/
def tryClose (short : Nat) (body : Bytes) (s : State) : State :=
  if (stdOf s short).prepay.valve = 1 && maySendTo s short && closeAllowed s body then
    startValve short 0x20 (notAfter s body) (valveOf s short).reason false body s
  else s

/-! ### The comparison (R254, R257) -/

/-- After a debit or a top-up the credit is compared with the allowance. -/
def creditCompare (short : Nat) (body : Bytes) (topup : Bool) (s : State) : State :=
  let c := stdOf s short
  let p := c.prepay
  if !p.enabled then s
  else
    let a : Int := pfAllow body p.level
    let armMin : Int := pfArmMin body
    let s :=
      if c.credit < 0 && a != 0 && !p.inEmergency then
        prepayMove short 2 noResult 0 (fun c => { c with prepay := { c.prepay with inEmergency := true } }) id s
      else if 0 ≤ c.credit && p.inEmergency then
        prepayMove short 0 noResult 0 (fun c => { c with prepay := { c.prepay with inEmergency := false } }) id s
      else s
    if c.credit < -a && (p.valve = 0 || p.valve = 5) && !p.hostHold then
      let s := prepayMove short 3 noResult 0 (setValve 1) (fun v => { v with before := p.valve, reason := 1, override := false }) s
      if friendlyFor s body then prepayMove short 4 noResult 0 id id s else tryClose short body s
    else if armMin ≤ c.credit && p.valve = 1 then
      prepayMove short 7 noResult 0 (setValve (valveOf s short).before) id s
    else if armMin ≤ c.credit && p.valve = 2 && topup then
      prepayMove short 0 noResult 0 (fun c => { c with prepay := { c.prepay with armQueued := true } }) id s
    else if armMin ≤ c.credit && p.valve = 3 then startValve short 0x21 0 0 false body s
    else tryClose short body s

/-! ### What the meter answers (R257) -/

def endFlight (v : ValveState) : ValveState := { v with flight := none, override := false }

/-- A posted CMD_RESULT of a valve command. -/
def valveResult (short : Nat) (body : Bytes) (cmd result seq : Nat) (s : State) : State :=
  match (valveOf s short).flight with
  | none => s
  | some (c, q, _, _) =>
    if c != cmd || q != seq || 4 < result || (result == 4 && cmd != 0x20) then s
    else
      let p := (stdOf s short).prepay
      let move := fun (kind valve : Nat) (hold : Bool) =>
        prepayMove short kind result seq (fun c => setTries 0 (setValve valve { c with prepay := { c.prepay with hostHold := c.prepay.hostHold || hold } }))
          endFlight
      if cmd = 0x20 then
        if result = 0 then
          let s := statPp 3 (move 6 3 false s)
          if p.armQueued then
            startValve short 0x21 0 0 false body
              (prepayMove short 0 noResult 0 (fun c => { c with prepay := { c.prepay with armQueued := false } }) id s)
          else s
        else if result = 4 then move 0x0E 1 false s
        else move 0x0B 0 true s
      else if result = 0 then statPp 4 (move 9 5 false s)
      else move 0x0B 3 true s

/-- METER_STATUS of a posted reading (R177, R257): VALVE_CLOSED is bit 5. -/
def valveStatus (short : Nat) (closed : Bool) (s : State) : State :=
  let p := (stdOf s short).prepay
  if !p.enabled then s
  else if p.valve = 5 && !closed then prepayMove short 0x0A noResult 0 (setValve 0) id s
  else if p.valve = 0 && closed && (valveOf s short).flight.isNone then prepayMove short 0x0D noResult 0 (setValve 3) id s
  else s

/-! ### Rows -/

def bodyOfShort (s : State) (short : Nat) : Bytes := ((entryOf s short).map (fun e => bodyFor s e.id)).getD (List.replicate 1024 0)

/-- What waited for leave to be sent to a meter is sent: a pending close, or a command not sent yet (R257, R258, R262). -/
def resumeValve (short : Nat) (s : State) : State :=
  let body := bodyOfShort s short
  let p := (stdOf s short).prepay
  if p.valve = 1 then tryClose short body s
  else if (valveOf s short).flight.isSome && p.tries = 0 then transmitValve short body s
  else s

/-- What waited is sent, meter by meter (R258): at the end of friendly hours, when the clock becomes valid, when LEDGER appends again. -/
def releaseCloses (s : State) : State := s.db.std.foldl (fun s p => resumeValve p.1 s) s

/-- FRIENDLY_END (R258). -/
def execFriendlyEnd (s : State) : Out :=
  .next <|
    let s := toFriendlyEnd 9 s
    if mayAppend s && s.tm.validSeen && !isFriendly s (taiSec s) then releaseCloses s else s

/-- VALVE_RETRY (R257): RETRY_TIME after a send the command is sent again with its CMD_SEQ. -/
def execValveRetry (short : Nat) (s : State) : Out :=
  .next <|
    let body := bodyOfShort s short
    if mayAppend s then transmitValve short body (passTo ((valveOf s short).sentAt + pfRetryTime body * secNs) s) else s

/-- What every command of the class on a meter asks first (R251, R260): 0x21 CUSTODY_METER, 0x20 NOT_PREPAY. -/
def prepayRefusal (s : State) (short : Nat) (e : MEntry) (enabled : Bool) : Option Nat :=
  if (channelOf s short).isSome then some 0x21
  else if !e.homeSelf || !pfPrepayAllowed (bodyFor s e.id) || (enabled && !(stdOf s short).prepay.enabled) then some 0x20
  else none

/-- A command of the class that changes a meter's state: a work item on the meter's flow (R260). -/
def prepayCmd (op d : Nat) (enabled : Bool) (checks : Bytes → List Check) (f : Desc → Nat → MEntry → State → State) (s : State) : State :=
  meterCmd op d false otherClass checks (fun x k e s => unlessStandby d (fun s => asItem x (fun s =>
    match prepayRefusal s k e enabled with
    | some st => finish d st 0 [] s
    | none => if mayAppend s then f x k e s else s) s) s) s

/-- PREPAY_SET: CREDIT stays (R260). -/
def execPrepaySet (d : Nat) (s : State) : Out :=
  .next (prepayCmd 0x30 d false (fun _ => []) (fun x k _ s =>
    let b := x.bytes
    let f := fun c : Std => { c with prepay := { c.prepay with enabled := bit (u8 b 28) 7, level := u8 b 28 % 4, hostHold := bit (u8 b 29) 0 } }
    finishDurable d [] (prepayMove k 0 noResult 0 f id s)) s)

/-- TOPUP (R254, R260). -/
def execTopup (d : Nat) (s : State) : Out :=
  .next (prepayCmd 0x31 d true (fun b => [(u64 b 32 != 0, 32)]) (fun x k e s =>
    let b := x.bytes
    let v := (stdOf s k).credit + i64 b 32
    let s := if satCredit v != v then statPp 1 s else s
    let s := prepayMove k 1 noResult (u32 b 28) (fun c => { c with credit := satCredit v }) id s
    finishDurable d (toLE 6 (ofInt 48 (satCredit v))) (creditCompare k (bodyFor s e.id) true s)) s)

/-- VALVE_CMD (R257, R258, R260): VALVE changes at once; 0x22 VALVE_BUSY while a command is in flight. -/
def execValveCmd (d : Nat) (s : State) : Out :=
  .next (prepayCmd 0x32 d true (fun b => [(u8 b 28 < 2, 28)]) (fun x k e s =>
    let b := x.bytes
    let body := bodyFor s e.id
    let ovr := bit (u8 b 29) 0
    if (valveOf s k).flight.isSome then finish d 0x22 0 [] s
    else
      let s := if u8 b 28 = 0 then startValve k 0x20 (if ovr then 0 else notAfter s body) 2 ovr body s
        else startValve k 0x21 0 0 false body s
      finishDurable d (toLE 2 (valveOf s k).cmdSeq) s) s)

/-- Bytes in fault of the friendly calendar (R259). -/
def friendlyFaults (b : Bytes) : List Nat :=
  (List.range 32).flatMap (fun i =>
    let o := 8 * i
    let valid := bit (u8 b o) 7
    let start := u16 b (o + 2)
    checkFaults [(u8 b (o + 1) == 0, o + 1), (!valid || start < 1440, o + 2), (!valid || inRange (u16 b (o + 4)) (start + 1) 1440, o + 4),
      (u8 b (o + 6) == 0, o + 6), (u8 b (o + 7) == 0, o + 7)])

/-- FRIENDLY_SET (R259); 0x23 FRIENDLY_BAD. -/
def execFriendlySet (d : Nat) (s : State) : Out :=
  .next (hostCmd 0x33 d (fun b => [addrCheck b 24 64]) (fun x s => unlessStandby d (fun s =>
    let b := x.input.getD []
    match (friendlyFaults b).min? with
    | some o => finish d 0x23 o [] s
    | none =>
      let ps := (List.range 32).map (fun i => (u8 b (8 * i), u16 b (8 * i + 2), u16 b (8 * i + 4)))
      let hs := (List.range 64).map (fun j => u16 b (256 + 2 * j))
      finishOk d [] (saveOpt (fun o => { o with friendly := ps, holidays := hs }) s)) s) s)

/-- PREPAY_READ (R260). -/
def execPrepayRead (d : Nat) (s : State) : Out :=
  .next (meterCmd 0x34 d false otherClass (fun _ => []) (fun x k e s => asItem x (fun s =>
    match prepayRefusal s k e false with
    | some st => finish d st 0 [] s
    | none =>
      let c := stdOf s k
      finishOk d (toLE 6 (ofInt 48 c.credit) ++ toLE 2 (prepayWord c.prepay)) s) s) s)

/-- A read of a log in SEQ order (R245, R261, R282): as many entries of `size` bytes from FROM_SEQ as the buffer holds, the count, and
the SEQ of the first entry left, 0 when none is left. -/
def readLog (d size : Nat) (b : Bytes) (entries : List (Nat × Bytes)) (s : State) : State :=
  let l := entries.filter (fun e => u64 b 40 ≤ e.1)
  let n := u32 b 32 / size
  let now := l.take n
  finishOk d (toLE 4 now.length ++ toLE 8 (((l.drop n).head?.map (·.1)).getD 0)) (putOut d (u64 b 24) (now.flatMap (·.2)) s)


/-- PREPAY_LOG_READ (R261). -/
def execPrepayLogRead (d : Nat) (s : State) : Out :=
  .next (hostCmd 0x35 d (fun b => logChecks b 32) (fun x s =>
    readLog d 32 x.bytes (s.db.plog.reverse.map (fun l => (l.seq, prepayLogBytes l))) s) s)

/-- PREPAY_STATS (R260). -/
def execPrepayStats (d : Nat) (s : State) : Out :=
  .next (statsCmd 0x36 d 64 (fun s => s.lg.prepayStats)
    (fun s => cntClear 3 (onLg (fun l => { l with prepayStats := List.replicate 7 0 }) s)) (fun _ => []) s)

end Sys2Proof.Machine
end

