-- ==== Sys2Proof/Machine/Indicators.lean ====
section
/-! DEFINITION. The per-meter indicators (R276 to R281): bits, their reports and sources, and the fingerprints of the hearing module. -/
namespace Sys2Proof.Machine
open Sys2Proof

def indOf (s : State) (short : Nat) : Ind := Tab.getD s.db.inds short Ind.fresh
def onInd (short : Nat) (f : Ind → Ind) (s : State) : State := onDb (fun d => { d with inds := Tab.set d.inds short (f (indOf s short)) }) s

/-- An indicator that goes from 0 to 1: its bit, DATA_0 and DATA_1 of its report, and INFO of its source. -/
structure IndSet where
  bit_ : Nat
  data0 : Nat
  data1 : Nat
  info : Nat
  deriving DecidableEq, Repr

/-- Event source of an indicator (R276). -/
def indSource (b : Nat) : Nat := if b = 3 then 50 else if b = 4 || b = 5 then 49 else 48

/-- Sets a bit where IND_MASK evaluates it; `some` where it was 0. -/
def setIndBit (body : Bytes) (x : IndSet) (i : Ind) : Ind × Option IndSet :=
  if bit (pfIndMask body) x.bit_ && !bit i.ind x.bit_ then ({ i with ind := setBit i.ind x.bit_ }, some x) else (i, none)

/-- Entries of the report ring (R282). -/
def reportRing : Nat := 16777216

/-- Reports go into the ring with their journal record; overwritten ones are counted in REPORT_WRAP. -/
def wrapReports (n : Nat) (s : State) : State :=
  (List.range (s.db.reports.length + n - reportRing)).foldl (fun s _ => statBal 1 s) s

def indReport (s : State) (short : Nat) (x : IndSet) : Report :=
  let node := ((Tab.get s.db.memb short).bind (·.memberOf)).getD 65535
  let seq := s.jr.next % 2 ^ 48
  { seq := seq, kind := 6
    bytes := toLE 8 (stamp s) ++ toLE 6 seq ++ [6, 0] ++ toLE 4 short ++ toLE 2 node ++ toLE 2 x.bit_ ++ toLE 8 x.data0 ++ toLE 8 x.data1 ++
      List.replicate 24 0 }

/-- The reports and sources of the indicators that one frame sets: one record, so that their SEQ is one (R276, R282). -/
def reportInds (short : Nat) (l : List IndSet) (s : State) : State :=
  if l.isEmpty then s
  else
    let rs := l.map (indReport s short)
    let s := appendGlobal 8 0 (.report rs) (wrapReports rs.length s)
    l.foldl (fun s x => raise (indSource x.bit_) x.info (statBal 6 s)) s

/-- A bit of the ledger home or of the hearing module is set outside a posting. -/
def indicate (short : Nat) (body : Bytes) (x : IndSet) (s : State) : State :=
  match setIndBit body x (indOf s short) with
  | (i, some y) => reportInds short [y] (onInd short (fun _ => i) s)
  | _ => s

/-- REPLAY (R276): REPLAYS grows by REPLAY_IND within 86,400 operating seconds. -/
def replayIndicator (short : Nat) (body : Bytes) (s : State) : State :=
  let i := indOf s short
  let replays := (mstateOf s short).replays
  let i := if i.replayWin + 86400 ≤ s.rs.opSeconds then { i with replayWin := s.rs.opSeconds, replayBase := replays - 1 } else i
  let s := onInd short (fun _ => i) s
  if pfReplayInd body ≤ replays - i.replayBase then indicate short body { bit_ := 7, data0 := replays, data1 := 0, info := 7 } s else s

/-! ### Hearing module (R277 to R280) -/

/-- A running mean over the first 8 frames, then 1/16 of the difference (R278). -/
def learnMean (cur x : Int) (count : Nat) : Int := cur + ratHalfEven (x - cur) (count + 1)
def followMean (cur x : Int) : Int := cur + ratHalfEven (x - cur) 16

def FpRef.fresh : FpRef := { mags := List.replicate 32 0, timing := 0, count := 0, run := 0, frozen := false }

/-- Sum of the squared distances of the 32 groups. -/
def fpDistance (r : FpRef) (mags : List Nat) : Nat :=
  (((List.range 32).map (fun g => ((mags.getD g 0 : Nat) : Int) - r.mags.getD g 0)).map (fun x => x.natAbs ^ 2)).sum

/-- One frame against the reference of its load class: the reference after it, and the distance where it confirms a change. -/
def fpStep (body : Bytes) (r : FpRef) (mags : List Nat) (timing : Int) : FpRef × Option Nat :=
  let m := fun g : Nat => ((mags.getD g 0 : Nat) : Int)
  if r.count < 8 then
    ({ r with mags := (List.range 32).map (fun g => learnMean (r.mags.getD g 0) (m g) r.count), timing := learnMean r.timing timing r.count
              count := r.count + 1 }, none)
  else
    let d2 := fpDistance r mags
    let deviant := 32 * pfFpLimit body ^ 2 < d2 || pfTimingLimit body < (timing - r.timing).natAbs
    let r :=
      if deviant then { r with run := min 255 (r.run + 1) }
      else if r.frozen then { r with run := 0 }
      else { r with run := 0, mags := (List.range 32).map (fun g => followMean (r.mags.getD g 0) (m g)), timing := followMean r.timing timing }
    if deviant && r.run = pfFpConfirm body then ({ r with frozen := true, count := min (r.count + 1) 255 }, some d2) else (r, none)

/-- The phase rule (R279): the record after a frame, and the old and new phase where a change is confirmed. -/
def phaseStep (body : Bytes) (i : Ind) (phase conf : Nat) : Ind × Option (Nat × Nat) :=
  let sure := pfPhaseConfMin body ≤ conf
  if i.phase = 255 then (if sure then { i with phase := phase, phaseRun := 0 } else { i with phaseRun := 0 }, none)
  else if sure && phase != i.phase then
    if pfPhaseConfirm body ≤ i.phaseRun + 1 then ({ i with phase := phase, phaseRun := 0 }, some (i.phase, phase))
    else ({ i with phaseRun := i.phaseRun + 1 }, none)
  else ({ i with phaseRun := 0 }, none)

/-- The radio rule (R280): RSSI in 0.25 dBm, offset in 0.1 ppm; the limits are in dB and 0.1 ppm. -/
def radioStep (body : Bytes) (i : Ind) (rssi cfo : Int) : Ind × Bool :=
  if i.radioCount < 8 then
    ({ i with rssiRef := learnMean i.rssiRef rssi i.radioCount, cfoRef := learnMean i.cfoRef cfo i.radioCount, radioCount := i.radioCount + 1 },
      false)
  else
    let deviant := 4 * pfRssiShift body < (rssi - i.rssiRef).natAbs || pfCfoShift body < (cfo - i.cfoRef).natAbs
    if deviant then
      let run := i.radioRun + 1
      if run = pfRadioConfirm body then ({ i with radioRun := run, radioFrozen := true, radioCount := min 255 (i.radioCount + 1) }, true) else ({ i with radioRun := min 255 run }, false)
    else if i.radioFrozen then ({ i with radioRun := 0 }, false)
    else ({ i with radioRun := 0, rssiRef := followMean i.rssiRef rssi, cfoRef := followMean i.cfoRef cfo }, false)

def keepSome {α : Type} (l : List (Option α)) : List α := l.filterMap id

/-- The measurements of an authenticated power-line frame are applied (R277 to R279). -/
def hearPlc (short : Nat) (body : Bytes) (cls : Nat) (mags : List Nat) (timing : Int) (phase conf : Nat) (s : State) : State :=
  let mask := pfIndMask body
  let k := 4 * short + cls
  let (s, fp) :=
    if bit mask 4 then
      let (r, d) := fpStep body (Tab.getD s.db.fps k FpRef.fresh) mags timing
      (onDb (fun db => { db with fps := Tab.set db.fps k r }) s, d.map (fun d2 => ({ bit_ := 4, data0 := d2, data1 := cls, info := 1 + 16 * cls } : IndSet)))
    else (s, none)
  let (i, ph) := if bit mask 3 then phaseStep body (indOf s short) phase conf else (indOf s short, none)
  let (i, a) := match fp with
    | some x => setIndBit body x i
    | none => (i, none)
  let (i, b) := match ph with
    | some (o, n) => setIndBit body { bit_ := 3, data0 := o, data1 := n, info := o + 4 * n } i
    | none => (i, none)
  reportInds short (keepSome [a, b]) (onInd short (fun _ => i) s)

/-- The measurements of an authenticated radio frame are applied (R277, R280). -/
def hearRadio (short : Nat) (body : Bytes) (rssi cfo : Int) (s : State) : State :=
  if bit (pfIndMask body) 5 then
    let i0 := indOf s short
    let (i, dev) := radioStep body i0 rssi cfo
    let (i, x) :=
      if dev then setIndBit body { bit_ := 5, data0 := w64 (rssi - i0.rssiRef), data1 := w64 (cfo - i0.cfoRef), info := 2 } i else (i, none)
    reportInds short (keepSome [x]) (onInd short (fun _ => i) s)
  else s

/-- A clock offset of a meter measured at a synchronisation, in ms (R276 SKEW, R360). -/
def hearSkew (short : Nat) (body : Bytes) (ms : Int) (s : State) : State :=
  if bit (pfIndMask body) 6 then
    let i := indOf s short
    if i.skipSkew then onInd short (fun i => { i with skipSkew := false }) s
    else
      let run := if pfSkewLimit body < ms.natAbs then min 255 (i.skewRun + 1) else 0
      let s := onInd short (fun i => { i with skewRun := run }) s
      if pfSkewConfirm body ≤ run then indicate short body { bit_ := 6, data0 := w64 ms, data1 := 0, info := 6 } s else s
  else s

end Sys2Proof.Machine
end

