-- ==== Sys2Proof/Machine/Balance.lean ====
section
/-! DEFINITION. The balance engine (R263 to R284): pending slots, step 14, interval closes, judgement, and the commands of class 0x38. -/
namespace Sys2Proof.Machine
open Sys2Proof

def onNode (id : Nat) (f : Node → Node) (db : Db) : Db := { db with nodes := Tab.mod db.nodes id f }

/-! ### Slots (R265, R267, R269, R270) -/

/-- SUPPLIERS and MEMBERS in force from a start minute: the changes up to it applied. -/
def countsAt (n : Node) (start : Nat) : Nat × Nat :=
  n.changes.foldl (fun c x => if x.1 ≤ start then (x.2.1, x.2.2.1) else c) (n.suppliers, n.members)

def newSlot (n : Node) (start : Nat) : BalSlot :=
  let c := countsAt n start
  { start := start, estimated := false, clockInvalid := false, overflow := false, reported := 0, target := c.1 + c.2, supply := 0, imbal := 0,
    var := 0 }

def slotAt (n : Node) (start : Nat) : Option BalSlot := n.slots.find? (fun x => x.start == start)

/-- Keeps the slots in order of START. -/
def putSlot (v : BalSlot) : List BalSlot → List BalSlot
  | [] => [v]
  | x :: r => if v.start < x.start then v :: x :: r else if v.start = x.start then v :: r else x :: putSlot v r

def ceilDiv (a b : Nat) : Nat := (a + b - 1) / b

/-- u_i of R270 in units of 10^E_BAL_Q. -/
def uncertaintyOf (body : Bytes) (q balLen : Nat) (x : Int) : Nat :=
  ceilDiv (x.natAbs * pfRelPpm body q) 1000000 + ceilDiv (pfFloor body q * balLen) 60

/-- A meter's part x (node units) with uncertainty u enters a slot: sums of 128 bits saturate and set OVERFLOW (R269). -/
def addPart (supply est invalid : Bool) (x : Int) (u : Nat) (v : BalSlot) : BalSlot :=
  let sp := if supply then v.supply + x else v.supply
  let im := if supply then v.imbal + x else v.imbal - x
  let va := v.var + u * u
  { v with
    estimated := v.estimated || est, clockInvalid := v.clockInvalid || invalid
    overflow := v.overflow || satInt 128 sp != sp || satInt 128 im != im || satNat 128 va != va
    reported := min (2 ^ 22 - 1) (v.reported + 1), supply := satInt 128 sp, imbal := satInt 128 im, var := satNat 128 va }

/-! ### Closing an interval (R271 to R275) -/

def learnStart (n : Node) : Node :=
  { n with learning := true, learnCount := 0, learnI := fZero, learnS := fZero, sPos := fZero, sNeg := fZero }

/-- What a close makes of a node: the node, the kind of its report, whether it was judged, loss, gain, r and the CUSUMs before a reset. -/
structure Closing where
  node : Node
  kind : Nat
  judged : Bool
  loss : Bool
  gain : Bool
  u : F64
  r : F64
  sPos : F64
  sNeg : F64
  deriving DecidableEq, Repr

/-- The intervals of learning that count (R272). -/
def learnInterval (n : Node) (v : BalSlot) : Node × Bool :=
  let c := n.learnCount + 1
  let i := fAdd n.learnI (fOfInt v.imbal)
  let t := fAdd n.learnS (fOfInt v.supply)
  if c < 96 then ({ n with learnCount := c, learnI := i, learnS := t }, false)
  else
    ({ n with learnCount := c, learnI := i, learnS := t, learning := false, offsetRel := if fLe t fZero && fLe fZero t then fZero else fDiv i t }, true)

/-- The judgement of R273. -/
def judgeInterval (n : Node) (v : BalSlot) : Closing :=
  let i := fOfInt v.imbal
  let t := fOfInt v.supply
  let u := fSqrt (fOfNat v.var)
  let k := fDiv (fOfNat n.k) (fOfNat 100)
  let h := fDiv (fOfNat n.h) (fOfNat 100)
  let r := fDiv (fSub i (fMul n.offsetRel t)) u
  let sp := fMax0 (fAdd n.sPos (fSub r k))
  let sn := fMax0 (fAdd n.sNeg (fSub (fSub fZero r) k))
  let loss := fGt sp h
  let gain := fGt sn h
  { node := { n with
      sPos := if loss then fZero else sp, sNeg := if gain then fZero else sn, lastR := r
      suspectLoss := n.suspectLoss || loss, suspectGain := n.suspectGain || gain
      alarms := ((b2n loss + 2 * b2n gain) :: n.alarms).take 8 }
    kind := if loss then 3 else if gain then 4 else 1, judged := true, loss := loss, gain := gain, u := u, r := r, sPos := sp, sNeg := sn }

/-- Whether an interval is judged, learned from, or neither. -/
def closingOf (n : Node) (v : BalSlot) (complete : Bool) : Closing :=
  let clean := complete && v.var != 0 && !v.overflow
  let plain := fun (m : Node) (kind : Nat) =>
    ({ node := m, kind := kind, judged := false, loss := false, gain := false, u := fSqrt (fOfNat v.var), r := fZero, sPos := m.sPos,
       sNeg := m.sNeg } : Closing)
  if n.learning then
    if clean && !v.estimated && !v.clockInvalid then (let l := learnInterval n v; plain l.1 (if l.2 then 5 else 2)) else plain n 2
  else if clean && (n.judgeEst || !v.estimated) then judgeInterval n v
  else plain n 2

/-- LOCUS, SUPPLY_METER and DATA_1 of an alarm (R275). -/
def locusOf (db : Db) (id : Nat) (n : Node) (loss : Bool) : Nat × Bool × Nat :=
  if loss then
    let cs := (db.nodes.filter (fun p => p.2.parent == some id && !p.2.learning && p.2.alarms.any (2 ≤ ·))).map (·.1)
    match cs with
    | c :: _ => (c, true, cs.length)
    | [] => (id, false, 0)
  else
    match n.parent.bind (fun q => Tab.get db.nodes q) with
    | some q => if q.alarms.any (· % 2 == 1) then (id, true, 0) else (id, false, 0)
    | none => (id, false, 0)

/-- A node after one of its intervals has closed: counters, NEXT_CLOSE, and the membership changes that the next interval brings in
(R267, R272). -/
def afterClose (n : Node) (v : BalSlot) (complete judged : Bool) : Node :=
  let next := n.nextClose + n.balLen
  let due := n.changes.filter (fun c => c.1 ≤ next)
  let n :=
    { n with
      complete := if complete then min ctrMax (n.complete + 1) else n.complete
      incomplete := if judged then n.incomplete else min ctrMax (n.incomplete + 1)
      nextClose := next, passes := n.passes.drop 1, slots := n.slots.filter (fun x => x.start != v.start), supplied := 0 < v.supply }
  let n := match due.getLast? with
    | some c => { n with suppliers := c.2.1, members := c.2.2.1, changes := n.changes.filter (fun x => next < x.1) }
    | none => n
  if due.any (fun c => c.2.2.2) then learnStart n else n

/-- Members that leave a node at or before a minute have left it (R267). -/
def clearLeft (id minute : Nat) (db : Db) : Db :=
  { db with memb := db.memb.map (fun p =>
      let m := p.2
      let m := if m.supplyOf == some id && m.leaveS.any (· ≤ minute) then { m with supplyOf := none, leaveS := none, accS := 0, endS := 0 } else m
      let m := if m.memberOf == some id && m.leaveM.any (· ≤ minute) then { m with memberOf := none, leaveM := none, accM := 0, endM := 0 } else m
      (p.1, m)) }

/-- A balance report of a close (R282). -/
def closeReport (s : State) (id : Nat) (v : BalSlot) (complete learning : Bool) (c : Closing) (kind : Nat) (locus : Nat × Bool × Nat) : Report :=
  let seq := s.jr.next % 2 ^ 48
  let alarm := kind == 3 || kind == 4
  let flags := b2n (!complete) + 2 * b2n learning + 4 * b2n v.estimated + 8 * b2n v.clockInvalid + 16 * b2n (complete && v.var == 0) +
    32 * b2n v.overflow + 64 * b2n (alarm && locus.2.1)
  { seq := seq, kind := kind
    bytes := toLE 8 (stamp s) ++ toLE 6 seq ++ toLE 1 kind ++ toLE 1 flags ++ toLE 4 v.start ++ toLE 2 id ++
      toLE 2 (if alarm then locus.1 else 65535) ++
      toLE 8 (if kind = 5 then c.node.offsetRel.toNat else (fOfInt v.imbal).toNat) ++
      (if alarm then toLE 4 (fTo32 c.u) ++ toLE 4 (locus.2.2 % 256) else toLE 8 c.u.toNat) ++
      toLE 8 c.r.toNat ++ toLE 8 c.sPos.toNat ++ toLE 8 c.sNeg.toNat }

/-- An interval of kind INTERVAL or NOT_JUDGED is reported only under REPORT_ALL. -/
def reportKept (n : Node) (kind : Nat) : Bool := 2 < kind || n.reportAll

/-- The oldest interval of a node closes (R271): judged or learned from, reported, and journalled with the node's after-image (R283). -/
def closeInterval (id : Nat) (complete : Bool) (s : State) : State :=
  match Tab.get s.db.nodes id with
  | none => s
  | some n =>
    let v := (slotAt n n.nextClose).getD (newSlot n n.nextClose)
    let c := closingOf n v complete
    let locus := locusOf s.db id c.node c.loss
    let rep := closeReport s id v complete n.learning c c.kind locus
    let keep := reportKept n c.kind
    let after := afterClose c.node v complete c.judged
    let s := wrapReports (b2n keep) s
    let s := appendGlobal 8 1 (.balance id after { rep with kind := if keep then rep.kind else 0 }) s
    let s := onDb (clearLeft id after.nextClose) s
    let s := statBal (if c.judged then 2 else 3) s
    let s := if c.loss then raise 47 id (statBal 4 s) else s
    if c.gain then
      let s := if c.loss then
          appendGlobal 8 0 (.report [closeReport s id v complete n.learning c 4 (locusOf s.db id c.node false)]) (wrapReports 1 s) else s
      raise 47 id (statBal 5 s)
    else s

/-- The intervals at NEXT_CLOSE that have all their parts close, one after the other. -/
def closeCompleteF (id : Nat) : Nat → State → State
  | 0, s => s
  | f + 1, s =>
    match (Tab.get s.db.nodes id).bind (fun n => slotAt n n.nextClose) with
    | some v => if v.target ≤ v.reported then closeCompleteF id f (closeInterval id true s) else s
    | none => s

def closeComplete (id : Nat) (s : State) : State :=
  closeCompleteF id (((Tab.get s.db.nodes id).map (fun n => n.slots.length)).getD 0 + 1) s

/-- Intervals close incomplete until the one of a start minute fits into the 32 pending slots (R271). -/
def makeRoomF (id start : Nat) : Nat → State → State
  | 0, s => s
  | f + 1, s =>
    match Tab.get s.db.nodes id with
    | none => s
    | some n => if n.nextClose + 32 * n.balLen ≤ start then makeRoomF id start f (closeInterval id false s) else s

/-- Intervals from NEXT_CLOSE to a start minute. -/
def intervalsTo (n : Node) (start : Nat) : Nat := (start - n.nextClose) / max 1 n.balLen + 1

/-! ### Step 14 (R269) -/

/-- What one posting gives to a node in one role. -/
structure FoldIn where
  short : Nat
  supply : Bool
  node : Nat
  q : Nat
  n : Int
  runs : List (Int × Int)
  est : Bool
  invalid : Bool
  body : Bytes
  deriving DecidableEq, Repr

/-- 10^(E_BAL_Q − E_NODE). -/
def nodeScale (f : FoldIn) (n : Node) : Nat := 10 ^ (pfE f.body f.q - n.eNode).toNat

/-- ZERO_COUNT of a member after a part x of an interval (R276). -/
def zeroStep (supplied : Bool) (x : Int) (i : Ind) : Ind := { i with zeroCount := if x = 0 && supplied then min 65535 (i.zeroCount + 1) else 0 }

/-- A part for the interval that starts at a minute is added to its slot, unless the interval is closed. -/
def contribute (f : FoldIn) (start : Nat) (x : Int) (db : Db) : Db :=
  match Tab.get db.nodes f.node with
  | none => db
  | some n =>
    if start < n.nextClose then db
    else
      let sc := nodeScale f n
      let v := addPart f.supply f.est f.invalid (x * sc) (uncertaintyOf f.body f.q n.balLen x * sc) ((slotAt n start).getD (newSlot n start))
      let db := onNode f.node (fun n => { n with slots := putSlot v n.slots }) db
      if f.supply then db
      else { db with inds := Tab.set db.inds f.short (zeroStep n.supplied x (Tab.getD db.inds f.short Ind.fresh)) }

/-- The membership record after a boundary: ACC zero, END moved on, and the meter gone where this was the last interval it owed. -/
def passEnd (f : FoldIn) (stop : Nat) (m : Memb) : Memb :=
  if f.supply then
    (if m.leaveS.any (· ≤ stop) then { m with supplyOf := none, leaveS := none, accS := 0, endS := 0 } else { m with accS := 0, endS := stop })
  else if m.leaveM.any (· ≤ stop) then { m with memberOf := none, leaveM := none, accM := 0, endM := 0 }
  else { m with accM := 0, endM := stop }

def onMemb (short : Nat) (f : Memb → Memb) (db : Db) : Db := { db with memb := Tab.mod db.memb short f }

def accOf (f : FoldIn) (m : Memb) : Int := if f.supply then m.accS else m.accM
def endOf (f : FoldIn) (m : Memb) : Nat := if f.supply then m.endS else m.endM
def addAcc (f : FoldIn) (x : Int) (m : Memb) : Memb :=
  if f.supply then { m with accS := satInt 64 (m.accS + x) } else { m with accM := satInt 64 (m.accM + x) }
def inRole (f : FoldIn) (m : Memb) : Bool := (if f.supply then m.supplyOf else m.memberOf) == some f.node
/-- Whether a meter still has its role in the interval that starts at a minute: a part after its removal is discarded (R267). -/
def stillIn (f : FoldIn) (start : Nat) (m : Memb) : Bool := inRole f m && !(if f.supply then m.leaveS else m.leaveM).any (· ≤ start)

/-- The shares of the posted n over the node's grid. -/
def foldShares (off : Int) (f : FoldIn) (n : Node) : Shares :=
  let len : Int := 60 * n.balLen
  let tLast := (f.runs.head?.map (·.1)).getD 0
  sharesOf off len f.runs (gridStart off len (tLast / unitsPerSec)) none f.n

/-- A start minute of a grid interval. -/
def cutMinute (off sec : Int) : Nat := ((sec + off) / 60).toNat

/-- One boundary of the grid (R269 step 3): `room` first closes what the 33rd interval pushes out, `late` counts a closed interval. -/
def foldCut (off : Int) (f : FoldIn) (p : Cut × Int) (s : State) : State :=
  match Tab.get s.db.memb f.short, Tab.get s.db.nodes f.node with
  | some m, some n =>
    let start := cutMinute off p.1.start
    let stop := cutMinute off p.1.stop
    if !stillIn f start m || start < endOf f m then s
    else if start < n.nextClose then onDb (onMemb f.short (passEnd f stop)) (statBal 0 s)
    else
      let s := makeRoomF f.node start (intervalsTo n start) s
      let x := accOf f m + p.2
      let s := onDb (fun db => onMemb f.short (passEnd f stop) (contribute f start x db)) s
      let s := closeComplete f.node s
      if !f.supply && pfZeroRun f.body ≤ (indOf s f.short).zeroCount then
        indicate f.short f.body { bit_ := 2, data0 := 0, data1 := 0, info := 2 } s
      else s
  | _, _ => s

/-- What stays in the open interval is added to ACC. -/
def foldRest (off : Int) (f : FoldIn) (sh : Shares) (db : Db) : Db :=
  match Tab.get db.memb f.short with
  | some m => if stillIn f (cutMinute off sh.opened.start) m && endOf f m ≤ cutMinute off sh.opened.start then onMemb f.short (addAcc f sh.rest) db else db
  | none => db

/-- The posting in one role of its meter. -/
def foldRole (f : FoldIn) (s : State) : State :=
  match Tab.get s.db.nodes f.node with
  | none => s
  | some n =>
    if !n.enabled then s
    else
      let off := standardOffset s
      let sh := foldShares off f n
      onDb (foldRest off f sh) (sh.closed.foldl (fun s p => foldCut off f p s) s)

/-- The roles of a posting's meter. -/
def foldsOf (db : Db) (body : Bytes) (short : Nat) (p : PostBody) (flags : Nat) : List FoldIn :=
  match Tab.get db.memb short with
  | none => []
  | some m =>
    ([(m.supplyOf, true), (m.memberOf, false)]).filterMap (fun r =>
      match r.1 with
      | none => none
      | some id => (Tab.get db.nodes id).map (fun n =>
          { short := short, supply := r.2, node := id, q := n.balQ, n := p.ns.getD n.balQ 0, runs := p.runs, est := bit flags 0,
            invalid := bit flags 5, body := body }))

/-- Step 14 of a posting with outcome ACK. -/
def balanceFold (r : JRec) (s : State) : State :=
  match r.body with
  | .posting p =>
    let s := onDb (fun d => { d with folded := max d.folded r.seq }) s
    if p.outcome != 0 || p.runs.isEmpty then s
    else (foldsOf s.db (boundBody s p.profile p.pver) r.short p r.flags).foldl (fun s f => foldRole f s) s
  | _ => s

/-- The same in the replay of P5: slots are refilled, and the closure records close them (R283). -/
def refoldCut (off : Int) (f : FoldIn) (p : Cut × Int) (db : Db) : Db :=
  match Tab.get db.memb f.short with
  | some m =>
    let start := cutMinute off p.1.start
    if !stillIn f start m || start < endOf f m then db
    else onMemb f.short (passEnd f (cutMinute off p.1.stop)) (contribute f start (accOf f m + p.2) db)
  | none => db

def refold (off : Int) (body : Bytes) (r : JRec) (db : Db) : Db :=
  match r.body with
  | .posting p =>
    if r.seq ≤ db.folded then db
    else
      let db := { db with folded := r.seq }
      if p.outcome != 0 || p.runs.isEmpty then db
      else
        (foldsOf db body r.short p r.flags).foldl (fun db f =>
          match Tab.get db.nodes f.node with
          | none => db
          | some n => if n.enabled then (let sh := foldShares off f n; foldRest off f sh (sh.closed.foldl (fun db p => refoldCut off f p db) db)) else db) db
  | _ => db

/-! ### The zone (R358) -/

/-- Every open interval of every node closes, and the grid starts anew at a minute (R358). -/
def closeAllNodes (s : State) : State :=
  s.db.nodes.foldl (fun s p =>
    let last := (p.2.slots.getLast?.map (·.start)).getD p.2.nextClose
    (List.range (if p.2.slots.isEmpty then 0 else intervalsTo p.2 last)).foldl (fun s _ => closeInterval p.1 false s) s) s

/-! ### Rows -/

/-- BALANCE_FOLD (R29 step 14, R269): the oldest durable posting is folded. -/
def execBalanceFold (seq : Nat) (s : State) : Out :=
  .next <|
    match s.lg.folds with
    | [] => s
    | r :: rest => if r.seq = seq && mayAppend s then balanceFold r (onLg (fun l => { l with folds := rest }) s) else s

/-- BAL_WAIT_EXPIRE (R271). -/
def execBalWaitExpire (node : Nat) (s : State) : Out :=
  .next <|
    match Tab.get s.db.nodes node with
    | none => s
    | some n =>
      match n.passes.head? with
      | none => s
      | some p =>
        let s := passOp (p + n.wait) s
        if mayAppend s && n.enabled && p + n.wait ≤ s.rs.opSeconds then closeComplete node (closeInterval node false s) else s

def hasMeters (s : State) (id : Nat) : Bool := s.db.memb.any (fun p => p.2.supplyOf == some id || p.2.memberOf == some id)
def hasChildren (s : State) (id : Nat) : Bool := s.db.nodes.any (fun p => p.2.parent == some id)

/-- The ancestors of a node, itself first. -/
def ancestorsF (db : Db) : Nat → Nat → List Nat
  | 0, _ => []
  | f + 1, id => id :: ((Tab.get db.nodes id).bind (·.parent)).elim [] (ancestorsF db f)

/-- The depth under a parent; none: the parent is unknown, the depth exceeds 7, or a cycle would form (0x22). -/
def depthUnder (s : State) (id : Nat) (parent : Option Nat) : Option Nat :=
  match parent with
  | none => some 0
  | some q =>
    match Tab.get s.db.nodes q with
    | none => none
    | some n => if 7 ≤ n.depth || (ancestorsF s.db 9 q).contains id then none else some (n.depth + 1)

/-- Start minute of the interval after the one that holds now. -/
def nextGrid (s : State) (len : Nat) : Nat := ((minuteNow s / (len : Int) + 1) * (len : Int)).toNat

/-- A fresh node (R265): learning from its creation. -/
def Node.fresh (parent : Option Nat) (depth q len : Nat) (e : Int) (next : Nat) : Node :=
  { parent := parent, depth := depth, balQ := q, balLen := len, eNode := e, enabled := true, learning := true, suspectLoss := false,
    suspectGain := false, judgeEst := false, reportAll := false, k := 50, h := 500, wait := 3600, suppliers := 0, members := 0, learnCount := 0,
    complete := 0, incomplete := 0, offsetRel := fZero, learnI := fZero, learnS := fZero, sPos := fZero, sNeg := fZero, lastR := fZero,
    nextClose := next, changes := [], passes := [], slots := [], alarms := [], supplied := false }

/-- The fields that NODE_SET may always change. -/
def nodeFlags (b : Bytes) (n : Node) : Node :=
  { n with enabled := bit (u8 b 23) 0, judgeEst := bit (u8 b 23) 1, reportAll := bit (u8 b 23) 2, k := u16 b 24, h := u16 b 26, wait := u32 b 28 }

def nodeSetChecks (b : Bytes) : List Check :=
  [(u8 b 20 < 4, 20), (lengths60.contains (u8 b 21), 21), (decide (-12 ≤ i8 b 22) && decide (i8 b 22 ≤ 12), 22), (u16 b 24 ≤ 1000, 24),
   (inRange (u16 b 26) 100 10000, 26), (inRange (u32 b 28) 60 86400, 28)]

def configDone (d : Nat) (c : CfgChange) (result : Bytes) (s : State) : State := finishDurable d result (appendGlobal 11 0 (.config c) s)

/-- A command of the class that changes state: not on a standby (R282 commands), and LEDGER must be able to append. -/
def changing (d : Nat) (f : State → State) (s : State) : State := unlessStandby d (fun s => if mayAppend s then f s else s) s

/-- NODE_SET (R263): 0x20 NODE_UNKNOWN, 0x21 NODE_NOT_EMPTY, 0x22 NODE_DEPTH. -/
def execNodeSet (d : Nat) (s : State) : Out :=
  .next (hostCmd 0x38 d nodeSetChecks (fun x s => changing d (fun s => asItem x (fun s =>
    let b := x.bytes
    let id := u16 b 16
    let parent := if u16 b 18 = 65535 then none else some (u16 b 18)
    let empty := !hasMeters s id && !hasChildren s id
    match Tab.get s.db.nodes id with
    | none =>
      if !bit (u8 b 23) 0 then finish d 0x20 0 [] s
      else
        match depthUnder s id parent with
        | none => finish d 0x22 0 [] s
        | some k => configDone d (.node id (some (nodeFlags b (Node.fresh parent k (u8 b 20) (u8 b 21) (i8 b 22) (nextGrid s (u8 b 21)))))) (toLE 1 k) s
    | some n =>
      if !bit (u8 b 23) 0 && empty then configDone d (.node id none) (toLE 1 n.depth) s
      else
        let shape := n.parent != parent || n.balQ != u8 b 20 || n.balLen != u8 b 21 || n.eNode != i8 b 22
        if shape && !empty then finish d 0x21 0 [] s
        else
          match depthUnder s id parent with
          | none => finish d 0x22 0 [] s
          | some k =>
            let fresh := shape || (bit (u8 b 23) 0 && !n.enabled)
            let n := if fresh then
                { n with parent := parent, depth := k, balQ := u8 b 20, balLen := u8 b 21, eNode := i8 b 22, slots := [], passes := []
                         nextClose := nextGrid s (u8 b 21) } else n
            configDone d (.node id (some (nodeFlags b n))) (toLE 1 k) s) s) s) s)

/-- The source that a meter gives in quantity q (R198). -/
def sourceOf (s : State) (short q : Nat) : Nat := pfOut (bodyOfShort s short) q

/-- The node without a parent above a node. -/
def rootOf (db : Db) (id : Nat) : Nat := ((ancestorsF db 9 id).getLast?).getD id

/-- The sources in a node and in every node tied to it by parents and children, since each child has its parent's source (R264). -/
def sourcesNear (s : State) (id : Nat) : List Nat :=
  let near := fun k => rootOf s.db k == rootOf s.db id
  s.db.memb.flatMap (fun p =>
    (keepSome [p.2.supplyOf, p.2.memberOf]).filterMap (fun k =>
      if near k then (Tab.get s.db.nodes k).map (fun m => sourceOf s p.1 m.balQ) else none))

/-- Why a meter may not take a role (R263, R264): the status code. -/
def roleRefusal (s : State) (short id : Nat) (n : Node) (member : Bool) (m : Memb) : Option Nat :=
  let body := bodyOfShort s short
  let src := pfOut body n.balQ
  let e := pfE body n.balQ
  let held := if member then m.memberOf else m.supplyOf
  if held.any (· != id) then some 0x23
  else if src = 0 || (sourcesNear s id).any (· != src) || e < n.eNode || n.eNode + 6 < e then some 0x24
  else if member && m.supplyOf.any (fun c => ((Tab.get s.db.nodes c).bind (·.parent)) != some id) then some 0x25
  else if !member && m.memberOf.any (fun p => n.parent != some p) then some 0x25
  else none

/-- The counts after a pending change to one role, from a minute on; a later change of the same minute joins it. -/
def addChange (n : Node) (at_ : Nat) (member : Bool) (delta : Int) (restart : Bool) : Node :=
  let c := countsAt n at_
  let s2 := if member then c.1 else ((c.1 : Int) + delta).toNat
  let m2 := if member then ((c.2 : Int) + delta).toNat else c.2
  let was := (n.changes.filter (fun x => x.1 == at_)).any (fun x => x.2.2.2)
  { n with changes := n.changes.filter (fun x => x.1 < at_) ++ [(at_, s2, m2, was || restart)] }

/-- The membership record after NODE_MEMBER (R267): a removed meter that owes no interval up to its boundary leaves at once, and one added
again before it has left goes on with what it has accumulated. -/
def membAfter (m : Memb) (id at_ : Nat) (member remove : Bool) : Memb :=
  if remove then
    (if member then (if at_ ≤ m.endM then { m with memberOf := none, leaveM := none, accM := 0, endM := 0 } else { m with leaveM := some at_ })
     else if at_ ≤ m.endS then { m with supplyOf := none, leaveS := none, accS := 0, endS := 0 } else { m with leaveS := some at_ })
  else if member && m.memberOf == some id && m.leaveM.any (at_ ≤ ·) then { m with leaveM := none }
  else if !member && m.supplyOf == some id && m.leaveS.any (at_ ≤ ·) then { m with leaveS := none }
  else if member then { m with memberOf := some id, leaveM := none, accM := 0, endM := at_ }
  else { m with supplyOf := some id, leaveS := none, accS := 0, endS := at_ }

/-- NODE_MEMBER (R263, R264, R267): 0x26 NOT_HOME, 0x20 NODE_UNKNOWN, 0x23 to 0x25. A removal of a meter that has no such role is a
BAD_PARAM of its ROLE (log 24). -/
def execNodeMember (d : Nat) (s : State) : Out :=
  .next (meterCmd 0x39 d false otherClass (fun _ => []) (fun x k e s => changing d (fun s => asItem x (fun s =>
    let b := x.bytes
    let id := u16 b 28
    let member := bit (u8 b 30) 0
    let remove := bit (u8 b 30) 1
    let m := Tab.getD s.db.memb k Memb.none
    if !e.homeSelf then finish d 0x26 0 [] s
    else
      match Tab.get s.db.nodes id with
      | none => finish d 0x20 0 [] s
      | some n =>
        let held := (if member then m.memberOf else m.supplyOf) == some id && (if member then m.leaveM else m.leaveS).isNone
        if remove && !held then badParam d 30 s
        else
          match if remove then none else roleRefusal s k id n member m with
          | some st => finish d st 0 [] s
          | none =>
            let at_ := nextGrid s n.balLen
            if !remove && held then finishOk d (toLE 4 at_) s
            else
              let n2 := addChange n at_ member (if remove then -1 else 1) (!bit (u8 b 30) 2)
              configDone d (.memb k (some (membAfter m id at_ member remove)) id n2) (toLE 4 at_) s) s) s) s)

/-! Bytes of the records as the commands write them. -/


/-- Pending slot (R265). -/
def slotBytes (v : BalSlot) : Bytes :=
  toLE 4 v.start ++ toLE 4 (2 ^ 31 * b2n v.estimated + 2 ^ 30 * b2n v.clockInvalid + 2 ^ 29 * b2n v.overflow + v.reported) ++ toLE 4 v.target ++
  [0, 0, 0, 0] ++ toLE 16 (ofInt 128 v.supply) ++ toLE 16 (ofInt 128 v.imbal) ++ toLE 16 v.var

/-- Indicator record (R276). -/
def indBytes (i : Ind) : Bytes :=
  toLE 2 i.ind ++ toLE 1 i.phase ++ toLE 1 i.phaseRun ++ toLE 2 i.zeroCount ++ toLE 1 i.skewRun ++ toLE 1 i.radioRun ++ toLE 4 i.replayWin ++
  toLE 2 i.replayBase ++ toLE 2 (ofInt 16 i.rssiRef) ++ toLE 2 (ofInt 16 i.cfoRef) ++ toLE 1 i.radioCount ++ List.replicate 13 0

/-- Fingerprint reference (R278). -/
def fpBytes (r : FpRef) : Bytes :=
  r.mags.flatMap (fun m => toLE 1 (ofInt 8 m)) ++ toLE 2 (ofInt 16 r.timing) ++ toLE 1 r.count ++ toLE 1 r.run ++ toLE 1 (b2n r.frozen) ++
  List.replicate 11 0

/-- Membership record (R266). -/
def membBytes (m : Memb) : Bytes :=
  toLE 2 (m.supplyOf.getD 65535) ++ toLE 2 (m.memberOf.getD 65535) ++ toLE 4 (2 * b2n m.leaveS.isSome + b2n m.leaveM.isSome) ++ toLE 8 (w64 m.accS) ++
  toLE 8 (w64 m.accM) ++ toLE 4 m.endS ++ toLE 4 m.endM

/-- NODE_READ (R265). -/
def execNodeRead (d : Nat) (s : State) : Out :=
  .next (hostCmd 0x3A d (fun b => [addrCheck b 24 64]) (fun x s => asItem x (fun s =>
    let id := u16 x.bytes 16
    match Tab.get s.db.nodes id with
    | none => finish d 0x20 0 [] s
    | some n => finishOk d [] (putOut d (u64 x.bytes 24) (padTo 2176 (nodeBytes id n ++ n.slots.flatMap slotBytes)) s)) s) s)

/-- NODE_RELEARN (R272, R274). -/
def execNodeRelearn (d : Nat) (s : State) : Out :=
  .next (hostCmd 0x3B d (fun _ => []) (fun x s => changing d (fun s => asItem x (fun s =>
    let id := u16 x.bytes 16
    match Tab.get s.db.nodes id with
    | none => finish d 0x20 0 [] s
    | some n => configDone d (.node id (some { learnStart n with suspectLoss := false, suspectGain := false })) [] s) s) s) s)

/-- BAL_REPORT_READ (R282). -/
def execBalReportRead (d : Nat) (s : State) : Out :=
  .next (hostCmd 0x3C d (fun b => logChecks b 64) (fun x s =>
    readLog d 64 x.bytes (s.db.reports.reverse.map (fun r => (r.seq, r.bytes))) s) s)

/-- INDICATOR_READ (R276). -/
def execIndicatorRead (d : Nat) (s : State) : Out :=
  .next (meterCmd 0x3D d false otherClass (fun b => [addrCheck b 32 64]) (fun x k _ s =>
    let fps := (List.range 4).flatMap (fun c => fpBytes (Tab.getD s.db.fps (4 * k + c) FpRef.fresh))
    finishOk d [] (putOut d (u64 x.bytes 32) (indBytes (indOf s k) ++ fps ++ membBytes (Tab.getD s.db.memb k Memb.none)) s)) s)

/-- INDICATOR_CLEAR (R274, R276, R278): with NODE the meter reference must be zero. -/
def execIndicatorClear (d : Nat) (s : State) : Out :=
  .next (hostCmd 0x3E d (fun b => if bit (u8 b 30) 1 then [(allZero (slice b 16 12), 16)] else refChecks b) (fun x s => changing d (fun s => asItem x (fun s =>
    let b := x.bytes
    if bit (u8 b 30) 1 then
      let id := u16 b 32
      match Tab.get s.db.nodes id with
      | none => finish d 0x20 0 [] s
      | some n => configDone d (.node id (some { n with suspectLoss := false, suspectGain := false })) [] s
    else
      match refMeter false s b with
      | none => finish d otherClass.1 otherClass.2 [] s
      | some (k, _) => configDone d (.indClear k (u16 b 28) (bit (u8 b 30) 0)) [] s) s) s) s)

/-- BAL_STATS (R284). -/
def execBalStats (d : Nat) (s : State) : Out :=
  .next (statsCmd 0x3F d 64 (fun s => s.lg.balStats)
    (fun s => cntClear 4 (onLg (fun l => { l with balStats := List.replicate 7 0 }) s)) (fun _ => []) s)

end Sys2Proof.Machine
end

