-- ==== Sys2Proof/Machine/Billing.lean ====
section
/-! DEFINITION. Billing periods (R234 to R237): crossings, sweeps and the close of a meter; the changed zone offset (R358); what follows
an outage (R242); and the commands of class 0x20 that read and set the ledger (R250). -/
namespace Sys2Proof.Machine
open Sys2Proof

/-! ### Snapshots (R224) -/

/-- A standard record in the layout of a snapshot. -/
def stdSnapshot (r : Std) (closeTime : Nat) : Snapshot :=
  { billNo := r.billNo, flags := b2n r.periodInvalid, closeTime := closeTime, tot := r.tot, roll := r.roll ++ [0, 0], fixMd := r.md
    fixMdTime := r.mdTime, fixMdFlags := mdFlagsStd r, slideMd := 0, slideMdTime := 0, slideMdFlags := 0 }

def custSnapshot (r : Cust) (closeTime : Nat) : Snapshot :=
  { billNo := r.billNo, flags := r.periodFlags, closeTime := closeTime, tot := r.tot, roll := r.roll, fixMd := r.fixMd
    fixMdTime := r.fixMdTime, fixMdFlags := r.fixMdFlags, slideMd := r.slideMd, slideMdTime := r.slideMdTime
    slideMdFlags := r.slideMdFlags }


/-! ### Closing the intervals of a record -/

def demandLen (body : Bytes) : Int := if (pfDemandQ body).isSome then 60 * pfDemandLen body else 0

/-- Demand settings of a custody channel under a profile. -/
def demandSet (s : State) (body : Bytes) : DemandSet :=
  { off := standardOffset s, q := pfDemandQ body, len := demandLen body, subLen := if (pfDemandQ body).isSome then 60 * pfSubLen body else 0
    subCount := pfSubCount body, outages := s.db.outages, timeline := s.db.timeline }

/-- LAST_TIME of a meter in READ_TIME units; none without history. -/
def lastUnits (s : State) (short : Nat) : Option Int :=
  let m := mstateOf s short
  if m.noHistory then none else some (stampOfNet m.lastTime)

/-- The standard record's open interval closes where it ends at or before a TAI second (R235 step 1). -/
def closeStdTo (s : State) (body : Bytes) (last : Option Int) (sec : Int) (r : Std) : Std × Nat :=
  let len := demandLen body
  match last with
  | none => (r, 0)
  | some t =>
    if len = 0 then (r, 0)
    else
      let off := standardOffset s
      let w := Walk.at off (stdOpen off len t r) len
      if w.stop ≤ sec then
        let c := closeStdInterval len s.db.outages { x := 0, start := w.start, stop := w.stop, split := false } r
        ({ c.1 with closedTo := sec.toNat }, c.2)
      else (r, 0)

/-- Marks of an interval that a billing close or a zone change ends. -/
def closeMarks (r : Cust) : Marks := { est := false, late := false, invalid := r.invalid, unknown := false, single := r.single, roll := false }

/-- The custody channel's intervals that end at or before a TAI second close: the record, its minutes, and intervals split. -/
def closeCustTo (s : State) (body : Bytes) (last : Option Int) (sec : Int) (r : Cust) : Cust × List Minute × Nat :=
  match last with
  | none => (r, [], 0)
  | some t =>
    let d := demandSet s body
    let runs := clockRuns t (sec * unitsPerSec) (r.steps.map (fun p => (unitsOf p.1, unitsOf p.2)))
    if elapsed runs ≤ 0 then (r, [], 0)
    else
      let m := closeMarks r
      let (r1, k, _) := if d.len = 0 then (r, 0, 0) else custFix d m runs none 0 r
      let r2 := custSub d m runs none 0 r1
      let (r3, ms) := custMinutes d m runs none [0, 0, 0, 0] r2
      ({ r3 with closedTo := max r3.closedTo sec.toNat }, ms, k)

def statLgN (k n : Nat) (s : State) : State := (List.range n).foldl (fun s _ => statLg k s) s

/-- Minute records of a channel (R246). -/
def appendMinutes (short channel : Nat) (ms : List Minute) (s : State) : State :=
  ms.foldl (fun s m => append 8 short channel 0 false (.minute m) s) s

/-! ### The close of one meter (R235) -/

/-- What the period that opens starts with. -/
def openStd (billNo : Nat) (r : Std) : Std :=
  { r with billNo := billNo, md := 0, mdTime := 0, mdPartial := false, mdEstimated := false, periodInvalid := false }

def openCust (billNo : Nat) (snap : Snapshot) (r : Cust) : Cust :=
  { r with
    billNo := billNo, fixMd := 0, fixMdTime := 0, fixMdFlags := 0, slideMd := 0, slideMdTime := 0, slideMdFlags := 0
    periodFlags := b2n r.invalid + 2 * b2n r.single, snap1 := r.snap0, snap0 := some snap }

/-- Closes a meter or channel for boundary B at a nominal instant. -/
def closeMeter (short billNo : Nat) (instant : Int) (s : State) : State :=
  let body := bodyOfShort s short
  let sec := instant / 1000000000
  let last := lastUnits s short
  match channelOf s short with
  | some (ch, r) =>
    let (r1, ms, k) := closeCustTo s body last sec r
    let snap := custSnapshot r1 (stampOf instant)
    let s := statLgN 5 k (appendMinutes short ch ms s)
    audit ch 6 0 billNo (stampOf instant) (appendMeter 3 short 0 (.close snap none (some (openCust billNo snap r1))) s)
  | none =>
    let (r1, k) := closeStdTo s body last sec (stdOf s short)
    appendMeter 3 short 0 (.close (stdSnapshot r1 (stampOf instant)) (some (openStd billNo r1)) none) (statLgN 0 k s)

/-- BILL_NO of the meter's record, standard or custody. -/
def billNoOf (s : State) (short : Nat) : Nat :=
  match channelOf s short with
  | some p => p.2.billNo
  | none => (stdOf s short).billNo

/-- The meter is on the calendar and boundary B is not yet closed on it. A meter enrolled after the boundary opens with B; one whose BILL_NO
is B by another calendar is closed (R235). -/
def closeDue (s : State) (short cal billNo : Nat) (instant : Int) : Bool :=
  let lastClose := (((Tab.getD s.db.snaps short []).head?).map (fun p => p.2.closeTime)).getD 0
  pfBillCal (bodyOfShort s short) == cal && ((Tab.get s.db.std short).isSome || (channelOf s short).isSome) &&
    lastClose < stampOf instant && (billNoOf s short != billNo || billNo == 65535 || (Tab.get s.db.enrolled short).any (fun t => t < stampOf instant))

/-- Every boundary whose sweep has not reached the meter is closed on it (R235 step 2). -/
def closeIfDue (short : Nat) (s : State) : State :=
  s.lg.sweeps.foldl (fun s w => if closeDue s short w.1 w.2.1 w.2.2 then closeMeter short w.2.1 w.2.2 s else s) s

/-- The meters and channels that LEDGER keeps. -/
def ledgerMeters (s : State) : List Nat := (s.db.entries.filter (fun p => p.2.homeSelf)).map (·.1)

/-! ### A changed zone offset (R358) -/

/-- The open interval of a standard record is closed at an instant. -/
def cutStd (s : State) (short : Nat) (sec : Int) (r : Std) : Std × Nat :=
  let len := demandLen (bodyOfShort s short)
  match lastUnits s short with
  | none => (r, 0)
  | some t =>
    if len = 0 then (r, 0)
    else
      let c := closeStdInterval len s.db.outages { x := 0, start := stdOpen (standardOffset s) len t r, stop := sec, split := false } r
      ({ c.1 with closedTo := sec.toNat }, c.2)

/-- The open custody intervals are closed at an instant, SPLIT, and open anew on the grid of another offset. -/
def cutCust (s : State) (short : Nat) (sec off : Int) (r : Cust) : Cust × List Minute :=
  if (lastUnits s short).isNone then (r, [])
  else
    let d := demandSet s (bodyOfShort s short)
    let m := closeMarks r
    let cut := fun start : Int => ({ x := 0, start := start, stop := sec, split := true } : Cut)
    let r := if d.len = 0 then r else (closeFix d m (cut r.fixStart, 0) r).1
    let r := if d.subLen = 0 then r else closeSub d m (cut r.subStart, 0) r
    let (r, min) := closeMinute d m (cut (60 * (r.minIndex : Int) - d.off)) [0, 0, 0, 0] r
    ({ custOpen { d with off := off } (sec * unitsPerSec) r with closedTo := sec.toNat }, [min])

def cutMeter (sec off : Int) (s : State) (short : Nat) : State :=
  match channelOf s short with
  | some (ch, r) =>
    let (r, ms) := cutCust s short sec off r
    appendGlobal 11 0 (.config (.ledger short none ch (some r))) (statLg 5 (appendMinutes short ch ms s))
  | none =>
    let (r, k) := cutStd s short sec (stdOf s short)
    appendGlobal 11 0 (.config (.ledger short (some r) 127 none)) (statLgN 0 k s)

/-- ZONE_OFFSET changes at an instant: every open demand, balance and custody interval closes. -/
def changeZone (zone : Int) (sec : Int) (s : State) : State :=
  let off := standardOffset s + 60 * (zone - s.tm.zone.zone)
  let s := (ledgerMeters s).foldl (cutMeter sec off) (closeAllNodes s)
  let s := saveOpt (fun o => { o with zone := { o.zone with zone := zone }, nextZone := none }) (onTm (fun t => { t with zone := { t.zone with zone := zone } }) s)
  onDb (fun d => { d with nodes := d.nodes.map (fun p =>
    (p.1, { p.2 with nextClose := ((sec + off) / 60 / (p.2.balLen : Int) * (p.2.balLen : Int)).toNat, passes := [] })) }) s

/-! ### Crossings (R235 to R237) -/

/-- The next boundary of a calendar, and the same where the clock has reached it. -/
def comingBoundary (s : State) (cal : Nat) : Option (Int × Int) :=
  if (s.opt.cals.getD cal BillCal.reset).kind = 0 then none else nextBoundary s cal
def dueBoundary (s : State) (cal : Nat) : Option (Int × Int) := (comingBoundary s cal).filter (fun b => b.1 ≤ taiSec s)

/-- A calendar crosses its next boundary at the nominal instant. -/
def crossBoundary (cal : Nat) (b : Int × Int) (s : State) : State :=
  let s := match s.opt.nextZone with
    | some z => if cal = 0 then changeZone z b.1 s else s
    | none => s
  let count := min 65535 (crossCount s cal + 1)
  let instant := b.1 * 1000000000
  let s := whenDurable (.calKept cal count b.1) (appendGlobal 4 0 (.calCross cal count instant.toNat b.2) s)
  onLg (fun l => { l with sweeps := l.sweeps ++ [(cal, count, instant)] }) s

def crossPassedF : Nat → State → State
  | 0, s => s
  | f + 1, s =>
    let due := (List.range 4).filterMap (fun c => (dueBoundary s c).map (fun b => (c, b)))
    match due with
    | [] => s
    | p :: r =>
      let q := r.foldl (fun a b => if b.2.1 < a.2.1 then b else a) p
      crossPassedF f (crossBoundary q.1 q.2 s)

/-- Every boundary whose instant has passed is crossed, in order (R237). -/
def crossPassed (s : State) : State := crossPassedF 1000000 s

/-- CALENDAR_CROSS (R235): the clock reaches the next boundary of a calendar. -/
def execCalendarCross (cal : Nat) (s : State) : Out :=
  .next <|
    if !mayAppend s || !s.tm.validSeen then s
    else
      match comingBoundary s cal with
      | some b => crossBoundary cal b (passClock (b.1 * 1000000000) s)
      | none => s

/-- BILLING_SWEEP (R235): the oldest sweep of a calendar closes its meters and ends. -/
def execBillingSweep (cal : Nat) (s : State) : Out :=
  .next <|
    match s.lg.sweeps.find? (fun w => w.1 == cal) with
    | none => s
    | some w =>
      if !mayAppend s || !isUp s 9 then s
      else
        let s := (ledgerMeters s).foldl (fun s k => if closeDue s k cal w.2.1 w.2.2 then closeMeter k w.2.1 w.2.2 s else s) s
        let s := onLg (fun l => { l with sweeps := l.sweeps.erase w }) s
        raise 46 (cal + 4 * (w.2.1 % 2 ^ 14)) s

/-! ### The period in force (R225, R226, R240, R242) -/

/-- The period in force follows its source: a change is journalled, audited on the custody channels and raised (R226, R245). `restored`:
after an outage, where a change of the inputs has no known instant (R242). The change is dated `time` (TAI ns); a billing boundary whose instant
has come is crossed before it (R244). -/
def evaluateTariffAt (restored : Bool) (time : Nat) (s : State) : State :=
  let s := if s.tm.validSeen && s.lg.sampled then crossPassed s else s
  let p := periodSource s
  let old := periodNow s.db.timeline
  let unknown := restored && p.2 == 0 && translateCode s s.lg.lastCode != s.db.inputPeriod
  let s := onLg (fun l => { l with period := p.1, source := p.2 }) s
  let s := if p.2 = 0 then onDb (fun d => { d with inputPeriod := p.1 }) s else s
  if p.1 = old then s
  else
    let s := appendGlobal 5 0 (.tariff p.1 old p.2 time unknown) s
    let s := auditAll 3 (b2n unknown) (p.1 + 16 * old + 256 * p.2) 0 s
    announceTariff p.1 time (raise 45 (p.1 + 16 * p.2 + 256 * b2n unknown) (onLg (fun l => { l with changes := min 65535 (l.changes + 1) }) s))

def evaluateTariff (restored : Bool) (s : State) : State := evaluateTariffAt restored s.tm.counter.toNat s

/-- The period is judged anew where LEDGER runs, has taken a code and may append; else at the next code or the end of the warning. -/
def retariff (s : State) : State := if mayAppend s && s.lg.sampled then evaluateTariff false s else s

/-- TARIFF_OVERRIDE_EXPIRE (R226). -/
def execTariffOverrideExpire (s : State) : Out :=
  .next <|
    match s.lg.ovr with
    | some (_, some e) => if isUp s 8 then retariff (onLg (fun l => { l with ovr := none }) (passTo e s)) else s
    | _ => s

/-- What LEDGER does at the first stable code after its release (R242), or once it can append: t_rest is the instant of that code. -/
def afterOutage (s : State) : State :=
  let s := if s.tm.validSeen then crossPassed s else s
  let out := s.lg.outStart.getD 0
  let rest := (s.lg.outRest.getD s.tm.counter).toNat
  let s := appendGlobal 7 0 (.outage out.toNat rest) s
  let s := auditAll 4 0 (stampOf out) (stampOf (rest : Int)) s
  evaluateTariffAt true rest (onLg (fun l => { l with outStart := none, outRest := none, codeOwed := none }) s)

/-- LEDGER can append again: what it owes of an outage and of stable codes is journalled, and pending closes leave (R226, R242, R258). -/
def ledgerResumed (s : State) : State :=
  if !mayAppend s then s
  else
    let s :=
      if !s.lg.sampled then s
      else if s.lg.outStart.isSome then afterOutage s
      else
        match s.lg.codeOwed with
        | some t => evaluateTariffAt false t.toNat (onLg (fun l => { l with codeOwed := none }) s)
        | none => evaluateTariff false s
    releaseCloses s

/-- TARIFF_CODE_STABLE (R225): a code stable for 20 ms is taken. Its records wait while LEDGER cannot append (log 104). -/
def execTariffCodeStable (code : Nat) (s : State) : Out :=
  .next <|
    if !isUp s 8 then s
    else
      let first := !s.lg.sampled
      let s := onLg (fun l => { l with code := code, lastCode := code, sampled := true, map := l.nextMap.getD l.map, nextMap := none }) s
      if !mayAppend s then onLg (fun l => if first then { l with outRest := some s.tm.counter } else { l with codeOwed := some s.tm.counter }) s
      else if s.lg.outStart.isSome then afterOutage s
      else evaluateTariff false s

/-! ### Commands of class 0x20 -/

/-- TARIFF_MAP_SET: the table takes effect at the next stable code (R250). -/
def execTariffMapSet (d : Nat) (s : State) : Out :=
  .next (hostCmd 0x20 d (fun _ => []) (fun x s => unlessStandby d (fun s =>
    let m := (List.range 16).map (fun k => u8 x.bytes (16 + k))
    finishOk d [] (saveOpt (fun o => { o with tariffMap := m }) (onLg (fun l => { l with nextMap := some m }) s))) s) s)

/-- TARIFF_OVERRIDE (R226, R250). -/
def execTariffOverride (d : Nat) (s : State) : Out :=
  .next (hostCmd 0x21 d (fun _ => []) (fun x s => unlessStandby d (fun s =>
    let b := x.bytes
    let v : Option (Nat × Option Nat) :=
      if bit (u8 b 16) 7 then some (u8 b 16 % 16, if u32 b 20 = 0 then none else some (s.now + u32 b 20 * secNs)) else none
    let s := retariff (saveOpt (fun o => { o with ovr := v }) (onLg (fun l => { l with ovr := v }) s))
    finishOk d (toLE 1 (periodNow s.db.timeline)) s) s) s)

/-- TARIFF_FOLLOW (R226). -/
def execTariffFollow (d : Nat) (s : State) : Out :=
  .next (hostCmd 0x22 d (fun _ => []) (fun x s => unlessStandby d (fun s =>
    finishOk d [] (retariff (saveOpt (fun o => { o with follow := bit (u8 x.bytes 16) 0 }) s))) s) s)

/-- BILL_CAL_SET (R234, R250): the crossing count stays. -/
def execBillCalSet (d : Nat) (s : State) : Out :=
  .next (hostCmd 0x23 d
    (fun b => [(inRange (u8 b 16) 0 3, 16), (inRange (u8 b 17) 0 3, 17),
      ((u8 b 17 != 2 || u8 b 18 ≤ 6) && (u8 b 17 != 3 || inRange (u8 b 18) 1 28), 18), (inRange (u8 b 19) 0 23, 19),
      (inRange (u8 b 20) 0 59, 20)])
    (fun x s => unlessStandby d (fun s =>
      let b := x.bytes
      let c : BillCal := { kind := u8 b 17, day := u8 b 18, hour := u8 b 19, minute := u8 b 20 }
      let s := saveOpt (fun o => { o with cals := setAt o.cals (u8 b 16) c, calFrom := setAt o.calFrom (u8 b 16) (taiSec s) }) s
      finishOk d (toLE 2 (crossCount s (u8 b 16))) s) s) s)

/-- The custody record that a meter's standard record is moved into (R250). -/
def custOfStd (s : State) (short : Nat) (r : Std) : Cust :=
  let d := demandSet s (bodyOfShort s short)
  let snaps := (Tab.getD s.db.snaps short []).map (·.2)
  let c := { Cust.fresh short r.billNo with
    single := s.lg.missing != 0, invalid := !s.tm.validSeen
    resid := r.resid ++ [fZero, fZero], tot := r.tot, roll := r.roll ++ [0, 0], fixAcc := r.demAcc, fixMd := r.md
    fixMdTime := r.mdTime, fixMdFlags := mdFlagsStd r, closedTo := r.closedTo
    periodFlags := b2n (r.periodInvalid || !s.tm.validSeen) + 2 * b2n (s.lg.missing != 0)
    fixFlags := fixBits r.accPartial false r.accEstimated false false, snap0 := snaps[0]?, snap1 := snaps[1]? }
  match lastUnits s short with
  | some t => custOpen d (max t ((r.closedTo : Int) * unitsPerSec)) c
  | none => c

/-- The standard record that a custody channel is moved back into: quantities 0 and 1 (R250). -/
def stdOfCust (s : State) (short : Nat) (c : Cust) : Std :=
  let snap := fun k : Nat => ((Tab.getD s.db.snaps short [])[k]?.map (fun p => (p.2.billNo, p.1 % 2 ^ 48))).getD (0, 0)
  { Std.fresh c.billNo with
    mdPartial := bit c.fixMdFlags 0, mdEstimated := bit c.fixMdFlags 2, roll := (c.roll.take 2).map (min 127)
    demAcc := satDemand c.fixAcc, md := satDemand c.fixMd, mdTime := c.fixMdTime, resid := c.resid.take 2
    tot := c.tot.filter (fun p => p.1 < 32), snap0 := snap 0, snap1 := snap 1, accEstimated := bit c.fixFlags 2
    accPartial := bit c.fixFlags 0, periodInvalid := bit c.periodFlags 0, closedTo := c.closedTo }

def profileIdOf (s : State) (short : Nat) : Nat := ((profileFor s (((entryOf s short).map (·.id)).getD 0)).map (·.1)).getD 0

/-- Binds a channel: the record moves, and the channel gets its audit entry. -/
def bindCustody (d ch k : Nat) (s : State) : State :=
  let c := custOfStd s k (stdOf s k)
  let s := appendGlobal 11 0 (.config (.custody ch (some c) k none)) s
  let s := saveOpt (fun o => { o with custody := Tab.set o.custody ch k }) s
  finishDurable d [] (audit ch 8 0 (profileIdOf s k) 0 s)

/-- Unbinds a channel. Demand that the standard record cannot hold saturates and is counted (R223). -/
def unbindCustody (d ch k : Nat) (c : Cust) (s : State) : State :=
  let s := audit ch 8 0 (profileIdOf s k) 2 s
  let s := saveOpt (fun o => { o with custody := Tab.del o.custody ch }) (statLgN 0 (demandSat c.fixAcc + demandSat c.fixMd) s)
  finishDurable d [] (appendGlobal 11 0 (.config (.custody ch none k (some (stdOfCust s k c)))) s)

/-- CUSTODY_SET (R224, R250); a prepaid meter is not bound (R251). -/
def execCustodySet (d : Nat) (s : State) : Out :=
  .next (meterCmd 0x24 d false otherClass (fun b => [(inRange (u8 b 28) 0 95, 28)]) (fun x k e s => changing d (fun s =>
    let ch := u8 x.bytes 28
    let bound := (Tab.get s.db.cust ch).filter (·.enabled)
    if bit (u8 x.bytes 29) 0 then
      if !e.homeSelf || (profileFor s e.id).isNone || pfQuantities (bodyOfShort s k) != 4 then finish d 0x20 0 [] s
      else
        match bound, channelOf s k with
        | some c, _ => if c.short = k then finishOk d [] s else finish d 0x21 0 [] s
        | none, some _ => finish d 0x21 0 [] s
        | none, none => if (stdOf s k).prepay.enabled then notAllowed d s else bindCustody d ch k s
    else
      match bound with
      | none => finish d 0x23 0 [] s
      | some c => if c.short = k then unbindCustody d ch k c s else finish d 0x21 0 [] s) s) s)

/-- The record, standard or custody, and its snapshots as LEDGER_READ gives them. -/
def ledgerPart (s : State) (short part : Nat) : Option Snapshot :=
  match channelOf s short with
  | some (_, c) => if part = 0 then some (custSnapshot c 0) else if part = 1 then c.snap0 else c.snap1
  | none => if part = 0 then some (stdSnapshot (stdOf s short) 0) else (Tab.getD s.db.snaps short [])[part - 1]?.map (·.2)

def ledgerReadOf (d k : Nat) (x : Desc) (s : State) : State :=
  match ledgerPart s k (u8 x.bytes 28) with
  | none => finish d 0x22 0 [] s
  | some p => finishOk d (toLE 2 p.billNo) (putOut d (u64 x.bytes 32) (snapBytes p) s)

/-- LEDGER_READ (R250). -/
def execLedgerRead (d : Nat) (s : State) : Out :=
  .next (hostCmd 0x25 d
    (fun b => (if bit (u8 b 29) 0 then (List.range 12).map (fun i => (u8 b (16 + i) == 0, 16 + i)) ++ [(inRange (u8 b 30) 0 95, 30)]
      else refChecks b) ++ [(inRange (u8 b 28) 0 2, 28), addrCheck b 32 64])
    (fun x s =>
      if bit (u8 x.bytes 29) 0 then
        match (Tab.get s.db.cust (u8 x.bytes 30)).filter (·.enabled) with
        | none => finish d 0x23 0 [] s
        | some c => ledgerReadOf d c.short x s
      else
        match refMeter true s x.bytes with
        | none => finish d 2 16 [] s
        | some (k, e) => if e.homeSelf then ledgerReadOf d k x s else finish d 0x20 0 [] s) s)



def enabledChannel (s : State) (ch : Nat) : Bool := ((Tab.get s.db.cust ch).map (·.enabled)).getD false

/-- PROFILE_READ (R246, R250). -/
def execProfileRead (d : Nat) (s : State) : Out :=
  .next (hostCmd 0x26 d (fun b => (inRange (u8 b 16) 0 95, 16) :: logChecks b 64) (fun x s =>
    let b := x.bytes
    if !enabledChannel s (u8 b 16) then finish d 0x23 0 [] s
    else
      let l := (Tab.getD s.db.minutes (u8 b 16) []).reverse.filter (fun m => u32 b 20 ≤ m.minute)
      let n := u32 b 32 / 64
      let now := l.take n
      let next := ((l.drop n).head?.map (·.minute)).getD 0
      finishOk d (toLE 4 now.length ++ toLE 4 next) (putOut d (u64 b 24) (now.flatMap minuteBytes) s)) s)

/-- AUDIT_READ (R245, R250). -/
def execAuditRead (d : Nat) (s : State) : Out :=
  .next (hostCmd 0x27 d (fun b => (inRange (u8 b 16) 0 95, 16) :: logChecks b 32) (fun x s =>
    if !enabledChannel s (u8 x.bytes 16) then finish d 0x23 0 [] s
    else readLog d 32 x.bytes ((Tab.getD s.db.audits (u8 x.bytes 16) []).reverse.map (fun a => (a.seq, auditBytes a))) s) s)

/-- LEDGER_SET (R250). -/
def execLedgerSet (d : Nat) (s : State) : Out :=
  .next (hostCmd 0x28 d (fun b => [(inRange (u32 b 16) 100 60000, 16)])
    (fun x s => unlessStandby d (fun s => finishOk d [] (saveOpt (fun o => { o with stepLimit := u32 x.bytes 16 }) s)) s) s)

/-- LEDGER_STATS (R250). -/
def execLedgerStats (d : Nat) (s : State) : Out :=
  .next (statsCmd 0x29 d 64 (fun s => s.lg.stats)
    (fun s => cntClear 2 (onLg (fun l => { l with stats := List.replicate 6 0 }) s)) (fun _ => []) s)

end Sys2Proof.Machine
end

