-- ==== Sys2Proof/Machine/Table.lean ====
section
/-! DEFINITION. The meter table (chapter 06): places of entries, enrolment and removal, profiles, prefixes, re-seeding, rebuilding, learning
and ageing. -/
namespace Sys2Proof.Machine
open Sys2Proof

/-! ### Places of entries (R133 to R135) -/

def bucketOf (root epoch id : Nat) : Nat := (Config.meterHash root epoch id).toNat % 2 ^ 20

def ovfUsed (s : State) : Nat := (s.tbl.slots.filter (·.ovf)).length
def ovfSize : Nat := 8192

/-- The place of one more entry: the first free slot of its bucket, else the overflow store. -/
def placeIn (l : List MSlot) (bucket short : Nat) : MSlot :=
  { short := short, bucket := bucket, ovf := 4 ≤ (l.filter (fun m => !m.ovf && m.bucket == bucket)).length }

/-- The overflow store has no room for one more entry. -/
def storeFull (l : List MSlot) : Bool := ovfSize ≤ (l.filter (·.ovf)).length

/-- A table built in short-index order under an epoch. An entry that finds its bucket and the store full gets no place: the rules give a
table that is built no other outcome (DESIGN CHOICE, log 101). -/
def buildSlots (root epoch : Nat) (entries : Tab MEntry) : List MSlot :=
  entries.foldl (fun l p =>
    let m := placeIn l (bucketOf root epoch p.2.id) p.1
    if m.ovf && storeFull l then l else l ++ [m]) []

/-- The root that the hash key comes from: the root secret, or keyless the draw made for this start (R133, R137). -/
def hashRootNow (s : State) : Nat := match macRootNow s with | some r => r | none => s.tbl.hashRoot

/-- A new place for an enrolled meter; none where the overflow store is full. -/
def placeFor (s : State) (short id : Nat) : Option MSlot :=
  let m := placeIn s.tbl.slots (bucketOf s.tbl.hashRoot s.tbl.epoch id) short
  if m.ovf && storeFull s.tbl.slots then none else some m

/-- A re-seed starts with the epoch after the live one (R136). -/
def startReseed (d : Option Nat) (s : State) : State :=
  onTbl (fun t => { t with state := 1, reseed := some { epoch := (t.epoch + 1) % 256, tries := 1, desc := d, switched := false } }) s

/-- TABLE_PRESSURE, and the re-seed it starts (R135, R136). -/
def notePressure (s : State) : State :=
  if 6144 ≤ ovfUsed s && s.tbl.pressureArmed then
    let s := raise 52 (ovfUsed s) (onTbl (fun t => { t with pressureArmed := false }) s)
    if s.opt.autoReseed && s.tbl.reseed.isNone && s.tbl.state == 0 then startReseed none s else s
  else s

/-- An entry's place is freed; an entry of the store whose bucket this was moves in (R135). -/
def freePlace (short : Nat) (s : State) : State :=
  match s.tbl.slots.find? (fun m => m.short == short) with
  | none => s
  | some m =>
    let l := s.tbl.slots.filter (fun x => x.short != short)
    let l := if m.ovf then l
      else match l.find? (fun x => x.ovf && x.bucket == m.bucket) with
        | some y => modWhere (fun x => x.short == y.short) (fun x => { x with ovf := false }) l
        | none => l
    let s := onTbl (fun t => { t with slots := l }) s
    if ovfUsed s < 5734 then onTbl (fun t => { t with pressureArmed := true }) s else s

/-! ### The commands of the table (R141 to R143) -/

/-- Status of class 0x10 for a reference that names no enrolled meter. -/
def unknownMeter : Nat × Nat := (0x23, 0)

/-- A command of this class that names a meter: by identity it needs the table (R140). -/
def tableCmd (op d : Nat) (retired : Bool) (checks : Bytes → List Check) (f : Desc → Nat → MEntry → State → State) (s : State) : State :=
  meterCmd op d retired unknownMeter checks f s

/-- The lowest short index that is free: not held by an entry or by a purge that is not yet durable (R142, R143). -/
def indexTaken (s : State) (k : Nat) : Bool := (Tab.get s.db.entries k).isSome || (Tab.get s.db.purging k).isSome
def lowestIndex (s : State) : Option Nat :=
  (List.range (s.db.entries.length + s.db.purging.length + 1)).find? (fun k => k < 2 ^ 20 && !indexTaken s k)

/-- The record of a table change, and the completion when it is durable. -/
def tableChange (d k : Nat) (e : MEntry) (billNo : Nat) (result : Bytes) (s : State) : State :=
  finishDurable d result (appendMeter 2 k billNo (.table e false) s)

/-- A new entry (R142). -/
def newEntry (s : State) (id short home : Nat) (homeSelf : Bool) : MEntry :=
  { id := id, short := short, home := home, stale := false, pinned := false, homeSelf := homeSelf, retired := false, link := 15, altLink := 15
    route := 0, lastHeard := s.rs.opSeconds % 2 ^ 32, quality := 0, altQuality := -128, switches := 0, linkHeard := 0 }

/-- A meter that is not in the table is enrolled. The order of the refusals, NO_PROFILE before INDEX_IN_USE and TABLE_FULL, is the model's:
R142 gives none (DESIGN CHOICE, log 101). -/
def enrolNew (d id : Nat) (auto : Bool) (asked home : Nat) (homeSelf : Bool) (s : State) : State :=
  let prof := profileFor s id
  if (trieLookup s.db.pfxs 0 id).isNone then finish d 0x24 0 [] s
  else if !auto && indexTaken s asked then finish d 0x22 0 [] s
  else
    match (if auto then lowestIndex s else some asked) with
    | none => finish d 0x20 0 [] s
    | some k =>
      match placeFor s k id with
      | none => finish d 0x20 0 [] s
      | some m =>
        let bill := match prof with | some p => crossCount s (pfBillCal p.2.body) | none => 0
        let s := tableChange d k (newEntry s id k home homeSelf) bill (toLE 4 k) s
        notePressure (onTbl (fun t => { t with slots := t.slots ++ [m] }) s)

/-- METER_ENROL (R142, R143). A retired identity keeps its HOME, HOME_SELF and route, and AUTO = 1 with a SHORT_INDEX is refused only where
the identity is not enrolled: both are the model's choice (DESIGN CHOICE, log 101). -/
def execMeterEnrol (d : Nat) (s : State) : Out :=
  .next (hostCmd 0x10 d
    (fun b => [(inRange (u64 b 16) 1 (2 ^ 64 - 2), 16)])
    (fun x s =>
      let b := x.bytes
      let id := u64 b 16
      let auto := bit (u8 b 27) 6
      let asked := u24 b 24 % 2 ^ 20
      let homeSelf := bit (u8 b 29) 7
      if !homeSelf && s.arch.role != 1 then notAllowed d s
      else changing d (fun s =>
        if s.tbl.state = 2 then finish d 0x29 0 [] s
        else
          match entryById s id with
          | some (k, e) =>
            if e.retired then tableChange d k { e with retired := false } 0 (toLE 4 k) s else finish d 0x21 0 (toLE 4 k) s
          | none => if auto && asked != 0 then badParam d 24 s else enrolNew d id auto asked (u16 b 28 % 4096) homeSelf s) s) s)

/-- METER_REMOVE (R143): it runs as a work item on the meter's flow, behind the readings whose items are older. -/
def execMeterRemove (d : Nat) (s : State) : Out :=
  .next (tableCmd 0x11 d true (fun _ => []) (fun x k e s => changing d (fun s => asItem x (fun s =>
    if !bit (u8 x.bytes 28) 0 then
      if e.retired then finishOk d [] s else tableChange d k { e with retired := true } 0 [] s
    else
      let s := appendMeter 2 k 0 (.table e true) s
      let s := whenDurable (.freeIndex k) s
      let s := saveOpt (fun o => { o with custody := o.custody.filter (fun p => p.2 != k) }) s
      finishDurable d [] (onKeys (fun q => { q with cache := q.cache.filter (fun c => c.1 != k) }) (freePlace k s))) s) s) s)


/-- Age of an entry in operating seconds (R149). -/
def ageOf (s : State) (e : MEntry) : Nat := (s.rs.opSeconds + 2 ^ 32 - e.lastHeard % 2 ^ 32) % 2 ^ 32

/-- METER_QUERY (R141, R149). -/
def execMeterQuery (d : Nat) (s : State) : Out :=
  .next (tableCmd 0x12 d true (fun b => [addrCheck b 32 32])
    (fun x _ e s => finishOk d (toLE 4 (ageOf s e)) (putOut d (u64 x.bytes 32) (entryBytes e) s)) s)

/-- ROUTE_PIN (R141). -/
def execRoutePin (d : Nat) (s : State) : Out :=
  .next (tableCmd 0x13 d false
    (fun b => [(u8 b 28 / 16 ≤ 7 || u8 b 28 / 16 == 15, 28), (u8 b 28 / 16 != 15 || u16 b 30 == 0, 30)])
    (fun x k e s => changing d (fun s =>
      let link := u8 x.bytes 28 / 16
      if link = 15 then tableChange d k { e with pinned := false } 0 [] s
      else tableChange d k { e with pinned := true, link := link, route := u16 x.bytes 30 } 0 [] s) s) s)

/-! ### Profiles and prefixes (R144 to R147) -/

/-- The copy of a profile before the last change is bound to a reading in flight (R146). -/
def oldCopyInUse (s : State) (id : Nat) : Bool :=
  match (Tab.get s.db.profiles id).bind (·.old) with
  | none => false
  | some (v, _) => s.sch.items.any (fun i => i.reading.any (fun r => r.profile == id && r.pver == v && i.step != .lookup))

/-- A change of the profile has been appended and does not act yet. -/
def profileComing (s : State) (id : Nat) : Bool :=
  (laterRecs s).any (fun r => match r.body with | .config (.profile k _) => k == id | _ => false)

/-- A prefix that gives the meter of a custody channel another profile: its audit entry (R245). -/
def auditRebound (c : CfgChange) (s : State) : State :=
  let old := soonDb s
  let new := applyConfig c old
  (s.db.cust.filter (fun p => p.2.enabled)).foldl (fun t p =>
    let id := profileIdOf { s with db := new } p.2.short
    if id != profileIdOf { s with db := old } p.2.short then audit p.1 8 0 id 1 t else t) s

/-- Audit entries of the custody channels whose meter resolves to a profile (R245 kind 0x08). -/
def auditProfile (id : Nat) (s : State) : State :=
  s.db.cust.foldl (fun s p => if p.2.enabled && profileIdOf s p.2.short == id then audit p.1 8 0 id 1 s else s) s

/-- PROFILE_SET (R146, R147, R200): the new copy governs readings that pass step 6 after the command's completion; a change waits for the
one before it. -/
def execProfileSet (d : Nat) (s : State) : Out :=
  .next (hostCmd 0x14 d (fun b => [(inRange (u16 b 16) 0 1023, 16)]) (fun x s => changing d (fun s =>
    let id := u16 x.bytes 16
    let body := (x.input.getD []).take 1024
    match profileFault id (fun t => (Tab.get s.db.virials t).isSome) body with
    | some o => badParam d (0x8000 + o) s
    | none =>
      if oldCopyInUse s id || profileComing s id then s
      else finishDurable d [] (appendLater (.profile id body) (auditProfile id s))) s) s)

/-- Table, length and key of PREFIX_ADD and PREFIX_DEL; the key's bits at the top, as the trie takes them (R144). -/
def pfxKey (b : Bytes) : Nat := if u8 b 16 = 0 then u64 b 24 else beNat (slice b 24 9)
def pfxChecks (b : Bytes) : List Check :=
  let w := pfxWidth (u8 b 16)
  let n := u8 b 17
  [(u8 b 16 ≤ 1, 16), (n ≤ w, 17), (w < n || pfxKey b % 2 ^ (w - n) == 0, 24),
   (if u8 b 16 = 0 then allZero (slice b 32 8) else allZero (slice b 33 7), if u8 b 16 = 0 then 32 else 24)]

def samePfx (table len key : Nat) (p : Pfx) : Bool := p.table == table && p.len == len && p.key == key
def pfxLimit : Nat := 16384

/-- PREFIX_ADD (R144, R145, R146). Prefixes in use are those of every change appended. -/
def execPrefixAdd (d : Nat) (s : State) : Out :=
  .next (hostCmd 0x15 d
    (fun b => pfxChecks b ++ ([(decide (u16 b 18 ≤ (if u8 b 16 = 0 then 1023 else 4095)), 18)] : List Check))
    (fun x s => changing d (fun s =>
      let b := x.bytes
      let p : Pfx := { table := u8 b 16, len := u8 b 17, key := pfxKey b, value := u16 b 18 }
      let now := (soonDb s).pfxs
      if now.any (samePfx p.table p.len p.key) then finish d 0x26 0 [] s
      else if pfxLimit ≤ now.length then finish d 0x25 0 [] s
      else
        let s := appendLater (.pfxAdd p) (auditRebound (.pfxAdd p) s)
        finishDurable d (toLE 2 (soonDb s).pfxs.length) s) s) s)

/-- PREFIX_DEL (R144, R145). -/
def execPrefixDel (d : Nat) (s : State) : Out :=
  .next (hostCmd 0x16 d pfxChecks (fun x s => changing d (fun s =>
    let b := x.bytes
    if (soonDb s).pfxs.any (samePfx (u8 b 16) (u8 b 17) (pfxKey b)) then
      let c : CfgChange := .pfxDel (u8 b 16) (u8 b 17) (pfxKey b)
      let s := appendLater c (auditRebound c s)
      finishDurable d (toLE 2 (soonDb s).pfxs.length) s
    else finish d 0x27 0 [] s) s) s)

/-! ### Re-seeding and rebuilding (R136, R137, R139, R140) -/

/-- TABLE_RESEED (R136). While the table is Rebuilding it is refused TABLE_REBUILDING: the rules name no answer (DESIGN CHOICE, log 101). -/
def execTableReseed (d : Nat) (s : State) : Out :=
  .next (hostCmd 0x17 d (fun _ => []) (fun _ s => unlessStandby d (fun s =>
    if s.tbl.reseed.isSome then finish d 0x28 0 [] s
    else if s.tbl.state = 2 then finish d 0x29 0 [] s
    else holdDesc d (startReseed (some d) s)) s) s)

/-- The flash copy of a re-seeded table is written: the command completes (R136 step 6). -/
def reseedWritten (s : State) : State :=
  match s.tbl.reseed with
  | some r =>
    if !r.switched then s
    else
      let s := onTbl (fun t => { t with reseed := none, copyEpoch := t.epoch }) s
      let s := onFl (fun f => { f with roots := modAt f.roots 0 (fun r => { r with copyGood := true }) }) s
      match r.desc with
      | some d => finishOk d (toLE 1 s.tbl.epoch) s
      | none => s
  | none => s

/-- RESEED_SHADOW_DONE (R136): the shadow table is complete; it becomes the live one, or the next epoch is tried. Once it is live, the
event ends the writing of its flash copy. -/
def execReseedShadowDone (s : State) : Out :=
  .next <|
    match s.tbl.reseed with
    | none => s
    | some r =>
      if !isUp s 5 || s.tbl.state = 2 then s
      else if r.switched then reseedWritten s
      else
        let root := hashRootNow s
        let l := buildSlots root r.epoch s.db.entries
        if (l.filter (·.ovf)).length ≤ 4096 then
          let s := onTbl (fun t => { t with slots := l, epoch := r.epoch, hashRoot := root, state := 0, reseed := some { r with switched := true } }) s
          if ovfUsed s < 5734 then onTbl (fun t => { t with pressureArmed := true }) s else s
        else if r.tries < 4 then
          onTbl (fun t => { t with reseed := some { r with epoch := (r.epoch + 1) % 256, tries := r.tries + 1 } }) s
        else
          let s := onTbl (fun t => { t with state := 0, reseed := none }) s
          match r.desc with
          | some d => finish d 0x20 0 [] s
          | none => s

/-- The items that wait for the table run again (R139, R140). -/
def wakeLookups (s : State) : State :=
  (s.sch.items.filter (fun i => i.step == .rebuildWait)).foldl (fun s i => preempt (rerunItem i.slot s)) s

/-- The table is built from the identities held per short index (R137): under the epoch of a re-seed that re-commissioning began, whose
flash copy is then written, else under its own. -/
def rebuildTable (s : State) : State :=
  let root := hashRootNow s
  notePressure <|
    onTbl (fun t =>
      let e := (t.reseed.map (·.epoch)).getD t.epoch
      { t with
        slots := buildSlots root e s.db.entries, hashRoot := root, epoch := e, state := 0
        reseed := t.reseed.map (fun r => { r with switched := true }) }) s

/-- TABLE_REBUILD_DONE (R137, R140). -/
def execTableRebuildDone (s : State) : Out :=
  .next (if s.tbl.state = 2 && isUp s 5 then wakeLookups (rebuildTable s) else s)

/-- The flash copy is found uncorrectable: the table is Rebuilding (R140). -/
def startRebuild (s : State) : State := onTbl (fun t => { t with state := 2, slots := [] }) s

/-- BUCKET_RELOAD_DONE (R139): the bucket holds good words again, and the item runs again; or the flash copy was uncorrectable (R140). -/
def execBucketReloadDone (slot : Nat) (s : State) : Out :=
  .next <|
    match s.tbl.bktReload.find? (fun p => p.1 == slot) with
    | none => s
    | some p =>
      let s := onTbl (fun t => { t with bktReload := t.bktReload.filter (fun q => q.1 != slot) }) s
      let s := onFab (fun f => { f with poison := f.poison.filter (· != p.2) }) s
      if tableCopyGood s then preempt (rerunItem slot s) else startRebuild s

/-- OVF_STORE_RELOAD_DONE (R139, R140): lookups that missed run again. -/
def execOvfStoreReloadDone (s : State) : Out :=
  .next <|
    if !s.tbl.ovfReload then s
    else
      let s := onTbl (fun t => { t with ovfReload := false, ovfReset := false }) s
      if tableCopyGood s then wakeLookups s else startRebuild s

/-! ### Learning and ageing (R148, R150) -/

/-- A frame that passed step 8 teaches its entry (R148). -/
def learnEntry (body : Bytes) (link : Nat) (quality : Int) (route now : Nat) (e : MEntry) : MEntry :=
  let allowed := fun l : Nat => bit (pfLinks body) l
  let take := fun e : MEntry => { e with link := link, route := route, quality := quality, linkHeard := now }
  let e := { e with lastHeard := now, stale := false }
  if e.pinned || !allowed link then e
  else if link = e.link then { e with route := route, quality := quality, linkHeard := now }
  else if e.link = 15 || !allowed e.link then
    let f := take e
    { f with
      altLink := if e.altLink = link then 15 else e.altLink, altQuality := if e.altLink = link then -128 else e.altQuality, switches := if e.link = 15 then e.switches else min 65535 (e.switches + 1) }
  else if e.quality + (pfHyst body : Int) ≤ quality || pfHold body < (now + 2 ^ 32 - e.linkHeard) % 2 ^ 32 then
    { take e with altLink := e.link, altQuality := e.quality, switches := min 65535 (e.switches + 1) }
  else { e with altLink := link, altQuality := quality }

/-- TABLE_SWEEP (R150): entries older than AGE_LIMIT are stale. -/
def execTableSweep (s : State) : Out :=
  .next <|
    if !isUp s 5 then s
    else
      let old := fun e : MEntry =>
        let a := pfAgeLimit (bodyFor s e.id)
        !e.pinned && a != 0 && a < ageOf s e
      let s := (s.db.entries.filter (fun p => old p.2)).foldl (fun s p => releaseChild p.1 (releaseTei p.1 p.2.id s)) s
      let s := onDb (fun d => { d with entries := d.entries.map (fun p =>
        (p.1, if old p.2 then { p.2 with stale := true, link := 15, altLink := 15, altQuality := -128 } else p.2)) }) s
      onImg (fun i => { i with crit := bumpAt i.crit 1 }) s

end Sys2Proof.Machine
end

