-- ==== Sys2Proof/Machine/Keys.lean ====
section
/-! DEFINITION. Keys and identity (chapter 19): the device key, update messages and what each kind does, key entries, the promotion of a
pending key, and the commands 0x80 to 0x87 with debug unlock. Tamper sources and kills stand with the resets. -/
namespace Sys2Proof.Machine
open Sys2Proof

/-! ### Identity and the device key (R408, R412) -/

/-- UNIT_ID, 12 bytes, least significant first. -/
def unitBytes (s : State) : Bytes := toLE 12 s.keys.unitId.toNat

/-- The private scalar: the extra-random-bits method of FIPS 186-5 on 64 bytes (log 14). -/
def deviceScalar (s : State) : Option Nat := (rootKey s "puzar device" 64).map (fun b => beNat b % (p384N - 1) + 1)

/-- An uncompressed point, 97 bytes. -/
def pointBytes (p : Nat × Nat) : Bytes := 4#8 :: (toBE 48 p.1 ++ toBE 48 p.2)
/-- The point that 97 bytes give; none where they are no uncompressed point of the curve. -/
def pointOf (b : Bytes) : Option (Nat × Nat) :=
  let p := (beNat (slice b 1 48), beNat (slice b 49 48))
  if u8 b 0 = 4 && ecOnCurve p then some p else none

/-! ### States and the update counter (R411, R416, R417) -/

/-- KEY_STATUS.STATE from the slots and the authority key (R411). -/
def keyStateOf (s : State) : Nat :=
  match currentSlot s.keys with
  | none => 3
  | some n =>
    if (s.keys.slots.getD n RootSlot.fresh).valid then (if s.opt.authority.isSome then 1 else 0)
    else if n = 0 then 0 else 2

/-- The update-counter record is written (R93, R416). -/
def writeCounter (s : State) : State :=
  onKeys (fun k => { k with counter := k.counter.write (macRootNow s) { c := k.c, k := k.k, floors := s.img.floors } }) s

/-- HWM bits in all (R409). -/
def hwmBits : Nat := 1024

/-- C := COUNTER, and the HWM bits that follow (R416 step 6). -/
def takeCounter (c : Nat) (s : State) : State :=
  writeCounter (onKeys (fun k => { k with c := c, hwm := max k.hwm (min hwmBits (c / 4096)) }) s)

/-- The record is lost, or a root is new (R417). -/
def lostCounter (s : State) : State :=
  writeCounter <|
    onKeys (fun k =>
      if k.hwm < hwmBits then { k with c := 4096 * (k.hwm + 1), hwm := k.hwm + 1 }
      else { k with c := min ctrMax (4194304 + 65536 * (k.k + 1)), k := k.k + 1 }) s

/-- A root secret is programmed into a slot and sets VALID (R410). The bits are one-time: programming sets bits and clears none (R409). -/
def drawRoot (n : Nat) (s : State) : State :=
  let v := (Config.trng s.free).setWidth 256
  useFree (onKeys (fun k => { k with slots := modAt k.slots n (fun r => { r with secret := r.secret ||| v, valid := true }) }) s)

/-! ### The checks of a message (R415, R416) -/

def msgBodyLen (m : Bytes) : Nat := u32 m 24
def msgBody (m : Bytes) : Bytes := (m.drop 64).take (msgBodyLen m)

/-- A TAMPER_CONFIG body as it is kept (R426). -/
def tamperOf (b : Bytes) : TamperCfg :=
  { response := (List.range 10).map (fun n => u8 b n % 4), level := (List.range 4).map (fun n => u8 b n / 4 % 4), filter := u16 b 10 }

/-- Its values are in range, and no response is given to an input that is not used (R426). -/
def tamperGood (b : Bytes) : Bool :=
  let t := tamperOf b
  t.response.all (· ≤ 2) && (List.range 10).all (fun n => u8 b n < 16 && (n < 4 || u8 b n < 4)) &&
  (List.range 4).all (fun n => t.level.getD n 0 != 0 || t.response.getD n 0 == 0) && inRange t.filter 1 1000 && allZero (slice b 12 4)

/-- Step 1: the format. -/
def msgFormat (m : Bytes) : Bool :=
  let b := msgBody m
  let n := u16 m 6
  u32 m 0 == 0x4B555044 && u8 m 5 == 1 && allZero (slice m 28 36) && m.length == 64 + msgBodyLen m + 96 &&
  match u8 m 4 with
  | 1 => n == 0 && u32 m 20 == 0 && msgBodyLen m == 112 && u8 b 97 < 2 && allZero (slice b 98 14)
  | 2 => inRange n 1 200 && msgBodyLen m == 104 + 80 * n && allZero (slice b 97 7)
  | 3 => n == 0 && inRange (msgBodyLen m) 1 980
  | 4 => n == 0 && msgBodyLen m == 16 && tamperGood b
  | _ => false

/-- Step 3: the state admits the kind; else the status. -/
def msgState (s : State) (kind : Nat) : Nat :=
  if kind = 1 then (if s.keys.st = 1 then 0x26 else if s.keys.st = 3 then 0x27 else 0) else if s.keys.st = 1 then 0 else 0x25

/-- Step 4: the key that the signature is checked under. -/
def msgKey (s : State) (m : Bytes) : Option (Nat × Nat) := if u8 m 4 = 1 then pointOf (msgBody m) else s.opt.authority

def msgSigned (s : State) (m : Bytes) : Bool :=
  let n := 64 + msgBodyLen m
  (msgKey s m).any (fun k => ecdsaVerify k (m.take n) (beNat (slice m n 48)) (beNat (slice m (n + 48) 48)))

/-- The status of the first check that fails; 0: none. -/
def msgStatus (s : State) (m : Bytes) : Nat :=
  if !msgFormat m then 0x20
  else if slice m 8 12 != unitBytes s then 0x21
  else if msgState s (u8 m 4) != 0 then msgState s (u8 m 4)
  else if !msgSigned s m then 0x22
  else if u8 m 4 = 1 then 0
  else if u32 m 20 ≤ s.keys.c then 0x23
  else if s.keys.c + 65536 < u32 m 20 then 0x24
  else 0

/-- RESULT of KEY_UPDATE. -/
def updateResult (applied refused : Nat) (s : State) : Bytes := toLE 2 applied ++ toLE 2 refused ++ toLE 4 s.keys.c

/-! ### What each kind does -/

/-- Re-commissioning: the table is Rebuilding, and is built anew under the new root and the next epoch; a TABLE_RESEED that runs completes
with it (R137, R140). -/
def rebuildUnder (s : State) : State :=
  onTbl (fun t =>
    { t with state := 2, slots := [], reseed := some { epoch := (t.epoch + 1) % 256, tries := 1, desc := t.reseed.bind (·.desc), switched := false } }) s

/-- COMMISSION (R423). -/
def commission (d : Nat) (b : Bytes) (s : State) : State :=
  let keep := saveOpt (fun o => { o with authority := pointOf b, debugAllowed := bit (u8 b 97) 0 })
  if s.keys.st = 0 then
    let s := onKeys (fun k => { k with st := 1 }) (keep s)
    finishOk d (updateResult 0 0 s) s
  else
    let s := drawRoot ((currentSlot s.keys).getD 0) s
    let s := lostCounter (onKeys (fun k => { k with unlocked := true }) s)
    let s := { s with pairStore := match s.pairStore.selected with
                                   | some p => s.pairStore.write (macRootNow s) p.body
                                   | none => s.pairStore }
    let s := saveOpt (fun o => { o with cert := none }) (keep s)
    let s := onKeys (fun k => { k with st := 1, cache := [] }) (appendKey 0 5 0 0 [] s)
    finishDurable d (updateResult 0 0 s) (rebuildUnder s)

/-- The subject public key of a DER certificate for P-384, as X.509 lays it out (log 14). -/
def spkiOf (p : Nat × Nat) : Bytes :=
  [0x30, 0x76, 0x30, 0x10, 0x06, 0x07, 0x2A, 0x86, 0x48, 0xCE, 0x3D, 0x02, 0x01, 0x06, 0x05, 0x2B, 0x81, 0x04, 0x00, 0x22, 0x03, 0x62, 0x00]
    ++ pointBytes p

def holds (b part : Bytes) : Bool := (List.range (b.length + 1)).any (fun k => (b.drop k).take part.length == part)

/-- MODULE_CERT (R424). -/
def takeCert (d : Nat) (b : Bytes) (s : State) : State :=
  let s := saveOpt (fun o => { o with cert := some b }) s
  finishOk d (updateResult 0 0 s) s

/-- TAMPER_CONFIG (R426): kept in the option store, live in HOLM; a source with LEVEL 3 takes its reference. -/
def takeTamper (d : Nat) (b : Bytes) (s : State) : State :=
  let t := tamperOf b
  let s := saveOpt (fun o => { o with tamper := some t }) s
  let s := onKeys (fun k =>
    { k with live := some t
             refs := (List.range 4).foldl (fun v n =>
               if t.level.getD n 0 = 3 then (if bit k.levels n then setBit v n else clrBit v n) else v) k.refs }) s
  finishOk d (updateResult 0 0 s) s

/-- Entry k of a METER_KEYS body, with its format checked and its key unwrapped under KT (R418, R419). -/
def keyEntryOf (kt : Option Bytes) (b : Bytes) (k : Nat) : KeyEntry :=
  let e := slice b (104 + 80 * k) 80
  let id := u64 e 0
  let mode := u8 e 8
  let earlier := (List.range k).any (fun j => u64 b (104 + 80 * j) == id)
  let bad := 8 ≤ mode || !allZero (slice e 9 7) || !allZero (slice e 72 8) || (bit mode 2 && !allZero (slice e 16 32)) ||
    (!bit mode 1 && !allZero (slice e 48 24))
  let key := (kt.bind (fun kt => kwUnwrap kt (slice e 16 32))).bind (fun t =>
    if t.length = 24 && leNat (t.drop 16) == id then some (t.take 16) else none)
  { id := id, mode := mode, key := key, blob := slice e 48 24, pre := if bad then 3 else if earlier then 5 else 0 }

/-- KT of R418. -/
def transportKey (s : State) (m : Bytes) : Option Bytes :=
  match deviceScalar s, pointOf (msgBody m) with
  | some x, some p => some (hkdf384 (sha384 (m.take 64)) (ecdh x p) (ascii "puzar key transport") 32)
  | _, _ => none

/-- METER_KEYS: its entries wait, each for its work item (R419). -/
def takeKeys (d : Nat) (m : Bytes) (s : State) : State :=
  let kt := transportKey s m
  let b := msgBody m
  let msg : KeyMsg :=
    { desc := d, entries := (List.range (u16 m 6)).map (fun k => keyEntryOf kt b k), counter := u32 m 20,
      status := List.replicate (u16 m 6) none, seq := 0 }
  holdDesc d (onKeys (fun k => { k with msgs := k.msgs ++ [msg] }) s)

/-- KEY_UPDATE (R415, R416, R422): a standby takes it too. -/
def execKeyUpdate (d : Nat) (s : State) : Out :=
  .next (hostCmd 0x80 d (fun b => [addrCheck b 24 16, (inRange (u32 b 32) 160 16264, 32)]) (fun x s =>
    let m := x.input.getD []
    let st := msgStatus s m
    if st != 0 then finish d st 0 [] (statKey 1 s)
    else if u8 m 4 = 1 then
      if s.keys.st = 2 && !ledgerUp s then s else commission d (msgBody m) (statKey 0 s)
    else
      let s := takeCounter (u32 m 20) s
      match u8 m 4 with
      | 2 => takeKeys d m (statKey 0 s)
      | 3 =>
        if (deviceScalar s).any (fun x => holds (msgBody m) (spkiOf (ecPub x))) then takeCert d (msgBody m) (statKey 0 s)
        else finish d 0x28 0 [] (statKey 1 s)
      | _ => takeTamper d (msgBody m) (statKey 0 s)) s)

/-! ### Key entries (R419, R420) -/

/-- Status of an entry (R419). -/
def entryStatus (s : State) (e : KeyEntry) : Nat :=
  if e.pre = 3 then 3
  else
    match entryById s e.id with
    | none => 1
    | some (k, m) =>
      if e.pre = 5 then 5
      else if bit e.mode 2 then 0
      else if e.key.isNone then 2
      else if bit e.mode 1 && ((wrappedOf s k).current.isNone || m.link = 5 || m.link = 6) then 4
      else 0

/-- Stored frames of a meter whose key has come: a work item for each, in arrival order, as the pool has slots (R192). -/
def storedItem (s : State) (q : Quar) : Item :=
  readingItem s q.id { newReading 8 { meta16 := q.meta16, bytes := q.bytes, meas := Meas.none } with replay := true }
def replaying (s : State) (q : Quar) : Bool :=
  (s.sch.items ++ s.sch.asks.map (·.item)).any (fun i => i.reading.any (fun r => r.replay && r.frame == q.bytes && r.meta16 == q.meta16))
def replayStored (short : Nat) (s : State) : State :=
  (s.db.quars.filter (fun q => q.reason == 2 && q.short == short)).foldl (fun s q =>
    if replaying s q then s else createItem (storedItem s q) s) s

/-- What an entry with status 0 does. -/
def applyEntry (k id counter : Nat) (e : KeyEntry) (s : State) : State :=
  let reset := bit e.mode 0
  let drop := onKeys (fun q => { q with cache := q.cache.filter (fun c => c.1 != k) })
  if bit e.mode 2 then drop (appendKey k 4 0 counter [] s)
  else
    let key := e.key.getD []
    let w := (wrapKey s key id).getD []
    if bit e.mode 1 then
      let s := appendKey k 2 (b2n reset) counter w s
      offerRelay k (onDb (fun db => { db with keys := Tab.mod db.keys k (fun w => { w with blob := e.blob }) }) s)
    else
      let cached := s.keys.cache.any (fun c => c.1 == k)
      let s := drop (appendKey k 1 (b2n reset) counter w s)
      let s := if cached then onKeys (fun q => { q with cache := (k, key) :: q.cache }) s else s
      let s := if reset then
          onDb (fun db => { db with polls := db.polls.map (fun p => if p.2.short = k then (p.1, { p.2 with counter := 0, suspended := false }) else p) }) s
        else s
      replayStored k (if mayAppend s then resumeValve k s else s)

/-- The message ends when every entry has its status: the status buffer, and the completion when the records are durable (R419). -/
def endMessage (m : KeyMsg) (s : State) : State :=
  if m.status.any (·.isNone) then s
  else
    let st := m.status.map (fun v => v.getD 0)
    let s := onKeys (fun k => { k with msgs := k.msgs.filter (fun x => x.desc != m.desc) }) s
    let at40 := ((descOf s m.desc).map (fun x => u64 x.bytes 40)).getD 0
    let s := if at40 = 0 then s else putOut m.desc at40 (st.map (BitVec.ofNat 8)) s
    let ok := (st.filter (· == 0)).length
    let r := updateResult ok (st.length - ok) s
    if m.seq = 0 then finishOk m.desc r s else finishDurable m.desc r s

/-- An entry of a key message is applied, or has its status. -/
def settleEntry (m : KeyMsg) (entry : Nat) (e : KeyEntry) (s : State) : State :=
  let st := entryStatus s e
  let s := if st = 0 then
      (match entryById s e.id with
       | some (k, me) => applyEntry k me.id m.counter e s
       | none => s)
    else s
  let s := statKey (if st = 0 then 2 else 3) s
  let m2 := { m with status := setAt m.status entry (some st), seq := if st = 0 then lastSeq s else m.seq }
  endMessage m2 (onKeys (fun k => { k with msgs := modWhere (fun x => x.desc == m.desc) (fun _ => m2) k.msgs }) s)

/-- The work item of an entry, on its meter's flow (R184). -/
def entryItem (s : State) (d entry : Nat) (e : KeyEntry) : Item :=
  { blankItem 0 (((descOf s d).map (fun x => (ringOf s x.ring).prio)).getD 0) 0 e.id (Config.handler 0x80 % 256) with task := .keyEntry d entry }
def entryItemOf (s : State) (d entry : Nat) : Option Item := s.sch.items.find? (fun i => i.task == .keyEntry d entry)
def ensureEntry (d entry : Nat) (e : KeyEntry) (s : State) : State :=
  if (entryItemOf s d entry).isSome || s.sch.asks.any (fun w => w.item.task == .keyEntry d entry) then s else createItem (entryItem s d entry e) s

/-- KEY_ENTRY_APPLY (R184, R419): one work item on the meter's flow, in its turn behind the older items of the meter. -/
def execKeyEntryApply (d entry : Nat) (s : State) : Out :=
  .next <|
    match s.keys.msgs.find? (fun m => m.desc == d), (s.keys.msgs.find? (fun m => m.desc == d)).bind (fun m => m.entries[entry]?) with
    | some m, some e =>
      if m.status.getD entry none != none || !isUp s 9 then s
      else
        let s := ensureEntry d entry e s
        match entryItemOf s d entry with
        | some i => if flowTurn s i && ledgerUp s && isUp s 2 then endItem i.slot false (settleEntry m entry e s) else s
        | none => s
    | _, _ => s

/-- A frame has verified under PENDING: the key is promoted (R420); where that clears REKEY_REQUIRED, a close that waits is sent (R257). -/
def promoteKey (short id : Nat) (s : State) : State :=
  let w := wrappedOf s short
  match w.pending with
  | none => s
  | some p =>
    let key := (unwrapKey s p id).getD []
    let s := appendKey short 3 (b2n w.pendingReset) w.pendCounter p s
    let s := statKey 4 (onKeys (fun q => { q with cache := ((short, key) :: q.cache.filter (fun c => c.1 != short)).take cacheSize }) s)
    if w.pendingReset && mayAppend s then resumeValve short s else s

/-! ### Reads (class 0x80) -/

def deadMask (k : Keys) : Nat := (k.slots.zipIdx.map (fun p => if p.1.dead then 2 ^ p.2 else 0)).sum
def lastSlot (k : Keys) : Nat := (currentSlot k).getD 3

/-- KEY_STATUS_READ. -/
def execKeyStatusRead (d : Nat) (s : State) : Out :=
  .next (hostCmd 0x81 d (fun b => [addrCheck b 24 64]) (fun x s =>
    let k := s.keys
    let b := [BitVec.ofNat 8 k.st, BitVec.ofNat 8 (lastSlot k), BitVec.ofNat 8 (deadMask k),
        BitVec.ofNat 8 (b2n s.opt.cert.isSome + 2 * b2n k.debug + 4 * b2n s.opt.debugAllowed)] ++ toLE 4 k.c ++ toLE 4 k.hwm ++
      toLE 4 (s.db.keys.filter (fun p => p.2.current.isSome)).length ++ toLE 4 (s.db.keys.filter (fun p => p.2.pending.isSome)).length ++
      toLE 4 k.cache.length ++ unitBytes s ++ toLE 2 k.latch ++ toLE 2 k.killed ++ toLE 8 k.killTime
    finishOk d [] (putOut d (u64 x.bytes 24) (padTo 64 b) s)) s)

/-- DEVICE_KEY_READ. -/
def execDeviceKeyRead (d : Nat) (s : State) : Out :=
  .next (hostCmd 0x82 d (fun b => [addrCheck b 24 64]) (fun x s =>
    match (if s.keys.st ≤ 1 then deviceScalar s else none) with
    | none => notAllowed d s
    | some k => finishOk d [] (putOut d (u64 x.bytes 24) (padTo 128 (padTo 100 (pointBytes (ecPub k)) ++ unitBytes s)) s)) s)

/-- Latched sources are cleared; those still active latch again at once, and raise TAMPER as they do (R427). -/
def clearLatch (mask : Nat) (s : State) : State :=
  let k := s.keys
  let again := (List.range 10).filter (fun n => bit mask n && bit k.active n)
  let s := onKeys (fun k => { k with latch := again.foldl setBit (andNot 10 k.latch mask) }) s
  if again.any (fun n => ((k.live.getD TamperCfg.reset).response.getD n 0) != 0) then
    (if inService s then raise 32 s.keys.latch s else onKeys (fun k => { k with oweTamper := true }) s)
  else s

/-- TAMPER_CLEAR. -/
def execTamperClear (d : Nat) (s : State) : Out :=
  .next (hostCmd 0x83 d (fun _ => []) (fun x s =>
    let s := clearLatch (u16 x.bytes 16 % 1024) s
    finishOk d (toLE 2 s.keys.latch) s) s)

/-- TAMPER_LATCH_W1C (R427): a write of TAMPER_LATCH. -/
def execTamperLatchW1c (v : BitVec 32) (s : State) : Out :=
  .next (if regOpen s 0 then clearLatch (v.toNat % 1024) s else s)

/-- KEY_STATS. -/
def execKeyStats (d : Nat) (s : State) : Out :=
  .next (statsCmd 0x87 d 64 (fun s => s.keys.stats) (fun s => cntClear 11 (onKeys (fun k => { k with stats := List.replicate 9 0 }) s)) (fun _ => []) s)

/-! ### Debug unlock (R430, R490) -/

/-- A new challenge replaces the open one. -/
def newChallenge (s : State) : Bytes × State :=
  let b := toLE 4 0x44424731 ++ unitBytes s ++ toLE 32 (Config.trng s.free).toNat ++ toLE 4 s.rs.opSeconds ++ List.replicate 12 0
  (b, useFree (onKeys (fun k => { k with challenge := some (b, s.now) }) s))

/-- An answer is checked; its status. -/
def answerChallenge (r t : Nat) (s : State) : Nat × State :=
  if s.keys.st != 1 || !s.opt.debugAllowed then (0x0A, s)
  else if 3 ≤ s.keys.fails then (0x29, s)
  else
    match s.keys.challenge, s.opt.authority with
    | some (c, t0), some pub =>
      let s := onKeys (fun k => { k with challenge := none }) s
      if t0 + 60 * secNs < s.now then (0x2A, s)
      else if ecdsaVerify pub c r t then (0, raise 63 0 (onKeys (fun k => { k with debug := true }) s))
      else (0x22, statKey 8 (onKeys (fun k => { k with fails := k.fails + 1 }) s))
    | _, _ => (0x2A, s)

/-- DEBUG_CHALLENGE. -/
def execDebugChallenge (d : Nat) (s : State) : Out :=
  .next (hostCmd 0x84 d (fun b => [addrCheck b 24 64]) (fun x s =>
    let r := newChallenge s
    finishOk d [] (onDesc d (fun x => { x with undo := .challenge s.keys.challenge }) (putOut d (u64 x.bytes 24) r.1 r.2))) s)

/-- DEBUG_UNLOCK. -/
def execDebugUnlock (d : Nat) (s : State) : Out :=
  .next (hostCmd 0x85 d (fun _ => []) (fun x s =>
    let b := x.input.getD []
    let r := answerChallenge (beNat (slice b 0 48)) (beNat (slice b 48 48)) s
    finish d r.1 0 [] r.2) s)

/-- DEBUG_LOCK. -/
def execDebugLock (d : Nat) (s : State) : Out :=
  .next (hostCmd 0x86 d (fun _ => []) (fun _ s => finishOk d [] (onKeys (fun k => { k with debug := false }) s)) s)

/-- CHALLENGE_EXPIRE: 60 s after it was made. -/
def execChallengeExpire (s : State) : Out :=
  .next <|
    match s.keys.challenge with
    | some (_, t) => onKeys (fun k => { k with challenge := none }) (passTo (t + 60 * secNs) s)
    | none => s

/-- JTAG_DBG_CHAL: a challenge as DEBUG_CHALLENGE fetches one, shifted out (R490). -/
def execJtagDbgChal (s : State) : Out :=
  .next <|
    let s := onKeys (fun k => { k with jtagIr := 0x10 }) s
    if !isUp s 2 then s
    else
      let r := newChallenge s
      emit (.jtag r.1) r.2

/-- JTAG_DBG_RESP: the signature, checked at Update-DR (R490). -/
def execJtagDbgResp (sigR sigS : Nat) (s : State) : Out :=
  .next <|
    let s := onKeys (fun k => { k with jtagIr := 0x11 }) s
    if isUp s 2 then (answerChallenge sigR sigS s).2 else s

/-- JTAG_SCAN: the scan chains, BYPASS while debug is locked (R490). -/
def execJtagScan (s : State) : Out := .next (onKeys (fun k => { k with jtagIr := if k.debug then 0x20 else 0xFF }) s)

/-- JTAG_BYPASS: 0xFF and every code without a row of its own (R490). -/
def execJtagBypass (code : Nat) (s : State) : Out :=
  .next (if code = 0x10 || code = 0x11 || code = 0x20 then s else onKeys (fun k => { k with jtagIr := 0xFF }) s)

end Sys2Proof.Machine
end

