-- ==== Sys2Proof/Machine/Power.lean ====
section
/-! DEFINITION. Supply warnings (R59), power admission (R65 to R68), the power states and POWER_SET (R60 to R63). -/
namespace Sys2Proof.Machine
open Sys2Proof

/-! ### Supply warnings (R59) -/

/-- The highest falling warning threshold, in 0.1 V. -/
def warnMax : Nat := 106

/-- MEM starts a group commit at once (R59, R72). -/
def commitNow (s : State) : State :=
  let s := onPw (fun p => { p with lastCommit := true }) s
  if isUp s 3 && s.jr.commit.isNone && s.jr.cut.isNone then
    onJr (fun j => { j with commit := some j.open_, open_ := [], startAt := some s.now }) s
  else s

/-- VIN_WARN (R59). -/
def execVinWarn (vin : Nat) (s : State) : Out :=
  .next <|
    if s.pw.warned || warnMax ≤ vin || !s.pw.vinOk || s.pw.st == .hold || s.rs.episode then s
    else
      let s := onPw (fun p => { p with vin := vin }) s
      let s := if isUp s 1 || isUp s 10 then raise 42 (vin % 65536) s else s
      commitNow (onPw (fun p => { p with warned := true, warnAt := s.now }) s)

/-- VIN_WARN_CLEAR (R59): LEDGER appends again, and the commit period restarts. -/
def execVinWarnClear (vin : Nat) (s : State) : Out :=
  .next <|
    if s.pw.warned then
      let s := onPw (fun p => { p with vin := vin, warned := false, lastCommit := p.lastCommit && p.hotOff }) s
      ledgerResumed (onJr (fun j => { j with startAt := some s.now }) s)
    else s

/-! ### Admission (R65 to R68) -/

def granted (s : State) : Nat := (s.isl.map (·.grant)).sum
def reservedCredits (s : State) : Nat := (s.pw.waiting.map (·.reserved)).sum
/-- ADMIT_CAP in force: the lower of CAP and 100 from 130 degrees (R72). -/
def capNow (s : State) : Nat := if s.pw.stopB then min s.pw.cap 100 else s.pw.cap

/-- The request that a tick serves: the first in class order, then in arrival order. -/
def servedRequest (s : State) : Option AdmitReq :=
  s.pw.waiting.foldl (fun (b : Option AdmitReq) r => match b with
    | none => some r
    | some q => if r.cls < q.cls then some r else b) none

def onReq (q : AdmitReq) (f : AdmitReq → AdmitReq) (s : State) : State :=
  onPw (fun p => { p with waiting := modAt p.waiting (p.waiting.idxOf q) f }) s

/-- ADMIT_LIMIT, once for a request (R68). -/
def admitLimit (q : AdmitReq) (byCap : Bool) (s : State) : State :=
  if q.limited then s else raise 40 (q.island + 16 * b2n byCap) (onReq q (fun r => { r with limited := true }) s)

/-- An island asks for credits (R65, R67). -/
def askCredits (island cls credits : Nat) (use : AdmitUse) (s : State) : State :=
  onPw (fun p =>
    { p with waiting := p.waiting ++ [{ island := island, cls := cls, credits := credits, reserved := 0, since := s.now, limited := false, use := use }] }) s

/-- ADMIT_REQUEST (R65, R67): it is served from the next tick on. -/
def execAdmitRequest (island cls credits : Nat) (s : State) : Out := .next (askCredits island cls credits .plain s)

/-- Idle grant of an island: as stated nowhere, but at most the credits of 200 µs and of the cap (R66, R69; log 5). -/
def idleGrantOf (s : State) (n : Nat) : Nat := min (min 16 (Config.idleGrant n)) (capNow s - granted s)

/-- ADMIT_RELEASE (R66). -/
def execAdmitRelease (island credits : Nat) (s : State) : Out :=
  .next (onIsl island (fun i => { i with grant := i.grant - credits }) s)

/-- The first group of an ATOLL activation drains once every core is powered (R463). -/
def firstGroup (s : State) : State :=
  if s.img.act.any (fun a => a.type == 2 && a.step == 0) && s.sch.cores.all (fun k => k.powered && !k.draining && !k.drained) then drainGroup 0 s else s

/-- Image that a core loads as it is powered. -/
def loadImage (s : State) : Nat :=
  if s.img.act.any (fun a => a.type == 2) then coreImage s 0 else (s.img.types.getD 2 ImgType.reset).running

/-- Cores below n are powered. -/
def powerCores (n : Nat) (s : State) : State :=
  let v := loadImage s
  firstGroup (onSch (fun c => { c with cores := c.cores.zipIdx.map (fun p =>
    if p.2 < n && !p.1.powered then { p.1 with powered := isUp s 9, draining := false, drained := !isUp s 9, image := v } else p.1) }) s)

/-- What a grant powers (R65). -/
def useGrant (q : AdmitReq) (s : State) : State :=
  match q.use with
  | .plain => s
  | .cores n => powerCores n s
  | .pa r => onRad (fun x => { x with radios := modAt x.radios r (fun y => { y with pa := y.pa + q.credits }) }) s
  | .drivers => onPlc (fun p => { p with drive := p.drive + q.credits }) s

/-- A PA is powered down when its frame has ended, and its credits go back (R65). -/
def settlePa (r : Nat) (s : State) : State :=
  let pa := (s.rad.radios.getD r RadioSt.reset).pa
  if pa = 0 || s.rad.air.any (fun a => a.radio == r && s.now / 1000 < a.ends) then s
  else
    onIsl 13 (fun i => { i with grant := i.grant - pa })
      (onRad (fun x => { x with radios := modAt x.radios r (fun y => { y with pa := 0 }) }) s)

/-- The line drivers are powered down when the module's frame has ended (R65). -/
def settleDrive (s : State) : State :=
  let k := s.plc.drive
  if k = 0 || s.now < s.plc.driveEnd then s
  else onIsl 12 (fun i => { i with grant := i.grant - k }) (onPlc (fun p => { p with drive := 0 }) s)

/-- One tick (R66, R67): one credit is reserved; a request whose credits are all reserved is granted whole. -/
def admitTick (s : State) : State :=
  let s := settleDrive (settlePa 1 (settlePa 0 s))
  match servedRequest s with
  | none => s
  | some q =>
    if capNow s ≤ granted s + reservedCredits s then admitLimit q true s
    else if q.reserved + 1 < q.credits then
      let q2 := { q with reserved := q.reserved + 1 }
      let s2 := onReq q (fun _ => q2) s
      if capNow s < granted s + q.credits then admitLimit q2 true s2 else s2
    else
      useGrant q (onIsl q.island (fun i => { i with grant := i.grant + q.credits, waited := i.waited + (s.now - q.since) })
        (onPw (fun p => { p with waiting := p.waiting.erase q }) s))

/-- ADMIT_TICK (R66, R67). -/
def execAdmitTick (s : State) : Out := .next (admitTick s)

/-- ADMIT_WAIT_EXPIRE (R68): a request of the island has waited more than 1 ms. -/
def execAdmitWaitExpire (island : Nat) (s : State) : Out :=
  .next <|
    match s.pw.waiting.find? (fun q => q.island == island && !q.limited) with
    | none => s
    | some q => admitLimit q false (passTo (q.since + msNs + 1) s)

/-! ### The PA of a radio (R65, R70) -/

/-- RADIO's PA needs more than it holds. -/
def paShort (s : State) (r need : Nat) : Nat := need - (s.rad.radios.getD r RadioSt.reset).pa

/-- The 40 ticks of the 500 µs before a frame's start, as long as its request for credits waits (R66, R70). A request that is not granted by
then is withdrawn with its frame (DEDUCED, log 98). -/
def awaitGrant (use : AdmitUse) (s : State) : State :=
  let s := (List.range 40).foldl (fun s _ => if s.pw.waiting.any (fun q => q.use == use) then admitTick s else s) s
  onPw (fun p => { p with waiting := p.waiting.filter (fun q => q.use != use) }) s

/-- The preparation window: RADIO asks for the credits that the PA lacks (R70). -/
def preparePa (r need : Nat) (s : State) : State :=
  let s := settlePa r s
  let k := paShort s r need
  if k = 0 then s else awaitGrant (.pa r) (askCredits 13 2 k (.pa r) s)

/-- The same for n line drivers of 8 credits each (R291). -/
def prepareDrivers (n : Nat) (s : State) : State :=
  let s := settleDrive s
  let k := 8 * n - s.plc.drive
  if k = 0 then s else awaitGrant .drivers (askCredits 12 2 k .drivers s)

/-! ### Power states (R60, R62, R63) -/

/-- A core below n that drains for a lower power state serves again. -/
def keepCore (upd : Bool) (n : Nat) (p : Core × Nat) : Core :=
  if p.2 < n && p.1.powered && !upd then { p.1 with draining := false, drained := false } else p.1

/-- The cores of the power state (R60, R63, R65, R163): ATOLL asks for the credits of those that are off and powers them with the grant;
those beyond the state drain before they are powered down. -/
def setCores (s : State) : State :=
  let n := coresIn s
  let upd := s.img.act.any (fun a => a.type == 2 && 0 < a.step)
  let s := onSch (fun c => { c with cores := c.cores.zipIdx.map (keepCore upd n) }) s
  let s := (List.range 24).foldl (fun s c => if n ≤ c then drainCore c s else s) s
  if s.pw.waiting.any (fun q => q.use == .cores n) then s
  else
    let s := onPw (fun p => { p with waiting := p.waiting.filter (fun q => match q.use with | .cores _ => false | _ => true) }) s
    let k := creditsBetween (poweredCores s) n
    if !isUp s 9 || n ≤ poweredCores s then s
    else if k = 0 then powerCores n s
    else askCredits 9 4 k (.cores n) s

/-- A wake source of EBB returns the module to the state held before (R60). -/
def ebbWake (s : State) : State :=
  if s.pw.st = .ebb then setCores (onPw (fun p => { p with st := p.before }) s) else s

/-- Ethernet in EBB runs at 100 Mbit/s or lower (R60): a faster link falls to 100 Mbit/s. -/
def ebbSpeed (st : PowerState) (speed : Nat) : Nat := if st == .ebb then min 1 speed else speed

/-- An island reset or an image activation is in progress. -/
def powerBusy (s : State) : Bool :=
  s.img.act.isSome || s.isl.any (fun i => [.idleReq, .inReset, .locking, .retryWait].contains i.phase)

/-- Every appended record is durable (R62). -/
def allDurable (s : State) : Bool := s.jr.durable + 1 == s.jr.next

def powerChecks (b : Bytes) : List Check :=
  [(u8 b 16 ≤ 3, 16), (u8 b 16 != 1 || [4, 8, 12, 16, 20].contains (u8 b 17), 17)]

/-- POWER_SET (R60 to R63). HOLD is entered when the completion has been written. -/
def execPowerSet (d : Nat) (s : State) : Out :=
  .next (hostCmd 0x40 d powerChecks (fun x s =>
    let b := x.bytes
    let go := fun (st : PowerState) (s : State) => onPw (fun p => { p with st := st, before := if p.st = .ebb then p.before else p.st }) s
    let slow := fun s => onTel (fun t => { t with eth := t.eth.map (fun e => (e.1, ebbSpeed .ebb e.2.1, e.2.2)) }) s
    if powerBusy s then finish d 0x20 0 [] s
    else
      match u8 b 16 with
      | 0 => finishOk d [] (setCores (go .run s))
      | 1 => finishOk d [] (setCores (onPw (fun p => { p with trimCores := u8 b 17 }) (go .trim s)))
      | n =>
        if !allDurable s then s
        else
          let s := giveUp .power s
          if n = 2 then finishOk d [] (setCores (slow (go .ebb s)))
          else
            let wake := if u32 b 20 = 0 then none else some (s.now + u32 b 20 * secNs)
            finishOk d [] (onPw (fun p => { p with holdWake := wake }) (go .hold s))) s)

end Sys2Proof.Machine
end

