-- ==== Sys2Proof/Machine/Time.lean ====
section
/-! DEFINITION. Chapter 16: the bound on the error of the clock, the servo, sources, steps, IEEE 1588, PPS_IN, the programmed pulses, and
the commands of class 0x60. -/
namespace Sys2Proof.Machine
open Sys2Proof

/-! ### ERR_BOUND and CLOCK_VALID (R353) -/

def errMax : Nat := 0xFFFFFFFF * 1000

/-- ERR_BOUND in ns: it grows by 2 ppm of elapsed time, saturating. -/
def errNow (s : State) : Nat := min errMax (s.tm.errSet + (s.now - s.tm.errAt) * 2 / 1000000)
def errUs (s : State) : Nat := errNow s / 1000
def setErr (ns : Nat) (s : State) : State := onTm (fun t => { t with errSet := ns, errAt := s.now }) s

/-- CLOCK_VALID: the counter has been set from a source since HOLM_COLD, and ERR_BOUND is within VALID_ERR. -/
def clockValid (s : State) : Bool := s.tm.wasSet && errNow s ≤ s.tm.cfg.validErr * msNs

/-! ### The counter's load (R350) -/

/-- Where within t_rtc_load the counter is loaded: a free value. -/
def loadOffset (s : State) : Int := clampInt (-31000) 31000 (Config.freeInt s.free)

def truncTick (t : Int) : Int := t / 8 * 8

/-- The first instant of a periodic output at or after a time (R361, R362). -/
def firstOf (p : Tpulse) (t : Int) : Int :=
  let k := max 0 ((t - p.start + p.period - 1) / (p.period : Int))
  truncTick (p.start + k * p.period)

/-- The output's next instant when its settings resume at a time; a one-shot whose instant has passed does not fire. -/
def resumePulse (p : Tpulse) (t : Int) : Option Int :=
  if !p.enable then none
  else if p.periodic then some (firstOf p t)
  else if t ≤ truncTick p.start then some (truncTick p.start) else none

/-- NET's time base starts: the counter is loaded from the real-time clock; the servo starts without its history (R350, R352, R99). -/
def startTimeBase (s : State) : State :=
  let c := rtcTime s.tm + loadOffset s
  onRs (fun r => { r with servoCold := true }) <|
    onTm (fun t =>
      { t with
        counter := c, frac := 0, runs := true, y := 0, integ := 0, st := 0, good := 0, bad := 0, lockedOnce := false, slewLeft := 0,
        master := none, sync := none, t21 := none, t3 := none, pathDelay := 0, pathKnown := false, syncAt := none, theta := 0
        ppsAt := none, steps := [], latched := 0
        nextPulse := t.pulses.map (fun p => resumePulse p c), fired := List.replicate 4 false }) (useFree s)

/-- NET's time base stops: islands take time from the real-time clock, and the outputs are low (R42, R350). -/
def stopTimeBase (s : State) : State :=
  onTm (fun t => { t with runs := false, counter := rtcTime t, frac := 0, slewLeft := 0, st := 0, nextPulse := List.replicate 4 none }) s

/-! ### The servo (R351, R352) -/

def enterLocked (s : State) : State :=
  let s := onTm (fun t => { t with st := 2, bad := 0, lockedOnce := true }) s
  raise 43 2 (onRs (fun r => { r with servoCold := false }) s)

/-- Lock is lost: counted in LOCK_LOSSES. -/
def leaveLocked (s : State) : State := if s.tm.st = 2 then statTm 9 s else s

/-- One update with an offset of at most STEP_LIMIT. -/
def servoUpdate (theta : Int) (s : State) : State :=
  let f : Int := if s.rs.servoCold then 4 else 1
  let i := s.tm.integ + f * s.tm.cfg.ki * theta
  let y := clampInt (-yMax) yMax (-(f * s.tm.cfg.kp * theta + i))
  let thr := s.tm.cfg.lockThresh
  let good := if theta.natAbs ≤ thr then min 16 (s.tm.good + 1) else 0
  let bad := if s.tm.st = 2 && 4 * thr < theta.natAbs then s.tm.bad + 1 else 0
  let st := s.tm.st
  let s := onTm (fun t =>
    { t with integ := i, y := y, good := good, bad := bad, theta := theta, slewLeft := 0, st := if t.st = 2 then 2 else 1 }) s
  let s :=
    if st = 2 && 4 ≤ bad then onTm (fun t => { t with st := 1, bad := 0, good := 0 }) (leaveLocked s)
    else if st != 2 && 16 ≤ good then enterLocked s
    else s
  if s.tm.st = 2 then setErr 1000 s else s

/-- The class U item of a step: module-internal, without a flow (R153). -/
def stepItem : Item := { blankItem 2 7 3 0 (Config.handler 3 % 256) with noFlow := true, task := .clockStep }

/-- A step is asked for: a class U item makes it (R153, R357). -/
def askStep (a : StepAsk) (s : State) : State := createItem stepItem (onTm (fun t => { t with steps := t.steps ++ [a] }) s)

/-- The item of a step that runs. -/
def runningStep (s : State) : Option Item :=
  s.sch.items.find? (fun i => i.task == .clockStep && (match i.state with | .running _ => true | _ => false))

def stepLimitNs (s : State) : Nat := s.opt.stepLimit * msNs

/-- A change whose magnitude exceeds STEP_LIMIT, or the first setting since HOLM_COLD, is a step (R357). -/
def isStep (theta : Int) (s : State) : Bool := !s.tm.wasSet || stepLimitNs s < theta.natAbs

/-- A measured offset, counter minus source (R352, R357). None is taken while a step waits. -/
def measure (cause : Nat) (theta : Int) (s : State) : State :=
  if !s.tm.steps.isEmpty then s
  else if isStep theta s then
    askStep { cause := cause, old := s.tm.counter, new := s.tm.counter - theta, err := 0, desc := none }
      (onTm (fun t => { t with theta := theta }) s)
  else servoUpdate theta s

/-- The source is lost (R351): Holdover from Locked, else Free. -/
def sourceLost (s : State) : State :=
  if s.tm.st = 2 then raise 43 3 (onTm (fun t => { t with st := 3, good := 0, bad := 0 }) (leaveLocked s))
  else if s.tm.st = 1 then onTm (fun t => { t with st := 0, good := 0, bad := 0 }) s
  else s

def timeRuns (s : State) : Bool := s.tm.runs && isUp s 10

/-! ### Steps (R357, R362) -/

/-- A pulse's edge leaves, or is suppressed while CLOCK_VALID is clear (R361). -/
def firePulse (k : Nat) (instant : Int) (s : State) : State :=
  let p := s.tm.pulses.getD k Tpulse.reset
  if p.requireValid && !clockValid s then statTm 10 s else emit (.pulse k instant) s

/-- The outputs after a step to a new time. -/
def stepPulse (new : Int) (s : State) (k : Nat) : State :=
  let p := s.tm.pulses.getD k Tpulse.reset
  match s.tm.nextPulse.getD k none with
  | none => s
  | some t =>
    if p.periodic then onTm (fun m => { m with nextPulse := setAt m.nextPulse k (some (firstOf p new)) }) s
    else if t ≤ new then
      firePulse k new (onTm (fun m => { m with nextPulse := setAt m.nextPulse k none, fired := setAt m.fired k true }) s)
    else s

/-- LEDGER's part of a step: an audit entry on every custody channel, dated on the old scale (R238, R245). -/
def auditStep (old new : Int) (s : State) : State :=
  (s.db.cust.filter (fun p => p.2.enabled)).foldl (fun s p =>
    append 8 p.2.short p.1 0 false
      (.audit { time := stampOf old, kind := 1, flags := 0, seq := s.jr.next % 2 ^ 48, data0 := stampOf new, data1 := ofInt 64 (new - old) }) s) s

/-- The first measurement of each meter after a step is discarded (R360). -/
def skipSkews (s : State) : State := s.db.entries.foldl (fun s p => onInd p.1 (fun i => { i with skipSkew := true }) s) s

/-- The counter is set and everything that follows a step is done. -/
def doStep (a : StepAsk) (s : State) : State :=
  let old := s.tm.counter
  let new := a.new + (old - a.old)
  let first := !clockValid s
  let s := if s.tm.cfg.source = 0 then s else leaveLocked s
  let s := onTm (fun t =>
    { t with
      counter := new, wasSet := true, good := 0, bad := 0, slewLeft := 0
      st := if t.cfg.source = 0 then t.st else 1 }) s
  let s := if isStandby s then s else appendGlobal 6 0 (.clockStep old new a.cause first) s
  let s := raise 44 (a.cause + 256 * b2n first) (statTm 8 s)
  let s := if isStandby s then s else auditStep old new s
  let s := (List.range 4).foldl (stepPulse new) (skipSkews s)
  if a.cause = 2 then setErr a.err s else s

/-- CLOCK_STEP_ITEM (R153, R357): the class U item that runs makes the oldest step that waits, and ends. -/
def execClockStepItem (s : State) : Out :=
  .next <|
    match s.tm.steps, runningStep s with
    | a :: r, some i =>
      if !timeRuns s || !isUp s 9 || !(mayAppend s || isStandby s) then s
      else
        let s := doStep a (onTm (fun t => { t with steps := r }) s)
        let s := match a.desc with
          | some d => finishOk d (toLE 8 (stampOf a.old)) s
          | none => s
        endItem i.slot false s
    | _, _ => s

/-! ### CLOCK_VALID reaches LEDGER and the links (R237, R239, R353) -/

/-- A custody channel's record says otherwise than the clock. -/
def staleInvalid (s : State) : Bool := s.db.cust.any (fun p => p.2.enabled && p.2.invalid == clockValid s)

/-- Audit entries where the invalid state starts or ends. -/
def auditValid (v : Bool) (s : State) : State :=
  if isStandby s then s
  else (s.db.cust.filter (fun p => p.2.enabled && p.2.invalid == v)).foldl (fun s p => audit p.1 2 0 (b2n !v) 0 s) s

/-- CLOCK_VALID_CHANGE. -/
def execClockValidChange (s : State) : Out :=
  .next <|
    let v := clockValid s
    if (v == s.tm.validSeen && !staleInvalid s) || !(mayAppend s || isStandby s) then s
    else
      let s := auditValid v (onTm (fun t => { t with validSeen := v }) s)
      if v && !isStandby s then
        releaseCloses (if s.lg.sampled then crossPassed s else s)
      else s

/-- RTC_SET_TICK (R350): the real-time clock takes the counter, truncated to its unit. -/
def execRtcSetTick (s : State) : Out :=
  .next (if timeRuns s && isUp s 1 then onTm (fun t => { t with rtc := t.counter * 32768 / 1000000000, rtcNs := 0 }) s else s)

/-! ### Leap seconds (R349) -/

/-- What the selected master, or the host, announces: +1, −1, and the end of the UTC day in question as a UTC second. -/
def leapPending (s : State) : Option (Int × Int) :=
  let utc := taiSec s - utcOffset s
  let dayEnd := (utc / daySec) * daySec
  let byMaster := s.tm.master.bind (fun m =>
    if m.leap61 then some (1, if utc % daySec < 2 then dayEnd else dayEnd + daySec)
    else if m.leap59 then some (-1, dayEnd + daySec) else none)
  match byMaster with
  | some p => some p
  | none =>
    let e := ((s.tm.zone.leapDay : Int) + 1) * daySec
    if s.tm.zone.leap = 1 then some (1, e) else if s.tm.zone.leap = 2 then some (-1, e) else none

/-- LEAP_SECOND: at the end of the announced day UTC_OFFSET changes by one. -/
def execLeapSecond (s : State) : Out :=
  .next <|
    match leapPending s with
    | none => s
    | some (k, e) =>
      if !timeRuns s then s
      else
        let s := passClock (((if k = 1 then e else e - 1) + utcOffset s) * 1000000000) s
        let z : Zone := { s.tm.zone with utc := s.tm.zone.utc + k, leap := 0 }
        saveOpt (fun o => { o with zone := z }) <|
          onTm (fun t =>
            { t with zone := z, master := t.master.map (fun m =>
                { m with utcOffset := ((m.utcOffset : Int) + k).toNat, leap61 := false, leap59 := false }) }) s

/-! ### IEEE 1588 (R353 to R355) -/

def latOf (s : State) (port speed : Nat) : BitVec 32 := s.tm.ptpLat.getD (3 * port + speed) 0
def ingress (s : State) (port speed : Nat) : Int := ((latOf s port speed).toNat % 65536 : Nat)
def egress (s : State) (port speed : Nat) : Int := ((latOf s port speed).toNat / 65536 : Nat)

/-- The engine serves a port: it is named, NET runs in full. -/
def ptpOn (s : State) (port : Nat) : Bool := timeRuns s && s.rs.phase == 7 && bit s.tm.cfg.ports port

/-- clockClass that the module announces (R354). -/
def ownClass (s : State) : Nat :=
  if s.tm.st = 2 && s.tm.cfg.source = 2 then 6 else if s.tm.st = 3 && clockValid s then 7 else 248

/-- Rank of a clock in the default data set comparison as far as the message carries it: the lower is the better. -/
def rankOf (priority1 cls priority2 gm : Nat) : Nat := ((priority1 * 256 + cls) * 256 + priority2) * 2 ^ 64 + gm
def masterRank (m : Master) : Nat := rankOf m.priority1 m.clockClass m.priority2 m.gm
def ownRank (s : State) : Nat := rankOf s.tm.cfg.priority1 (ownClass s) s.tm.cfg.priority2 Config.clockIdentity.toNat

/-- The selection changes; what was measured with the old master is dropped. -/
def selectMaster (m : Option Master) (s : State) : State :=
  onTm (fun t => { t with master := m, sync := none, t21 := none, t3 := none, pathKnown := false, syncAt := some s.now }) (statTm 5 s)

/-- An Announce: the best master clock algorithm decides. -/
def onAnnounce (m : Master) (s : State) : State :=
  let s := statTm 4 s
  let eligible := s.tm.cfg.slaveOnly || masterRank m < ownRank s
  match s.tm.master with
  | some c =>
    if c.gm = m.gm && c.port = m.port then
      (if eligible then onTm (fun t => { t with master := some m }) s
       else
        let s := selectMaster none s
        if s.tm.cfg.source = 1 then sourceLost s else s)
    else if eligible && masterRank m < masterRank c then selectMaster (some m) s
    else s
  | none => if eligible then selectMaster (some m) s else s

def fromMaster (s : State) (port gm : Nat) : Bool := s.tm.master.any (fun m => m.gm == gm && m.port == port)

/-- A Sync with its time stamp: t2 − t1 (R353); it is a measurement where the path delay is known. -/
def syncDone (d : Int) (s : State) : State :=
  let s := onTm (fun t => { t with sync := none, t21 := some d, syncAt := some s.now }) s
  if s.tm.cfg.source = 1 && s.tm.pathKnown then measure 0 (d - s.tm.pathDelay) s else s

/-- A path delay is known; the first with a master completes the measurement of its last Sync. -/
def pathMeasured (delay : Int) (s : State) : State :=
  let first := !s.tm.pathKnown
  let s := onTm (fun t => { t with pathDelay := delay, pathKnown := true, t3 := none }) s
  match s.tm.t21 with
  | some d => if first && s.tm.cfg.source = 1 && s.tm.master.isSome then measure 0 (d - delay) s else s
  | none => s

/-- A PTP message on a port. -/
def onPtp (port : Nat) (m : PtpMsg) (s : State) : State :=
  match m with
  | .management => s
  | .announce gm p1 cc p2 off valid l61 l59 =>
    onAnnounce { port := port, gm := gm, priority1 := p1, clockClass := cc, priority2 := p2, utcOffset := off, utcValid := valid,
                 leap61 := l61, leap59 := l59 } s
  | .sync gm seq two origin corr speed stamp =>
    if !fromMaster s port gm then s
    else
      let t2 := stamp - ingress s port speed
      let s := statTm 0 (if s.tm.sync.isSome then statTm 1 s else s)
      if two then onTm (fun t => { t with sync := some (gm, seq, t2, corr) }) s else syncDone (t2 - origin - corr) s
  | .followUp gm seq origin corr =>
    match s.tm.sync with
    | some (g, q, t2, c) => if g = gm && q = seq && fromMaster s port gm then syncDone (t2 - origin - c - corr) s else s
    | none => s
  | .delayResp gm seq received corr =>
    match s.tm.t3, s.tm.t21 with
    | some (q, t3), some d =>
      if q = seq && fromMaster s port gm && !s.tm.cfg.peerDelay then pathMeasured ((d + (received - corr - t3)) / 2) s else s
    | _, _ => s
  | .pdelayResp seq turn speed stamp =>
    match s.tm.t3 with
    | some (q, t1) => if q = seq && s.tm.cfg.peerDelay then pathMeasured ((stamp - ingress s port speed - t1 - turn) / 2) s else s
    | none => s
  | .delayReq seq speed stamp =>
    let t := stamp - ingress s port speed
    if s.tm.cfg.peerDelay then
      let s := emit (.ptp port 3 seq t) s
      if s.tm.cfg.oneStep then s else emit (.ptp port 10 seq t) s
    else if s.tm.master.any (fun m => m.port == port) || s.tm.cfg.slaveOnly then s
    else emit (.ptp port 9 seq t) s

/-- PTP_MESSAGE_RX. -/
def execPtpMessageRx (port : Nat) (m : PtpMsg) (s : State) : Out := .next (if ptpOn s port then onPtp port m s else s)

/-- The module is master on a port: it serves it and no master is selected there. -/
def masterOn (s : State) (port : Nat) : Bool :=
  ptpOn s port && !s.tm.cfg.slaveOnly && !s.tm.master.any (fun m => m.port == port)

/-- Transmit stamp of a message that leaves now: PTP_LAT EGRESS at the port's present speed is added, in one-step mode already in the frame
(R355). -/
def sentStamp (s : State) (port : Nat) : Int := s.tm.counter + egress s port (s.tel.eth.getD port (false, 0, false)).2.1

/-- timeSource of the module as grandmaster (R354). -/
def ownTimeSource (s : State) : Nat := if s.tm.cfg.source = 2 then 0x90 else 0xA0

/-- The data set announced: the selected master's on a boundary clock, else the module's own (R354). -/
def announced (s : State) : Output :=
  match s.tm.master with
  | some m => .announce m.priority1 m.clockClass m.priority2 m.gm 0xA0 (utcOffset s)
  | none => .announce s.tm.cfg.priority1 (ownClass s) s.tm.cfg.priority2 Config.clockIdentity.toNat (ownTimeSource s) (utcOffset s)

/-- PTP_TX_DUE: message types as in the standard: 0 Sync, 1 Delay_Req, 2 Pdelay_Req, 8 Follow_Up, 11 Announce. -/
def execPtpTxDue (port : Nat) (m : PtpTx) (s : State) : Out :=
  .next <|
    let seq := s.tm.ptpSeq
    let used := onTm (fun t => { t with ptpSeq := (t.ptpSeq + 1) % 65536 }) s
    match m with
    | .sync =>
      if !masterOn s port then s
      else
        let t := sentStamp s port
        let s := emit (.ptp port 0 seq t) used
        if s.tm.cfg.oneStep then s else emit (.ptp port 8 seq t) s
    | .announce => if masterOn s port then emit (announced s) (emit (.ptp port 11 seq s.tm.counter) used) else s
    | .delayReq speed stamp =>
      if !ptpOn s port || !(s.tm.cfg.peerDelay || s.tm.master.any (fun m => m.port == port)) then s
      else
        let t3 := stamp + egress s port speed
        let u := if s.tm.t3.isSome then statTm 3 used else used
        let u := onTm (fun t => { t with t3 := some (seq, t3) }) (statTm 2 u)
        emit (.ptp port (if s.tm.cfg.peerDelay then 2 else 1) seq t3) u

/-- Announce intervals without a Sync after which a PTP source is lost, in ns. -/
def ptpTimeout (s : State) : Nat :=
  let n := s.tm.cfg.announceTimeout * secNs
  if 0 ≤ s.tm.cfg.logAnnounce then n * 2 ^ s.tm.cfg.logAnnounce.toNat else n / 2 ^ s.tm.cfg.logAnnounce.natAbs

/-- The time line goes on to n ns after an instant, where there was one. -/
def quietFor (t : Option Nat) (n : Nat) (s : State) : State :=
  match t with
  | some a => passTo (a + n) s
  | none => s

/-- PTP_SOURCE_LOST. -/
def execPtpSourceLost (s : State) : Out :=
  .next <|
    if timeRuns s && s.tm.cfg.source = 1 then
      sourceLost (if s.tm.master.isSome then selectMaster none (quietFor s.tm.syncAt (ptpTimeout s) s) else s)
    else s

/-! ### PPS_IN (R356) -/

/-- The input filter's fixed delay in ns (24, PPS_IN). -/
def ppsFilter : Int := 40

/-- θ of an edge stamped now, reduced into (−500,000,000, 500,000,000]. -/
def ppsTheta (s : State) : Int :=
  let f := (s.tm.counter - ppsFilter - s.tm.cfg.ppsDelay) % 1000000000
  if f ≤ 500000000 then f else f - 1000000000

/-- PPS_EDGE. -/
def execPpsEdge (s : State) : Out :=
  .next <|
    if !timeRuns s || s.tm.cfg.source != 2 then s
    else
      let th := ppsTheta s
      if s.tm.lockedOnce && 1000000 < th.natAbs then statTm 7 s
      else measure 1 th (onTm (fun t => { t with ppsAt := some s.now }) (statTm 6 s))

/-- PPS_SOURCE_LOST: no valid edge for 3 s. -/
def execPpsSourceLost (s : State) : Out :=
  .next (if timeRuns s && s.tm.cfg.source = 2 then sourceLost (quietFor s.tm.ppsAt (3 * secNs) s) else s)

/-! ### TIME_CHECK (R360) -/

/-- TIME_CHECK_DUE: the command is sealed and waits for the station; its network time is taken at its preamble. -/
def execTimeCheckDue (tei : Nat) (s : State) : Out :=
  .next <|
    match s.plc.stations.find? (fun t => t.tei == tei) with
    | none => s
    | some t =>
      let period := s.tm.cfg.checkPeriod
      if period = 0 || !isUp s 12 || isStandby s then s
      else
        let s := quietFor t.checkAt (period * secNs) s
        match (entryById s t.id).map (·.1) with
        | none => s
        | some short =>
          match downFrame short 9 (commandPlain 1 s.plc.cmdSeq (List.replicate 4 0)) s with
          | (none, _) => s
          | (some f, s) =>
            let s := onStation tei (fun t => { t with checkAt := some s.now, checkSeq := some (s.plc.cmdSeq, t.txSeq, none) }) s
            statTm 11 (queuePlc t.id f false (onPlc (fun p => { p with cmdSeq := (p.cmdSeq + 1) % 65536 }) s))

/-- The meter's answer: METER_TIME less the network time at the preamble, in ms truncated toward zero. -/
def timeCheckAnswer (short seq result meterTime : Nat) (body : Bytes) (s : State) : State :=
  match (entryOf s short).bind (fun e => stationOf s e.id) with
  | none => s
  | some t =>
    match t.checkSeq with
    | some (q, _, some net) =>
      if q = seq then
        let s := onStation t.tei (fun t => { t with checkSeq := none }) s
        if result = 0 && meterTime != 0 then hearSkew short body ((((meterTime : Int) - net) * 1000).tdiv 32768) s else s
      else s
    | _ => s

/-! ### Programmed pulses (R361) -/

/-- TPULSE_INSTANT. -/
def execTpulseInstant (output : Nat) (s : State) : Out :=
  .next <|
    match s.tm.nextPulse.getD output none with
    | none => s
    | some t =>
      if !timeRuns s then s
      else
        let s := passClock t s
        let p := s.tm.pulses.getD output Tpulse.reset
        let next := if p.periodic then some (firstOf p (t + 8)) else none
        firePulse output t (onTm (fun m =>
          { m with nextPulse := setAt m.nextPulse output next, fired := if p.periodic then m.fired else setAt m.fired output true }) s)

/-- t_tp_setup in ns. -/
def tpSetup : Int := 1000000

def pulseOf (b : Bytes) : Tpulse :=
  { enable := bit (u8 b 17) 0, periodic := bit (u8 b 17) 1, low := bit (u8 b 17) 2, requireValid := bit (u8 b 17) 3, width := u32 b 20
    start := u48 b 24 * 1000000000 + u32 b 32, period := u64 b 40 }

def pulseChecks (b : Bytes) : List Check :=
  let p := pulseOf b
  [(u8 b 16 ≤ 3, 16), (!p.enable || inRange p.width 8 500000000, 20), (u32 b 32 ≤ 999999999, 32),
   (!p.enable || !p.periodic || (inRange p.period 16 86400000000000 && p.width < p.period), 40)]

/-- TPULSE_SET. -/
def execTpulseSet (d : Nat) (s : State) : Out :=
  .next (hostCmd 0x63 d pulseChecks (fun x s =>
    let k := u8 x.bytes 16
    let p := pulseOf x.bytes
    let ahead := s.tm.counter + tpSetup
    if p.enable && !p.periodic && (p.start : Int) < ahead then finish d 0x22 0 [] s
    else
      let t : Option Int := if !p.enable then none else if p.periodic then some (firstOf p ahead) else some (truncTick p.start)
      let s := saveOpt (fun o => { o with pulses := setAt o.pulses k p }) <|
        onTm (fun m => { m with pulses := setAt m.pulses k p, nextPulse := setAt m.nextPulse k t, fired := setAt m.fired k false }) s
      let v := (t.getD 0).toNat
      finishOk d (toLE 6 (v / 1000000000) ++ toLE 4 (v % 1000000000)) s) s)

/-! ### Commands -/

def cfgOf (b : Bytes) : TimeCfg :=
  { source := u8 b 16, ports := u8 b 17 % 4, domain := u8 b 18, transport := u8 b 19 % 4, peerDelay := bit (u8 b 19) 2,
    oneStep := bit (u8 b 19) 3, slaveOnly := bit (u8 b 19) 4, ppsFalling := bit (u8 b 19) 5, priority1 := u8 b 20, priority2 := u8 b 21,
    logSync := i8 b 22, logAnnounce := i8 b 23, logDelay := i8 b 24, announceTimeout := u8 b 25, ppsDelay := u16 b 26,
    lockThresh := u32 b 28, validErr := u32 b 32, kp := u16 b 36, ki := u16 b 38, checkPeriod := u32 b 40 }

def within8 (v lo hi : Int) : Bool := lo ≤ v && v ≤ hi

def cfgChecks (b : Bytes) : List Check :=
  [(u8 b 16 ≤ 2, 16), (u8 b 18 ≤ 127, 18), (u8 b 19 % 4 ≤ 2, 19), (within8 (i8 b 22) (-4) 1, 22), (within8 (i8 b 23) (-3) 3, 23),
   (within8 (i8 b 24) (-4) 5, 24), (inRange (u8 b 25) 2 10, 25), (inRange (u32 b 28) 20 100000, 28), (inRange (u32 b 32) 10 60000, 32),
   (u32 b 40 == 0 || inRange (u32 b 40) 60 86400, 40)]

/-- A new configuration; a change of SOURCE enters Free. -/
def applyTimeCfg (c : TimeCfg) (s : State) : State :=
  let change := c.source != s.tm.cfg.source
  let s := if change then leaveLocked s else s
  onTm (fun t =>
    { t with
      cfg := c
      st := if change then 0 else t.st, good := if change then 0 else t.good, bad := if change then 0 else t.bad
      lockedOnce := t.lockedOnce && !change, ppsAt := if change then none else t.ppsAt
      sync := if change then none else t.sync, t21 := if change then none else t.t21, syncAt := if change then none else t.syncAt
      master := t.master.filter (fun m => bit c.ports m.port) }) s

/-- TIME_CFG (R351). -/
def execTimeCfg (d : Nat) (s : State) : Out :=
  .next (hostCmd 0x60 d cfgChecks (fun x s =>
    finishOk d [] (applyTimeCfg (cfgOf x.bytes) (saveOpt (fun o => { o with time := cfgOf x.bytes }) s))) s)

/-- The time that TIME_SET gives: with SOURCE 2 only the whole seconds change (R356). -/
def givenTime (s : State) (b : Bytes) : Int :=
  let sec : Int := u48 b 16
  if s.tm.cfg.source = 2 then sec * 1000000000 + s.tm.counter % 1000000000 else sec * 1000000000 + (u32 b 24 : Int)

/-- TIME_SET (R357): slewed, or stepped by a class U item. -/
def execTimeSet (d : Nat) (s : State) : Out :=
  .next (hostCmd 0x61 d (fun b => [(u32 b 24 ≤ 999999999, 24), (1 ≤ u32 b 28, 28)]) (fun x s =>
    if s.tm.cfg.source = 1 && clockValid s then finish d 0x20 0 [] s
    else
      let t := givenTime s x.bytes
      let theta := s.tm.counter - t
      let err := u32 x.bytes 28 * 1000
      let before := toLE 8 (stamp s)
      let s2 := onTm (fun m => { m with theta := theta }) s
      if isStep theta s then
        holdDesc d (askStep { cause := 2, old := s.tm.counter, new := t, err := err, desc := some d } s2)
      else finishOk d before (setErr err (onTm (fun m => { m with slewLeft := -theta * fracUnit }) s2))) s)

/-- The offset in the buffer of TIME_ZONE_SET of the first field out of range or order (R358). -/
def zoneFault (b : Bytes) : Option Nat :=
  let z := i16 b 0
  if z % 15 != 0 || z < -720 || 840 < z then some 0
  else if 64 < u8 b 4 then some 4
  else if 2 < u8 b 5 then some 5
  else
    let bad := (List.range (u8 b 4)).filterMap (fun j : Nat =>
      let o := 16 + 8 * j
      let dst := i16 b (o + 4)
      if 0 < j && u32 b o ≤ u32 b (o - 8) then some o
      else if dst % 15 != 0 || dst < -120 || 120 < dst then some (o + 4) else none)
    bad.head?

def dstOf (b : Bytes) : List (Nat × Int) := (List.range (u8 b 4)).map (fun j => (u32 b (16 + 8 * j), i16 b (20 + 8 * j)))

/-- The table in force: the old one up to now, the new one from now on (R358). -/
def mergeDst (utc : Int) (old : Zone) (new : List (Nat × Int)) : List (Nat × Int) :=
  let z : Zone := { old with dst := new }
  let past := old.dst.filter (fun e => (e.1 : Int) < utc)
  let here := if dstAt z utc = dstAt { old with dst := past } utc then [] else [(utc.toNat, dstAt z utc)]
  past ++ here ++ new.filter (fun e => utc < (e.1 : Int))

/-- What a zone buffer sets but ZONE_OFFSET. -/
def zoneOf (s : State) (b : Bytes) : Zone :=
  { zone := s.tm.zone.zone, utc := i16 b 2, leap := u8 b 5, leapDay := u16 b 6,
    dst := mergeDst (taiSec s - utcOffset s) s.tm.zone (dstOf b) }

/-- A zone buffer takes effect (R358): ZONE_OFFSET at the next crossing of billing calendar 0, or at once when it is unset. -/
def applyZone (b : Bytes) (s : State) : State :=
  let z := zoneOf s b
  let new := i16 b 0
  let s := saveOpt (fun o => { o with zone := z, zoneBuf := b, nextZone := if new = z.zone then none else some new }) (onTm (fun t => { t with zone := z }) s)
  if new != z.zone && (s.opt.cals.getD 0 BillCal.reset).kind = 0 then
    (if isStandby s then saveOpt (fun o => { o with zone := { o.zone with zone := new }, nextZone := none }) (onTm (fun t => { t with zone := { t.zone with zone := new } }) s)
     else changeZone new (taiSec s) s)
  else s

/-- ZONE is sent after each TIME_ZONE_SET on the designated member (R384). -/
def announceZone (b : Bytes) (s : State) : State := if isDesignated s then broadcast 0x32 b s else s

/-- TIME_ZONE_SET. -/
def execTimeZoneSet (d : Nat) (s : State) : Out :=
  .next (hostCmd 0x62 d (fun b => [addrCheck b 24 16]) (fun x s =>
    match x.input with
    | none => s
    | some b =>
      match zoneFault b with
      | some o => finish d 0x21 o [] s
      | none => if mayAppend s || isStandby s then finishOk d [] (announceZone b (applyZone b s)) else s) s)

/-- The TIME_READ buffer. -/
def timeReadBytes (s : State) : Bytes :=
  let fromMaster := s.tm.master.any (·.utcValid)
  toLE 8 (stamp s) ++ [BitVec.ofNat 8 s.tm.st, BitVec.ofNat 8 s.tm.cfg.source,
    BitVec.ofNat 8 (b2n (clockValid s) + 2 * b2n s.rs.servoCold + 4 * b2n fromMaster + 8 * b2n (leapPending s).isSome),
    BitVec.ofNat 8 ((s.tm.master.map (·.port)).getD 0xFF)] ++ toLE 4 (errUs s) ++ toLE 8 (ofInt 64 s.tm.theta) ++
    toLE 8 (ofInt 64 s.tm.pathDelay) ++ toLE 4 (ofInt 32 (rateNow s.tm / 65536)) ++ toLE 2 (ofInt 16 (utcOffset s)) ++ toLE 2 0 ++
    toLE 8 ((s.tm.master.map (·.gm)).getD 0) ++ List.replicate 16 0

/-- TIME_READ. -/
def execTimeRead (d : Nat) (s : State) : Out :=
  .next (hostCmd 0x64 d (fun b => [addrCheck b 24 64]) (fun x s => finishOk d [] (putOut d (u64 x.bytes 24) (timeReadBytes s) s)) s)

/-- TIME_STATS. -/
def execTimeStats (d : Nat) (s : State) : Out :=
  .next (statsCmd 0x65 d 64 (fun s => s.tm.stats) (fun s => cntClear 8 (onTm (fun t => { t with stats := List.replicate 12 0 }) s))
    (fun _ => []) s)

/-- TIME_NOW_NS_READ (R484): the seconds are latched. -/
def execTimeNowNsRead (s : State) : Out :=
  .next (if isUp s 10 then onTm (fun t => { t with latched := (t.counter / 1000000000 % 2 ^ 48).toNat }) s else s)

end Sys2Proof.Machine
end

