-- ==== Sys2Proof/Machine/Plc.lean ====
section
/-! DEFINITION. Chapter 13: the beacon period, power-line frames, stations, the phase decision, load classes, tone maps, selective
retransmission, and the commands 0x50 to 0x53. -/
namespace Sys2Proof.Machine
open Sys2Proof

/-! ### Phases and the gate -/

def phaseAt (s : State) (ph : Nat) : PlcPhase := s.plc.phases.getD ph PlcPhase.reset
def onPhase (ph : Nat) (f : PlcPhase → PlcPhase) (s : State) : State := onPlc (fun p => { p with phases := modAt p.phases ph f }) s
def phasesUp (s : State) : List Nat := (List.range 3).filter (plcInService s)

/-- DUR of a frame of the module's, in 0.2 ms: its length on the medium is the physical layer's, a free value (R292). -/
def durOf (s : State) : Nat := Config.freeNat s.free % 256
def durNs (dur : Nat) : Nat := 200000 * dur

/-- A frame of the module's is to leave on n drivers now: it starts where the gate is open and the credits asked for 500 us before are
granted, and is deferred where not (R44, R291). -/
def startFrame (n dur : Nat) (s : State) : Bool × State :=
  if maySend s && isUp s 12 then
    let s := prepareDrivers n s
    if s.plc.drive < 8 * n then (false, s)
    else (true, { onPlc (fun p => { p with driveEnd := s.now + durNs dur }) s with free := s.free + 1 })
  else (false, s)

/-- SEQ of the next frame to TEI 0xFFF is used up. -/
def nextBcSeq (s : State) : State := onPlc (fun p => { p with bcSeq := (p.bcSeq + 1) % 256 }) s

/-- The module receives meters' frames; only the holder of a pair's token lets their frames leave on a link (R398). -/
def pairedUp (s : State) : Bool := s.pair.cfg.isSome

/-- FC bytes 0 to 12 of a frame that the module sends (R292); the CRC after them is the standard's (log 105). -/
def fcBytes (phase dt nid tei cls tmi pbCount pbSize seq : Nat) (retx : Bool) (pbMap ack dur : Nat) : Bytes :=
  [BitVec.ofNat 8 (8 * phase + dt)] ++ toLE 2 nid ++ toLE 2 (32768 + tei) ++
    [BitVec.ofNat 8 (8 * cls + tmi), BitVec.ofNat 8 (4 * pbCount + pbSize), BitVec.ofNat 8 seq, BitVec.ofNat 8 (b2n retx), BitVec.ofNat 8 pbMap] ++
    toLE 2 ack ++ toLE 1 dur

/-! ### Maps (R305, R306) -/

def mapFor (l : List ToneMap) (cls : Nat) : Option ToneMap := l.find? (fun m => m.cls == cls)
def putMap (m : ToneMap) (l : List ToneMap) : List ToneMap := m :: l.filter (fun x => x.cls != m.cls)
/-- TMI of a frame to a station in the present class. -/
def tmiFor (t : Station) (cls : Nat) : Nat := if t.dropRobust || (mapFor t.down cls).isNone then 0 else cls + 1
/-- TMI that the station uses toward the module. -/
def tmiUp (t : Station) (cls : Nat) : Nat := if (mapFor t.up cls).isNone then 0 else cls + 1

/-- A map is trained for a phase and class: TONEMAP_COLD is cleared (R99). -/
def mapTrained (ph cls : Nat) (s : State) : State := onPlc (fun p => { p with tmCold := clrBit p.tmCold (4 * ph + cls) }) s

/-- A change of BAND discards every map (R306). -/
def discardMaps (s : State) : State :=
  onPlc (fun p => { p with tmCold := 0xFFF, stations := p.stations.map (fun t => { t with up := [], down := [] }) }) s

/-! ### The beacon period (R295, R296, R298) -/

def periodNs : Int := 1000000000
/-- Number of the beacon period of phase n that runs, and ms into it. -/
def periodNo (s : State) (ph : Nat) : Int := (s.tm.counter - 333000000 * ph) / periodNs
def periodMs (s : State) (ph : Nat) : Nat := ((s.tm.counter - 333000000 * ph) % periodNs / 1000000).toNat

/-- PLC_SET's values take effect at the phase's beacon period. -/
def takePlcSet (ph : Nat) (s : State) : State :=
  let old := (phaseAt s ph).set
  let s := onPhase ph (fun p => { p with set := s.opt.plc }) s
  if old.band = s.opt.plc.band then s else discardMaps s

/-- Time that a station's frame and its SACK are given: what it depends on is the meter's, so it is a free value (1 to 63 ms). -/
def allocLen (s : State) (k : Nat) : Nat := Config.freeNat (s.free + k) % 63 + 1

/-- The meter's expected wake (R147) is due. -/
def wakeDue (s : State) (id : Nat) : Bool :=
  match entryById s id with
  | none => false
  | some (_, e) =>
    let w := pfWake (bodyFor s e.id)
    w != 0 && w ≤ (s.rs.opSeconds + 2 ^ 32 - e.lastHeard) % 2 ^ 32

/-- Stations that get an allocation: MORE, wake due, or a tone map owed to the module (R296). -/
def wantsAlloc (s : State) (ph : Nat) (t : Station) : Bool :=
  t.phase == ph && (t.more || wakeDue s t.id || (mapFor t.down (phaseAt s ph).cls).isNone)

/-- First ms at or after `a` from which len ms meet no other phase's beacon region (R290). -/
def clearOf (s : State) (ph a len : Nat) : Nat :=
  let regions := (phasesUp s).filterMap (fun q => if q = ph then none else some ((333 * q + 1000 - 333 * ph) % 1000))
  (List.range 3).foldl (fun a _ => regions.foldl (fun a r => if a < r + 20 && r < a + len then r + 20 else a) a) a

/-- The allocations of a period: TEI, START, LEN; and where they end. -/
def allocs (s : State) (ph contLen : Nat) : List (Nat × Nat × Nat) × Nat :=
  ((s.plc.stations.filter (wantsAlloc s ph)).zipIdx).foldl (fun (r : List (Nat × Nat × Nat) × Nat) p =>
    let len := allocLen s p.2
    let start := clearOf s ph r.2 len
    if r.1.length < 126 && start + len + contLen ≤ 1000 then (r.1 ++ [(p.1.tei, start, len)], start + len) else r) ([], 20)

def restoreLeft (s : State) (p : PlcPhase) : Nat := ((p.restoreEnd.getD 0) - s.now + secNs - 1) / secNs

/-- Beacon body (R295). -/
def beaconBody (s : State) (ph zc contStart contLen : Nat) (al : List (Nat × Nat × Nat)) : Bytes :=
  let p := phaseAt s ph
  let left := restoreLeft s p
  let flags := p.set.band + 4 * p.cls + 16 * b2n (s.pw.st == .ebb) + 32 * b2n (0 < left) + 64 * b2n (!clockValid s)
  toLE 6 (netTime s) ++ toLE 4 p.beaconNo ++ [BitVec.ofNat 8 flags, BitVec.ofNat 8 p.set.phases] ++ toLE 2 zc ++ toLE 2 left ++
    toLE 2 contStart ++ toLE 2 contLen ++ toLE 1 al.length ++ [0, 0, 0] ++
    al.flatMap (fun a => toLE 4 (a.1 + a.2.1 * 2 ^ 12 + a.2.2 * 2 ^ 22))

/-- The beacon leaves. -/
def sendBeacon (ph zc dur : Nat) (s : State) : State :=
  let ebb := s.pw.st == .ebb
  let contLen := if ebb then 980 else (phaseAt s ph).set.contLen
  let al := if ebb then ([], 20) else allocs s ph contLen
  let s := onPhase ph (fun p => { p with beaconNo := (p.beaconNo + 1) % 2 ^ 32, beaconing := true, zcOffset := zc, alloc := al.1 }) s
  let body := beaconBody s ph zc al.2 contLen al.1
  let fc := fcBytes ph 0 (phaseAt s ph).set.nid 0xFFF (phaseAt s ph).cls 0 ((body.length + 131) / 132) 1 s.plc.bcSeq false
    (2 ^ ((body.length + 131) / 132) - 1) 0 dur
  let s := emit (.plc ph fc body) (nextBcSeq (statPlc ph 0 s))
  { onImg (fun i => { i with crit := bumpAt i.crit (4 + ph) }) s with free := s.free + 126 }

/-- Where the period that runs has been started, the time line goes on to the next. -/
def toPeriod (ph : Nat) (s : State) : State :=
  if (phaseAt s ph).lastPeriod == some (periodNo s ph).toNat then passClock ((periodNo s ph + 1) * periodNs + 333000000 * ph) s else s

/-- BEACON_PERIOD_START. A beacon whose credits are not granted waits for the next period (R291). -/
def execBeaconPeriodStart (ph zc : Nat) (s : State) : Out :=
  .next <|
    if !isUp s 12 then s
    else
      let s := toPeriod ph s
      let s := onPhase ph (fun p => { p with lastPeriod := some (periodNo s ph).toNat, alloc := [] }) (takePlcSet ph s)
      let dur := durOf s
      let b := if plcInService s ph then startFrame 1 dur s else (false, s)
      let s := b.2
      if b.1 then plcBlocks ph (sendBeacon ph zc dur s)
      else onPhase ph (fun p => { p with beaconing := p.beaconing && plcInService s ph && maySend s }) s

/-! ### The phase decision (R302, R303) -/

def lagOf (s : State) (ph : Nat) : Int := if ph = 1 then s.plc.lag2 else if ph = 2 then s.plc.lag3 else 0
/-- T: the period of the lowest phase in service. -/
def mainsPeriod (s : State) : Nat := ((phasesUp s).head?.map (fun p => (phaseAt s p).period)).getD 0

/-- d reduced into (−t/2, t/2]. -/
def reduceHalf (d : Int) (t : Nat) : Int :=
  let m := d % t
  if 2 * m ≤ t then m else m - t

/-- The receiver of a phase in service with the best SNR, lowest on a tie, and its lead over the next (0 where there is no other; log 105). -/
def bestSnr (up : List Nat) (snr : List Int) : Nat × Int × Int :=
  let l := up.map (fun p => (snr.getD p 0, p))
  let best := l.foldl (fun (b : Nat × Int) p => if b.2 < p.1 then (p.2, p.1) else b) (up.head?.getD 0, snr.getD (up.head?.getD 0) 0)
  let second := (l.filter (fun p => p.2 != best.1)).foldl (fun (m : Option Int) p => some (match m with | none => p.1 | some v => max v p.1)) none
  (best.1, best.2, best.2 - second.getD best.2)

/-- Phase, conf and timing (none: not measured). -/
def decidePhase (s : State) (beaconPhase zcDelay : Nat) (snr : List Int) : Nat × Nat × Option Int :=
  let t := mainsPeriod s
  let b := bestSnr (phasesUp s) snr
  if zcDelay = 0xFFFF || t = 0 || 3 ≤ beaconPhase then (b.1, (clampInt 0 255 (16 * b.2.2)).toNat, none)
  else
    let d := (((phaseAt s beaconPhase).zcOffset : Int) + zcDelay + lagOf s beaconPhase) % t
    let e := fun q : Nat => reduceHalf (d - lagOf s q) t
    let ph := (phasesUp s).foldl (fun a q => if (e q).natAbs < (e a).natAbs then q else a) ((phasesUp s).head?.getD 0)
    let conf := (max 0 (255 - ratHalfEven ((e ph).natAbs * 1530) t)).toNat
    (ph, if b.1 != ph && 6 ≤ b.2.1 - snr.getD ph 0 then conf / 2 else conf, some (e ph))

/-! ### Reception -/

def fcPhase (fc : Bytes) : Nat := bits (u8 fc 0) 4 3
def fcDt (fc : Bytes) : Nat := u8 fc 0 % 8
def fcDown (fc : Bytes) : Bool := bit (u8 fc 4) 7
def fcTei (fc : Bytes) : Nat := u16 fc 3 % 4096
def fcSeq (fc : Bytes) : Nat := u8 fc 7
def fcZc (fc : Bytes) : Nat := u16 fc 10
def pbPayload (size : Nat) : Nat := pbPayloads.getD size 68

/-- The SACK of a frame (R294). It carries the class and the TMI in force for the reverse direction, and the MARGIN of the frame. -/
def sendSack (f : PlcRx) (result pbMap : Nat) (s : State) : State :=
  let dur := durOf s
  let b := startFrame 1 dur s
  let s := b.2
  if b.1 then
    let cls := (phaseAt s f.phase).cls
    let tmi := ((s.plc.stations.find? (fun t => t.tei == fcTei f.fc)).map (tmiFor · cls)).getD 0
    emit (.plc f.phase (fcBytes f.phase 2 (phaseAt s f.phase).set.nid (fcTei f.fc) cls tmi 0 0 (fcSeq f.fc) false pbMap
      (result + 256 * ofInt 8 (clampInt (-128) 127 f.margin)) dur) []) s
  else s

/-- The PBs of an MPDU after a frame: those held and those decoded now (R307). -/
def mergeHold (h : PlcHold) (now : Nat) (pbs : List (Nat × Bytes)) : PlcHold :=
  let new := pbs.filter (fun p => p.1 < h.count && !h.pbs.any (fun q => q.1 == p.1))
  { h with pbs := h.pbs ++ new, since := if new.isEmpty then h.since else now }

def holdMap (h : PlcHold) : Nat := h.pbs.foldl (fun m p => setBit m p.1) 0
def holdWhole (h : PlcHold) : Bool := (List.range h.count).all (fun k => h.pbs.any (fun p => p.1 == k))
def holdBody (h : PlcHold) : Bytes :=
  (List.range h.count).flatMap (fun k => ((h.pbs.find? (fun p => p.1 == k)).map (fun p => padTo (pbPayload h.size) p.2)).getD [])

/-- The hold that a frame belongs to: the one of its SEQ, else a new one. -/
def holdFor (f : PlcRx) (holds : List PlcHold) (now : Nat) : PlcHold :=
  (holds.find? (fun h => h.seq == fcSeq f.fc)).getD
    { seq := fcSeq f.fc, pbs := [], count := bits (u8 f.fc 6) 5 2, size := u8 f.fc 6 % 4, since := now, whole := false }

/-- MAC body of a frame from a station, complete with this frame; the SACK is sent. None: not complete, or passed on before. -/
def receiveMpdu (tei : Nat) (f : PlcRx) (s : State) : Option Bytes × State :=
  match s.plc.stations.find? (fun t => t.tei == tei) with
  | none =>
    let h := mergeHold (holdFor f [] s.now) s.now f.pbs
    let s := sendSack f (if holdWhole h then 0 else if h.pbs.isEmpty then 2 else 1) (holdMap h) s
    (if holdWhole h then some (holdBody h) else none, s)
  | some t =>
    let h := mergeHold (holdFor f t.holds s.now) s.now f.pbs
    if h.whole then (none, sendSack f 0 (holdMap h) s)
    else
      let done := holdWhole h
      let keep := if h.pbs.isEmpty then t.holds else { h with whole := done } :: t.holds.filter (fun x => x.seq != h.seq)
      let s := sendSack f (if done then 0 else if h.pbs.isEmpty then 2 else 1) (holdMap h) s
      (if done then some (holdBody h) else none, onStation tei (fun t => { t with holds := keep }) s)

/-- The answer to a join, or to a frame of a TEI not bound to its meter: a broadcast, which leaves as the module's downlink does (R297,
R300). JOIN_REFUSED counts the refusals, not the answers with STATUS 5 (log 105). -/
def sendJoinAnswer (ph id tei status : Nat) (s : State) : State :=
  let s := if status = 0 || status = 5 then s else statPlc ph 9 s
  onPlc (fun p => { p with bcast := p.bcast ++ [(7, 4, padTo 68 (toLE 8 id ++ toLE 2 tei ++ toLE 1 status))] }) s

def freeTei (s : State) : Option Nat := (List.range 1024).map (· + 1) |>.find? (fun k => !s.plc.stations.any (fun t => t.tei == k))

def newStation (tei id : Nat) (hw : Option Nat) (sizes phase conf : Nat) (timing : Int) (snr : List Int) : Station :=
  { tei := tei, id := id, hw := hw, sizes := sizes, phase := phase, conf := conf, timing := timing, rxPhase := phase, snr := snr, up := [], down := [], owes := none,
    margins := [0, 0, 0, 0], dropRobust := false, more := false, txSeq := 0, queue := [], holds := [], checkAt := none, checkSeq := none }

/-- STATUS of a JOIN_REQ (R300). -/
def joinStatus (s : State) (id band phase : Nat) : Nat :=
  match entryById s id with
  | none => 1
  | some (_, e) =>
    if e.retired then 1
    else if !bit (pfLinks (bodyFor s id)) phase then 2
    else if (stationOf s id).isNone && (freeTei s).isNone then 3
    else if !bit band (phaseAt s phase).set.band then 4
    else 0

/-- A JOIN_REQ (R300). -/
def onJoinReq (f : PlcRx) (body : Bytes) (s : State) : State :=
  let id := u64 body 0
  let p := decidePhase s (fcPhase f.fc) (fcZc f.fc) f.snr
  let st := joinStatus s id (u8 body 10) p.1
  if st != 0 then sendJoinAnswer f.phase id 0 st s
  else
    match stationOf s id with
    | some t =>
      sendJoinAnswer f.phase id t.tei 0 (onStation t.tei (fun t => { t with sizes := u8 body 11 % 16, phase := p.1, conf := p.2.1, timing := p.2.2.getD t.timing, snr := f.snr }) s)
    | none =>
      let tei := (freeTei s).getD 1
      sendJoinAnswer f.phase id tei 0
        (onPlc (fun q => { q with stations := q.stations ++ [newStation tei id (some (u16 body 8)) (u8 body 11 % 16) p.1 p.2.1 (p.2.2.getD 0) f.snr] }) s)

/-- What a frame of a station shows, whatever it carries (R296, R305, R306). -/
def noteLink (f : PlcRx) (cls now : Nat) (t : Station) : Station :=
  { t with
    rxPhase := fcPhase f.fc, snr := f.snr, margins := setAt t.margins cls f.margin, more := bit (u8 f.fc 8) 1
    owes := if (mapFor t.up cls).isNone && t.owes.isNone then some (cls, now) else t.owes }

/-- The same of a frame with a ZC_DELAY: the phase decision too (R303). -/
def noteStation (f : PlcRx) (t : Station) (p : Nat × Nat × Option Int) (cls : Nat) (s : State) : State :=
  onStation t.tei (fun t => noteLink f cls s.now { t with phase := p.1, conf := p.2.1, timing := p.2.2.getD t.timing }) s

/-- Bytes of the meta word (R169). -/
def metaWord (len link : Nat) (quality : Int) (arrival route channel : Nat) : Bytes :=
  toLE 2 len ++ [BitVec.ofNat 8 (16 * link), BitVec.ofNat 8 (ofInt 8 quality)] ++ toLE 8 arrival ++ toLE 2 route ++ [BitVec.ofNat 8 channel, 0]

/-- A frame's bytes are handed to the writer of an ingest queue (R169). While INTAKE does not run the link drops the frame and counts it
(R14, R29): in ABORTED, since its writer cannot end it (DESIGN CHOICE, log 102). -/
def toQueue (queue : Nat) (f : QFrame) (s : State) : State :=
  if isUp s 4 then onIk (fun i => { i with queues := modAt i.queues queue (fun q => { q with coming := q.coming ++ [f] }) }) s
  else statIk (6 * queue + 2) s

/-- The frame of R175 in a MAC body: LEN says where it ends, and zero bytes follow it (R287, R293). A body that ends before is handed on as it
is: its length disagrees with FRAME_LEN (R175). -/
def frameIn (body : Bytes) : Bytes := body.take (28 + frameLen body)

/-- A complete DATA body from a station (R293, R300, R303, R309). -/
def onPlcData (f : PlcRx) (body : Bytes) (s : State) : State :=
  let fr := frameIn body
  match s.plc.stations.find? (fun t => t.tei == fcTei f.fc) with
  | none => sendJoinAnswer f.phase (frameId fr) 0 5 s
  | some t =>
    if t.id != frameId fr then sendJoinAnswer f.phase (frameId fr) 0 5 s
    else
      let p := decidePhase s (fcPhase f.fc) (fcZc f.fc) f.snr
      let cls := (phaseAt s p.1).cls
      let s := noteStation f t p cls s
      let s := onImg (fun i => { i with heard := if i.heard.contains t.tei then i.heard else i.heard ++ [t.tei] }) s
      let q := clampInt (-127) 126 (bestSnr (phasesUp s) f.snr).2.1
      let meas : Meas := { Meas.none with mags := some (f.mags, clampInt (-32767) 32767 (p.2.2.getD 0)) }
      toQueue p.1 { meta16 := metaWord fr.length p.1 q (stamp s) p.2.1 cls, bytes := fr, meas := meas } s

/-- A TONE_MAP body (R305). -/
def toneMapOf (b : Bytes) : ToneMap := { cls := u8 b 0 % 4, rate := u8 b 1, band := u8 b 2, map := b.drop 4 }

/-- A TONE_MAP from a station: the map for its downlink. -/
def onToneMap (f : PlcRx) (body : Bytes) (s : State) : State :=
  match s.plc.stations.find? (fun t => t.tei == fcTei f.fc) with
  | none => s
  | some t =>
    let m := toneMapOf body
    let s := onStation t.tei (noteLink f (phaseAt s t.phase).cls s.now) s
    if m.band != (phaseAt s t.phase).set.band || 1 < m.rate then s
    else mapTrained t.phase m.cls (onStation t.tei (fun t => { t with down := putMap m t.down, dropRobust := false }) s)

/-- A round of an MPDU ended without full decoding (R308). -/
def roundFailed (ph : Nat) (t : Station) (x : PlcTx) (s : State) : State :=
  if 3 ≤ x.rounds then statPlc ph 5 (onStation t.tei (fun t => { t with queue := t.queue.drop 1 }) s)
  else onStation t.tei (fun t => { t with queue := { x with rounds := x.rounds + 1, waiting := false } :: t.queue.drop 1 }) s

/-- A SACK for the MPDU that waits (R306, R308). -/
def onSack (f : PlcRx) (s : State) : State :=
  match s.plc.stations.find? (fun t => t.tei == fcTei f.fc) with
  | none => s
  | some t =>
    match t.queue with
    | [] => s
    | x :: _ =>
      if !x.waiting || x.seq != fcSeq f.fc then s
      else
        let result := u8 f.fc 10 % 4
        let drop := i8 f.fc 11 < 0 || result == 2
        let s := if drop && !t.dropRobust then statPlc f.phase 6 s else s
        let s := onStation t.tei (fun t => { t with dropRobust := drop }) s
        if result = 0 then
          let s := onStation t.tei (fun t => { t with queue := t.queue.drop 1 }) s
          if x.toneMap then
            let m := toneMapOf x.body
            mapTrained t.phase m.cls (onStation t.tei (fun t => { t with up := putMap m t.up }) s)
          else s
        else
          let done := x.done ||| (if result = 1 then u8 f.fc 9 else 0)
          roundFailed f.phase t { x with done := done } s

/-- What the standby of a pair learns from the holder's frames (R301, R399). -/
def onPartnerFrame (f : PlcRx) (s : State) : State :=
  if !pairedUp s then s
  else if fcDt f.fc = 0 then onPair (fun p => { p with bcnPlc := setAt p.bcnPlc f.phase (some s.now) }) s
  else if fcDt f.fc = 4 then
    let b := (f.pbs.head?.map (·.2)).getD []
    if u8 b 10 = 0 && u16 b 8 != 0 then
      let keep := s.plc.stations.filter (fun t => t.id != u64 b 0 && t.tei != u16 b 8)
      onPlc (fun p => { p with stations := keep ++ [newStation (u16 b 8) (u64 b 0) none 0 f.phase 0 0 f.snr] }) s
    else s
  else s

/-- A meter's frame with good FC and the module's NID. -/
def onMeterFrame (f : PlcRx) (s : State) : State :=
  let dt := fcDt f.fc
  if dt = 2 then onSack f s
  else if dt = 1 || dt = 3 || dt = 5 then
    let lost := bits (u8 f.fc 6) 5 2 - f.pbs.length
    let s := (List.range lost).foldl (fun s _ => statPlc f.phase 3 s) s
    match receiveMpdu (fcTei f.fc) f s with
    | (none, s) => s
    | (some body, s) => if dt = 1 then onPlcData f body s else if dt = 3 then onJoinReq f body s else onToneMap f body s
  else s

/-- PLC_FRAME_RX (R292, R294). -/
def execPlcFrameRx (f : PlcRx) (s : State) : Out :=
  .next <|
    if !isUp s 12 || !plcInService s f.phase then s
    else if !f.fcOk then statPlc f.phase 2 s
    else if u16 f.fc 1 != (phaseAt s f.phase).set.nid then statPlc f.phase 8 s
    else if fcDown f.fc then onPartnerFrame f s
    else onMeterFrame f (statPlc f.phase 1 s)

/-! ### Downlink (R297, R308) -/

/-- Microseconds into the period of a phase. -/
def periodUs (s : State) (ph : Nat) : Nat := ((s.tm.counter - 333000000 * ph) % periodNs / 1000).toNat

/-- A frame of dur that starts now would overlap the beacon region of a phase in service (R290), or an allocation of the period that runs
(R289, R295). -/
def meetsTraffic (s : State) (dur : Nat) : Bool :=
  let d := 200 * dur
  (phasesUp s).any (fun q =>
    let t := periodUs s q
    t < 20000 || 1000000 < t + d || ((phaseAt s q).lastPeriod == some (periodNo s q).toNat &&
      (phaseAt s q).alloc.any (fun a => t < 1000 * (a.2.1 + a.2.2) && 1000 * a.2.1 < t + d)))

/-- The medium is idle for t_mifs after the module's own last frame (R288, R297). -/
def idleMedium (s : State) : State := if s.plc.driveEnd = 0 then s else passTo (s.plc.driveEnd + 500000) s

/-- PB map of an MPDU's blocks that are still to be decoded. -/
def leftMap (x : PlcTx) : Nat := (List.range x.pbCount).foldl (fun m k => if bit x.done k then m else setBit m k) 0

/-- The head of a station's queue is sent. -/
def sendHead (ph : Nat) (t : Station) (x : PlcTx) (dur : Nat) (s : State) : State :=
  let cls := (phaseAt s ph).cls
  let left := leftMap x
  let n := ((List.range x.pbCount).filter (bit left)).length
  let fc := fcBytes ph (if x.toneMap then 5 else 1) (phaseAt s ph).set.nid t.tei cls (tmiFor t cls) n x.pbSize x.seq (0 < x.rounds) left 0 dur
  let pay := (List.range x.pbCount).flatMap (fun k => if bit left k then padTo (pbPayload x.pbSize) (slice x.body (pbPayload x.pbSize * k) (min (pbPayload x.pbSize) (x.body.length - pbPayload x.pbSize * k))) else [])
  let s := (List.range (if x.rounds = 0 then 0 else n)).foldl (fun s _ => statPlc ph 4 s) s
  let net := netTime s
  emit (.plc ph fc pay) <|
    onStation t.tei (fun t =>
      { t with
        queue := { x with waiting := true } :: t.queue.drop 1
        checkSeq := t.checkSeq.map (fun c => if c.2.1 == x.seq then (c.1, c.2.1, some net) else c) }) s

/-- A broadcast leaves on its phases at once, with one content (R288): its CLASS is the highest of theirs (log 105). -/
def sendBroadcast (on : List Nat) (dt : Nat) (b : Bytes) (dur : Nat) (s : State) : State :=
  let k := pbFor b.length
  let nid := (phaseAt s (on.head?.getD 0)).set.nid
  let cls := on.foldl (fun m q => max m (phaseAt s q).cls) 0
  on.foldl (fun s q => emit (.plc q (fcBytes 3 dt nid 0xFFF cls 0 1 k (s.plc.bcSeq) false 1 0 dur) (padTo (pbPayload k) b)) s) s

/-- A head that was sent and not answered by now has failed a round. -/
def headUnanswered (ph : Nat) (t : Station) (s : State) : State :=
  match t.queue with
  | x :: _ => if x.waiting then roundFailed ph t x s else s
  | [] => s

/-- The first station of a phase with a frame to send. -/
def nextStation (s : State) (ph : Nat) : Option Station := s.plc.stations.find? (fun t => t.phase == ph && !t.queue.isEmpty)

/-- PLC_DOWNLINK_TX (R297): a broadcast goes first; then the first station of the phase with a frame to send. -/
def execPlcDownlinkTx (ph : Nat) (s : State) : Out :=
  .next <|
    if !isUp s 12 || !plcInService s ph then s
    else
      let s := idleMedium s
      let dur := durOf s
      match s.plc.bcast with
      | (mask, dt, b) :: r =>
        let on := (phasesUp s).filter (bit mask)
        if meetsTraffic s dur then s
        else
          let g := startFrame on.length dur s
          if g.1 then nextBcSeq (sendBroadcast on dt b dur (onPlc (fun p => { p with bcast := r }) g.2)) else g.2
      | [] =>
        match nextStation s ph with
        | none => s
        | some t =>
          let s := headUnanswered ph t s
          if meetsTraffic s dur then s
          else
            match (nextStation s ph).map (fun u => (u, u.queue)) with
            | some (u, x :: _) =>
              let g := startFrame 1 dur s
              if g.1 then sendHead ph u x dur g.2 else g.2
            | _ => s

/-! ### Load classes (R304) -/

def noiseClass (set : PlcSet) (n : Nat) : Nat :=
  if n < set.noiseT.getD 0 10 then 0 else if n < set.noiseT.getD 1 20 then 1 else if n < set.noiseT.getD 2 30 then 2 else 3
def impedClass (set : PlcSet) (z : Nat) : Nat :=
  if set.zT.getD 0 100 ≤ z then 0 else if set.zT.getD 1 30 ≤ z then 1 else if set.zT.getD 2 10 ≤ z then 2 else 3

/-- One measurement of a phase's class. -/
def classStep (c : Nat) (p : PlcPhase) : PlcPhase :=
  if p.cls < c then { p with cls := c, lowRun := 0, lowMax := 0 }
  else if c < p.cls then
    let m := max p.lowMax c
    if 100 ≤ p.lowRun + 1 then { p with cls := m, lowRun := 0, lowMax := 0 } else { p with lowRun := p.lowRun + 1, lowMax := m }
  else { p with lowRun := 0, lowMax := 0 }

/-- LOAD_CLASS_MEASURE, with the mains period and this phase's lag as measured beside it (R302). -/
def execLoadClassMeasure (ph noise imped period lag : Nat) (s : State) : Out :=
  .next <|
    if !isUp s 12 then s
    else
      let p := phaseAt s ph
      let q := classStep (max (noiseClass p.set noise) (impedClass p.set imped)) p
      let s := onPhase ph (fun _ => { q with noise := min 255 noise, imped := min 255 imped, period := period, crossAt := if period = 0 then none else some s.now }) s
      let s := onPlc (fun l => { l with lag2 := if ph = 1 then lag else l.lag2, lag3 := if ph = 2 then lag else l.lag3 }) s
      if q.cls = p.cls then s else statPlc ph 7 s

/-! ### Zero crossings (R302) -/

/-- Microseconds since a crossing at most 100 ms ago; 0 where there was none. -/
def sinceCross (s : State) (t : Option Nat) : Nat :=
  match t with
  | some a => if s.now ≤ a + 100 * msNs then (s.now - a + 500) / 1000 else 0
  | none => 0

/-- PLC_LINE_n.PERIOD: 0 where no crossing was seen in 100 ms. -/
def linePeriod (s : State) (ph : Nat) : Nat :=
  let p := phaseAt s ph
  if p.crossAt.any (fun a => s.now ≤ a + 100 * msNs) then p.period else 0

/-- MAINS_ZERO_CROSSING: the phase's period, and its lag behind the lowest phase in service. -/
def execMainsZeroCrossing (ph : Nat) (s : State) : Out :=
  .next <|
    if !isUp s 12 || !plcInService s ph then s
    else
      let t := sinceCross s (phaseAt s ph).crossAt
      let ref := (phasesUp s).head?.getD 0
      let lag := if ref = ph then 0 else sinceCross s (phaseAt s ref).crossAt % max 1 (phaseAt s ref).period
      let s := onPhase ph (fun p => { p with period := t, crossAt := some s.now }) s
      onPlc (fun l => { l with lag2 := if ph = 1 then lag else l.lag2, lag3 := if ph = 2 then lag else l.lag3 }) s

/-- PLC_SACK_TIMEOUT (R308): no SACK counts as every PB failed. -/
def execPlcSackTimeout (tei : Nat) (s : State) : Out :=
  .next <|
    match s.plc.stations.find? (fun t => t.tei == tei) with
    | none => s
    | some t =>
      match t.queue with
      | [] => s
      | x :: _ => if isUp s 12 && x.waiting then roundFailed t.phase t x s else s

/-! ### Tone maps and held blocks -/

/-- Carriers of the band plans (R286). -/
def carriers (band : Nat) : Nat := [411, 131, 89, 49].getD band 411

/-- A map computed by the receiver: its rate and its carriers' modulations are the receiver's, free values. -/
def freshMap (s : State) (band cls : Nat) : ToneMap :=
  { cls := cls, rate := b2n (Config.freeBool s.free), band := band
    map := (List.range ((2 * carriers band + 7) / 8)).map (fun k => Config.freeByte (s.free + k)) }

def toneMapBytes (m : ToneMap) : Bytes := [BitVec.ofNat 8 m.cls, BitVec.ofNat 8 m.rate, BitVec.ofNat 8 m.band, 0] ++ m.map

/-- TONE_MAP_SEND (R306). -/
def execToneMapSend (tei : Nat) (s : State) : Out :=
  .next <|
    match s.plc.stations.find? (fun t => t.tei == tei) with
    | none => s
    | some t =>
      match t.owes with
      | none => s
      | some (cls, _) =>
        if !isUp s 12 || !maySend s then s
        else
          let m := freshMap s (phaseAt s t.phase).set.band cls
          queuePlc t.id (toneMapBytes m) true { onStation tei (fun t => { t with owes := none }) s with free := s.free + 128 }

/-- PB_HOLD_EXPIRE (R307). -/
def execPbHoldExpire (tei seq : Nat) (s : State) : Out :=
  .next <|
    match (s.plc.stations.find? (fun t => t.tei == tei)).bind (fun t => t.holds.find? (fun h => h.seq == seq)) with
    | none => s
    | some h => onStation tei (fun t => { t with holds := t.holds.filter (fun x => x.seq != seq) }) (passTo (h.since + 200 * msNs) s)

/-! ### Commands -/

def plcSetOf (b : Bytes) : PlcSet :=
  { band := u8 b 16, phases := u8 b 17 % 8, nid := u16 b 18, txAtten := u8 b 20, erase := u8 b 21, restore := u16 b 22,
    noiseT := [u8 b 24, u8 b 25, u8 b 26], zT := [u8 b 27, u8 b 28, u8 b 29], contLen := u16 b 30 }

def plcSetChecks (b : Bytes) : List Check :=
  [(u8 b 16 ≤ 3, 16), (u8 b 20 ≤ 15, 20), (inRange (u8 b 21) 6 30, 21), (u16 b 22 ≤ 3600, 22),
   (u8 b 24 < u8 b 25 && u8 b 25 < u8 b 26, 24), (u8 b 28 < u8 b 27 && u8 b 29 < u8 b 28, 27), (inRange (u16 b 30) 100 980, 30)]

/-- The commands of the power line while PLC is down: PLC_DOWN. -/
def plcDown (d : Nat) (f : State → State) (s : State) : State := if isUp s 12 then f s else finish d 0x20 0 [] s

/-- PLC_SET (R61, R288): it is taken also while PLC is switched off for want of work. -/
def execPlcSet (d : Nat) (s : State) : Out :=
  .next (hostCmd 0x50 d plcSetChecks (fun x s =>
    let go := fun s => finishOk d [] (saveOpt (fun o => { o with plc := plcSetOf x.bytes }) s)
    if (islOf s 12).phase == .switchedOff then go s else plcDown d go s) s)

def mapBits (l : List ToneMap) : Nat := l.foldl (fun m t => setBit m t.cls) 0

/-- The PLC_STATION_READ buffer. -/
def stationBytes (t : Station) : Bytes :=
  padTo 64 (toLE 2 t.tei ++ [BitVec.ofNat 8 t.phase, BitVec.ofNat 8 t.conf, BitVec.ofNat 8 (mapBits t.up + 16 * mapBits t.down)] ++
    (List.range 4).flatMap (fun k => toLE 1 (ofInt 8 (clampInt (-128) 127 (t.margins.getD k 0)))) ++
    (List.range 3).flatMap (fun k => toLE 1 (ofInt 8 (clampInt (-128) 127 (t.snr.getD k 0)))) ++ toLE 2 (ofInt 16 t.timing))

/-- PLC_STATION_READ. -/
def execPlcStationRead (d : Nat) (s : State) : Out :=
  .next (meterCmd 0x51 d false otherClass (fun b => [addrCheck b 32 64]) (fun x _ e s => plcDown d (fun s =>
    match stationOf s e.id with
    | none => finish d 0x21 0 [] s
    | some t => finishOk d (toLE 2 t.tei) (putOut d (u64 x.bytes 32) (stationBytes t) s)) s) s)

def resetMaps (mask : Nat) (t : Station) : Station :=
  { t with up := t.up.filter (fun m => !bit mask m.cls), down := t.down.filter (fun m => !bit mask m.cls) }

/-- PLC_TONEMAP_RESET: with ALL the reference is zero. -/
def execPlcTonemapReset (d : Nat) (s : State) : Out :=
  .next (hostCmd 0x52 d (fun b => if bit (u8 b 28) 7 then [(allZero (slice b 16 12), 16)] else refChecks b) (fun x s => plcDown d (fun s =>
    let mask := u8 x.bytes 28 % 16
    if bit (u8 x.bytes 28) 7 then finishOk d [] (onPlc (fun p => { p with stations := p.stations.map (resetMaps mask) }) s)
    else
      match refMeter false s x.bytes with
      | none => finish d 2 16 [] s
      | some (_, e) =>
        match stationOf s e.id with
        | none => finish d 0x21 0 [] s
        | some t => finishOk d [] (onStation t.tei (resetMaps mask) s)) s) s)

/-- PLC_STATS. -/
def execPlcStats (d : Nat) (s : State) : Out :=
  .next <|
    if isUp s 12 then
      statsCmd 0x53 d 256 (fun s => s.plc.stats.flatten)
        (fun s => cntClear 5 (onPlc (fun p => { p with stats := List.replicate 3 (List.replicate 10 0) }) s)) (fun _ => []) s
    else hostCmd 0x53 d statsChecks (fun _ s => finish d 0x20 0 [] s) s

end Sys2Proof.Machine
end

