-- ==== Sys2Proof/Machine/Radio.lean ====
section
/-! DEFINITION. Chapter 14: regulatory profiles, the dwell accountant, slots and hopping, exchanges with children, joins, and the commands
0x54 to 0x57. -/
namespace Sys2Proof.Machine
open Sys2Proof

/-! ### Profiles (R314, R315) -/

def noSub : SubBand := { first := 0xFF, last := 0, maxDbm := 0, budget := 0, window := 1 }

def builtIn1 : RegProfile :=
  { modes := 0xFF, f0 := 902200, spacing := 200, chCount := 129, rdvCh := 64, maxDbm := 27, dwellMax := 400, dwellWindow := 20,
    hop := List.range 129, subs := [] }

def builtIn2 : RegProfile :=
  { modes := 0x83, f0 := 863100, spacing := 200, chCount := 35, rdvCh := 32, maxDbm := 27, dwellMax := 0, dwellWindow := 1,
    hop := List.range 25,
    subs := [{ first := 0, last := 24, maxDbm := 14, budget := 1000, window := 3600 },
             { first := 32, last := 32, maxDbm := 27, budget := 1000, window := 3600 }] }

/-- The profile of a number; none: profile 3 is not loaded. -/
def regOf (s : State) (n : Nat) : Option RegProfile :=
  if n = 1 then some builtIn1 else if n = 2 then some builtIn2 else s.opt.profile3

def radioAt (s : State) (r : Nat) : RadioSt := s.rad.radios.getD r RadioSt.reset
def onRadio (r : Nat) (f : RadioSt → RadioSt) (s : State) : State := onRad (fun x => { x with radios := modAt x.radios r f }) s
def regNow (s : State) (r : Nat) : RegProfile := (radioAt s r).reg.getD builtIn1

/-- HOP_MASK of a profile, 32 bytes. -/
def hopMask (p : RegProfile) : Bytes := toLE 32 (p.hop.foldl (fun m k => setBit m k) 0)

/-! ### Modes (R311, R312) -/

def isOfdm (mode : Nat) : Bool := bits mode 7 6 == 1
def ofdmOption (mode : Nat) : Nat := bits mode 5 4 + 1

/-- A mode's bit in a MODES bitmap. -/
def modeBit (mode : Nat) : Nat := if isOfdm mode then 3 + ofdmOption mode else mode % 4

/-- w: channels that a mode occupies on each side of its own. -/
def widthOf (mode : Nat) : Nat :=
  if isOfdm mode then [3, 2, 1, 0].getD (bits mode 5 4) 0 else if mode % 4 < 2 then 0 else 1

def occupied (mode ch : Nat) : List Nat := (List.range (2 * widthOf mode + 1)).map (fun k => ch - widthOf mode + k)

/-- Air time in µs of a frame of so many octets, preamble, SFD and PHR included. -/
def airTime (mode octets : Nat) : Nat :=
  if isOfdm mode then Config.ofdmAir mode octets
  else
    let rate := [50, 100, 150, 200].getD (mode % 4) 50
    (octets * 8000 + rate - 1) / rate

/-- Typical sensitivity of a mode in dBm (R498). -/
def sensitivity (mode : Nat) : Int :=
  let mcs := mode % 8
  if isOfdm mode then
    (match ofdmOption mode with
     | 1 => [-109, -107, -104, -101].getD mcs (-101)
     | 2 => [-108, -105, -103, -100, -97, -94].getD mcs (-94)
     | 3 => [-104, -104, -101, -98, -95, -92, -89].getD mcs (-89)
     | _ => [-100, -100, -100, -97, -94, -91, -88].getD mcs (-88))
  else [-110, -107, -105, -103].getD (mode % 4) (-110)

/-- QUALITY of a frame (R313): RSSI is in units of 0.25 dBm. -/
def radioQuality (rssi : Int) (mode : Nat) : Int := clampInt (-127) 126 ((rssi - 4 * sensitivity mode) / 4)

/-! ### The dwell accountant (R316 to R318, R70, R71) -/

/-- Power of a frame in a slot (R316). -/
def txPower (s : State) (r mode ch : Nat) : Int :=
  let p := regNow s r
  (p.subs.filter (fun b => (occupied mode ch).any (fun c => b.first ≤ c && c ≤ b.last))).foldl (fun m b => min m b.maxDbm)
    (min (radioAt s r).set.txDbm p.maxDbm)

def nowUs (s : State) : Nat := s.now / 1000

/-- Part of a past transmission that lies in a window of time, µs. -/
def overlapUs (a : Air) (lo hi : Nat) : Nat := min a.ends hi - max (a.ends - a.air) lo

/-- Air time charged in the w seconds that end at t to the transmissions that p selects. -/
def usedUs (s : State) (t w : Nat) (p : Air → Bool) : Nat :=
  ((s.rad.air.filter p).map (fun a => overlapUs a (t - w * 1000000) t)).sum

/-- Conducted powers in 0.1 mW (R71). -/
def powerMw (dbm : Int) : Nat :=
  [1, 1, 2, 2, 3, 3, 4, 5, 6, 8, 10, 13, 16, 20, 25, 32, 40, 50, 63, 79, 100, 126, 158, 200, 251, 316, 398, 501, 631, 794, 1000, 1259, 1585,
    1995, 2512, 3162, 3981, 5012].getD (dbm + 10).toNat 5012

def paCreditsOf (dbm : Int) : Nat := if dbm = 27 then 20 else min 20 (Config.paCredits (dbm + 10).toNat)

/-- The dwell accountant's reason to defer a frame (R317): the counter of RADIO_STATS it adds to. -/
def dwellDefers (s : State) (r mode ch octets : Nat) : Option Nat :=
  let p := regNow s r
  let air := airTime mode octets
  let t := nowUs s + air
  let cs := occupied mode ch
  if p.dwellMax != 0 && cs.any (fun c => p.dwellMax * 1000 < usedUs s t p.dwellWindow (fun a => a.channels.contains c) + air) then some 7
  else if p.subs.any (fun b => cs.any (fun c => b.first ≤ c && c ≤ b.last) &&
      b.budget * b.window * 1000000 / 10000 < usedUs s t b.window (fun a => a.channels.any (fun c => b.first ≤ c && c ≤ b.last)) + air) then some 8
  else none

/-- The other radio's transmission and this one would exceed 501.2 mW (R71). -/
def sumTooHigh (s : State) (r mode ch : Nat) : Bool :=
  s.rad.air.any (fun a => a.radio != r && nowUs s < a.ends && 5012 < powerMw a.dbm + powerMw (txPower s r mode ch))

/-- Why a frame is deferred, its PA prepared (R70, R71, R317); none: admitted. -/
def deferredBy (s : State) (r mode ch octets : Nat) : Option Nat :=
  match dwellDefers s r mode ch octets with
  | some k => some k
  | none => if (radioAt s r).pa < paCreditsOf (txPower s r mode ch) || sumTooHigh s r mode ch then some 9 else none

/-- Longest window for which transmissions are kept, s. -/
def airKeep : Nat := 3600

/-- A frame is sent where the gate and the accountant admit it, its PA granted (R70); else the deferral is counted. True: sent. -/
def sendRadio (r mode ch octets : Nat) (frame : Bytes) (s : State) : Bool × State :=
  if !maySend s || !isUp s 13 then (false, s)
  else
    let s := preparePa r (paCreditsOf (txPower s r mode ch)) s
    match deferredBy s r mode ch octets with
    | some k => (false, settlePa r (statRad r k s))
    | none =>
      let air := airTime mode octets
      let a : Air := { ends := nowUs s + air, air := air, channels := occupied mode ch, radio := r, dbm := txPower s r mode ch }
      let keep := s.rad.air.filter (fun x => nowUs s < x.ends + airKeep * 1000000)
      let s := onRadio r (fun x => { x with mode := mode }) (onRad (fun x => { x with air := keep ++ [a] }) s)
      (true, emit (.radio r ch mode frame) s)

/-! ### Frames (R319, R320) -/

/-- FLAGS of a module frame. -/
def radioFlags (s : State) (r : Nat) (more dlWait : Bool) : Nat :=
  b2n more + 2 * b2n (((radioAt s r).restoreEnd.getD 0) > s.now) + 4 * b2n (s.pw.st == .ebb) + 8 * b2n (!clockValid s) + 16 * b2n dlWait

/-- Vendor IE content: VENDOR, KIND, FLAGS, LINK_BYTE, TIME. -/
def vendorIe (s : State) (kind flags link : Nat) : Bytes :=
  [0x4F, 0x56, 0x4B, BitVec.ofNat 8 kind, BitVec.ofNat 8 flags, BitVec.ofNat 8 link] ++ toLE 6 (netTime s)

/-- BEACON payload. -/
def radioBeacon (s : State) (r : Nat) : Bytes :=
  let x := radioAt s r
  let left := ((x.restoreEnd.getD 0) - s.now + secNs - 1) / secNs
  toLE 2 x.set.hopSeed ++ toLE 2 x.set.hopStep ++ [BitVec.ofNat 8 x.hopVersion, BitVec.ofNat 8 (if s.tm.validSeen then 20 else 100),
    BitVec.ofNat 8 x.set.gMax, BitVec.ofNat 8 x.set.profile] ++ toLE 2 left ++ toLE 4 x.beaconNo ++ [0, 0]

/-- Octets of a unicast frame with a payload: 12 of preamble, SFD and PHR, 15 of MAC header, 14 of IE, 4 of FCS, 2 of termination. -/
def unicastOctets (payload : Nat) : Nat := 45 + (if payload = 0 then 0 else 2 + payload)

/-- The answer to a child frame (R325): its MAC sequence number, the child, IE and payload. -/
def sendAnswerFrame (f : RadioRx) (kind flags : Nat) (payload : Bytes) (s : State) : Bool × State :=
  sendRadio f.radio f.mode f.channel (unicastOctets payload.length)
    (toLE 1 f.macSeq ++ toLE 8 f.source ++ vendorIe s kind flags 0xFF ++ payload) s

/-! ### Slots (R321, R322) -/

def asnNow (s : State) : Nat := netTime s * 5 / 32768

/-- Channel of a slot. -/
def slotChannel (s : State) (r asn : Nat) : Nat :=
  let p := regNow s r
  if asn % 100 = 5 then p.rdvCh else p.hop.getD ((asn * (radioAt s r).set.hopStep + (radioAt s r).set.hopSeed) % max 1 p.hop.length) 0

/-- The settings take effect in a slot with ASN mod 100 = 0. -/
def takeRadioSet (r : Nat) (s : State) : State :=
  let v := s.opt.radio.getD r RadioSet.reset
  onRadio r (fun x => { x with set := v, reg := regOf s v.profile, hopVersion := s.opt.hopVersion.getD r 0 }) s

/-- A beacon, or the rendezvous beacon, at the start of its slot. -/
def slotBeacon (r asn : Nat) (s : State) : State :=
  let x := radioAt s r
  let rdv := asn % 100 == 5
  if !maySend s || !(rdv || asn % 10 == 0) then s
  else
    let body := if rdv then (radioBeacon s r).take 10 else radioBeacon s r
    let flags := radioFlags s r false false
    let dwell := (dwellDefers s r x.set.baseMode (slotChannel s r asn) (39 + body.length)).isSome
    let res := sendRadio r x.set.baseMode (slotChannel s r asn) (39 + body.length) (vendorIe s (if rdv then 2 else 1) flags 0xFF ++ body) s
    let s := res.2
    if !res.1 then
      statRad r (if rdv then 2 else 1) (if rdv || dwell then s else onImg (fun i => { i with crit := bumpAt i.crit 9 }) s)
    else
      let s := onImg (fun i => { i with crit := bumpAt i.crit (7 + r) }) s
      if rdv then s else statRad r 0 (onRadio r (fun x => { x with beaconNo := (x.beaconNo + 1) % 2 ^ 32 }) s)

/-- Multicast blocks of campaigns in slot 0 of a cycle: up to 7; a frame that the accountant defers waits for the next cycle (R470). -/
def radioBlocks : Nat → Nat → Nat → State → State
  | 0, _, _, s => s
  | k + 1, r, asn, s =>
    match radioBlock s r with
    | none => s
    | some (c, b) =>
      let f := blockFrame s c b
      let res := sendRadio r (radioAt s r).set.baseMode (slotChannel s r asn) (41 + f.length)
        (vendorIe s 4 (radioFlags s r false false) 0xFF ++ f) s
      if res.1 then radioBlocks k r asn (blockSent r c.id res.2) else res.2

/-- TAI instant at which a slot starts, ns. -/
def asnStart (asn : Nat) : Int := ((asn * 32768 + 4) / 5 * 1000000000 + 32767) / 32768

/-- A radio enters a slot: its settings, its channel. -/
def enterSlotOf (asn r : Nat) (s : State) : State :=
  let s := if asn % 100 = 0 then takeRadioSet r s else s
  onRadio r (fun x => { x with asn := some asn, channel := slotChannel s r asn }) s

/-- Radios that a slot start names: 0, 1, or both at the same tick. -/
def slotRadios (r : Nat) : List Nat := if r = 2 then [0, 1] else [r]

/-- RADIO_SLOT_START: where the slot that runs has been started, the time line goes on to the next. Radio 2 stands for both at the same tick:
their beacons go before other frames, and radio A's before radio B's (R71). -/
def execRadioSlotStart (r : Nat) (s : State) : Out :=
  .next <|
    if !isUp s 13 then s
    else
      let rs := slotRadios r
      let s := if rs.any (fun k => (radioAt s k).asn == some (asnNow s)) then passClock (asnStart (asnNow s + 1)) s else s
      let asn := asnNow s
      let s := rs.foldl (fun s k => enterSlotOf asn k s) s
      let on := rs.filter (fun k => radioEnabled s k)
      let s := on.foldl (fun s k => slotBeacon k asn s) s
      if asn % 10 = 0 then on.foldl (fun s k => radioBlocks 7 k asn s) s else s

/-! ### Joins (R331) -/

def pollSlots : List Nat := [1, 2, 3, 4, 6, 7, 8, 9]

/-- The least loaded of a list, first on a tie. -/
def leastOf (l : List Nat) (load : Nat → Nat) : Nat :=
  (l.foldl (fun (b : Option Nat) k => match b with | none => some k | some q => if load k < load q then some k else some q) none).getD 0

/-- A place for a new child: the poll slot and the 10 ms band with the fewest children. -/
def newPlace (s : State) (r : Nat) : Nat × Nat :=
  let mine := s.rad.children.filter (fun c => c.radio == r)
  let slot := leastOf pollSlots (fun k => (mine.filter (fun c => c.pollSlot == k)).length)
  let band := leastOf ((List.range 17).map (· + 1)) (fun k => (mine.filter (fun c => c.pollSlot == slot && c.pollOfs / 10 == k)).length)
  (slot, 10 * band)

/-- Mode byte given for a set of common modes: the slowest of the lowest bit (the choice is open). -/
def modeOfBit (k : Nat) : Nat := if k < 4 then k else 64 + 16 * (k - 4) + [0, 0, 1, 2].getD (k - 4) 0
def commonMode (a b : Nat) : Option Nat := ((List.range 8).find? (fun k => bit a k && bit b k)).map modeOfBit

/-- STATUS of a JOIN_REQ. -/
def radioJoinStatus (s : State) (f : RadioRx) : Nat :=
  match entryById s f.source with
  | none => 1
  | some (k, e) =>
    if e.retired then 1
    else if !bit (pfLinks (bodyFor s f.source)) (3 + f.radio) then 2
    else if (childOf s k).isNone && 2048 ≤ s.rad.children.length then 3
    else if (commonMode (u8 f.payload 2) (regNow s f.radio).modes).isNone then 4
    else 0

/-- JOIN_ANSWER payload. -/
def joinAnswer (s : State) (r status slot ofs mode : Nat) : Bytes :=
  [BitVec.ofNat 8 status, BitVec.ofNat 8 slot] ++ toLE 2 ofs ++ [BitVec.ofNat 8 mode, BitVec.ofNat 8 (radioAt s r).hopVersion, 0, 0] ++
    hopMask (regNow s r)

def refuseJoin (f : RadioRx) (status : Nat) (s : State) : State :=
  let s := (sendAnswerFrame f 7 (radioFlags s f.radio false false) (joinAnswer s f.radio status 0 0 0) s).2
  statRad f.radio 11 s

/-- A child is accepted, keeping the place it holds. -/
def acceptJoin (f : RadioRx) (short : Nat) (s : State) : State :=
  let place := match childOf s short with
    | some c => (c.pollSlot, c.pollOfs)
    | none => newPlace s f.radio
  let mode := (commonMode (u8 f.payload 2) (regNow s f.radio).modes).getD 0
  let old := childOf s short
  let c : Child :=
    { short := short, id := f.source, radio := f.radio, hw := some (u16 f.payload 0), pollSlot := place.1, pollOfs := place.2, dataMode := mode, drift := u8 f.payload 3,
      silent := false, hopVersion := (radioAt s f.radio).hopVersion, rssi := f.rssi, cfo := f.cfo, channel := f.channel,
      quality := radioQuality f.rssi f.mode, heard := s.now, queue := (old.map (·.queue)).getD [], offered := none, dlWait := false,
      exchange := none, skew := none }
  let s := onRad (fun r => { r with children := r.children.filter (fun x => x.short != short) ++ [c] }) s
  statRad f.radio 10 (sendAnswerFrame f 7 (radioFlags s f.radio false false) (joinAnswer s f.radio 0 place.1 place.2 mode) s).2

/-- A JOIN_REQ: from 15 to 185 ms into a join slot (R329). -/
def onRadioJoin (f : RadioRx) (s : State) : State :=
  if asnNow s % 5 != 0 || asnNow s % 10 = 0 || f.start < 15 || 185 < f.start then statRad f.radio 6 s
  else
    let st := radioJoinStatus s f
    match st, entryById s f.source with
    | 0, some (k, _) => acceptJoin f k s
    | _, _ => refuseJoin f st s

/-! ### Exchanges (R325, R326, R329) -/

/-- The frame lies in the child's window, or continues an exchange of this slot. -/
def inWindow (s : State) (f : RadioRx) (c : Child) : Bool :=
  c.exchange == some (asnNow s) ||
    (asnNow s % 10 == c.pollSlot && c.pollOfs ≤ f.start && f.start ≤ c.pollOfs + (radioAt s f.radio).set.gMax)

/-- The child's clock offset in ms, truncated toward zero (R360). -/
def radioSkew (f : RadioRx) : Option Int :=
  if f.time = 0 then none else some ((((f.time : Int) - f.stamp) * 1000).tdiv 32768)

/-- What a decoded child frame updates. -/
def noteChild (f : RadioRx) (s : State) (c : Child) : Child :=
  let fresh := c.exchange != some (asnNow s)
  let heard := { c with rssi := f.rssi, cfo := f.cfo, channel := f.channel, quality := radioQuality f.rssi f.mode, heard := s.now, silent := false,
                        exchange := some (asnNow s), skew := if fresh then radioSkew f else c.skew.or (radioSkew f) }
  if bit f.flags 5 && c.offered == some f.linkByte then { heard with queue := heard.queue.drop 1, offered := none } else heard

/-- The module's answer: the oldest downlink DATA frame where it is admitted, else an ACK (R318, R325, R326). -/
def answerChild (f : RadioRx) (c : Child) (dlWait : Bool) (s : State) : State :=
  match c.queue with
  | b :: r =>
    let res := sendAnswerFrame f 4 (radioFlags s f.radio (!r.isEmpty) false) b s
    if res.1 then onChild c.short (fun c => { c with offered := some f.macSeq, dlWait := false }) res.2
    else (sendAnswerFrame f 5 (radioFlags s f.radio true dlWait) [] res.2).2
  | [] => (sendAnswerFrame f 5 (radioFlags s f.radio false dlWait) [] s).2

/-- A DATA frame's payload goes whole to the queue of its radio (R169, R320, R331: ROUTE is POLL_SLOT). -/
def passData (f : RadioRx) (c : Child) (s : State) : State :=
  let m : Meas := { mags := none, rssi := f.rssi, cfo := f.cfo, skew := c.skew }
  toQueue (3 + f.radio)
    { meta16 := metaWord f.payload.length (3 + f.radio) (radioQuality f.rssi f.mode) (stamp s) c.pollSlot f.channel, bytes := f.payload, meas := m }
    (onChild c.short (fun c => { c with skew := none }) s)

/-- A POLL or DATA frame of a child in its window. -/
def exchangeStep (f : RadioRx) (c0 : Child) (s : State) : State :=
  let c := noteChild f s c0
  let s := statRad f.radio (if f.kind = 3 then 3 else 4) (onChild c.short (fun _ => c) s)
  let s := if f.kind = 4 then passData f c s else s
  let wait := if f.kind = 4 then inRange (frameType f.payload) 1 3 else c.dlWait
  answerChild f c wait (onChild c.short (fun c => { c with dlWait := wait }) s)

/-- What the standby of a pair learns from the holder's frames (R335, R399). -/
def onPartnerRadio (f : RadioRx) (s : State) : State :=
  if f.kind = 1 || f.kind = 2 then onPair (fun p => { p with bcnRadio := setAt p.bcnRadio f.radio (some s.now) }) s
  else if f.kind = 7 && u8 f.payload 0 = 0 then
    match entryById s f.source with
    | none => s
    | some (k, _) =>
      let c : Child :=
        { short := k, id := f.source, radio := f.radio, hw := none, pollSlot := u8 f.payload 1, pollOfs := u16 f.payload 2, dataMode := u8 f.payload 4,
          drift := 0, silent := false, hopVersion := u8 f.payload 5, rssi := 0, cfo := 0, channel := f.channel, quality := 0, heard := s.now,
          queue := [], offered := none, dlWait := false, exchange := none, skew := none }
      onRad (fun r => { r with children := r.children.filter (fun x => x.short != k) ++ [c] }) s
  else s

/-- The receiver of a radio is on (R334): in EBB only for beacons, at the assigned slots and offsets, and in the rendezvous slots. -/
def receiverOn (s : State) (f : RadioRx) : Bool :=
  s.pw.st != .ebb || asnNow s % 100 == 5 || f.kind == 1 || f.kind == 2 ||
    s.rad.children.any (fun c => c.radio == f.radio && c.pollSlot == asnNow s % 10 && c.pollOfs ≤ f.start &&
      f.start ≤ c.pollOfs + (radioAt s f.radio).set.gMax + 60)

/-- RADIO_PARTNER_FRAME_RX (R335): the standby of a pair hears the active module. -/
def execRadioPartnerFrameRx (f : RadioRx) (s : State) : Out :=
  .next <|
    if isUp s 13 && radioEnabled s f.radio && f.fcsOk && f.layoutOk && receiverOn s f && f.panId == (radioAt s f.radio).set.panId && isStandby s then onPartnerRadio f s
    else s

/-- RADIO_FRAME_RX. -/
def execRadioFrameRx (f : RadioRx) (s : State) : Out :=
  .next <|
    if !isUp s 13 || !radioEnabled s f.radio || !f.fcsOk || !receiverOn s f then s
    else if !f.layoutOk || f.panId != (radioAt s f.radio).set.panId then statRad f.radio 5 s
    else if f.kind = 1 || f.kind = 2 || f.kind = 5 || f.kind = 7 then (if pairedUp s then onPartnerRadio f s else s)
    else if !maySend s then s
    else if f.kind = 6 then onRadioJoin f s
    else if f.kind = 3 || f.kind = 4 then
      match s.rad.children.find? (fun c => c.id == f.source && c.radio == f.radio) with
      | none => (sendAnswerFrame f 7 (radioFlags s f.radio false false) (joinAnswer s f.radio 5 0 0 0) s).2
      | some c => if inWindow s f c then exchangeStep f c s else statRad f.radio 6 s
    else s

/-- CHILD_SILENT (R332). -/
def execChildSilent (short : Nat) (s : State) : Out :=
  .next <|
    match childOf s short with
    | none => s
    | some c =>
      let w := pfWake (bodyFor s c.id)
      if !isUp s 13 || c.silent || w = 0 then s
      else raise 51 (3 + c.radio) (onChild short (fun c => { c with silent := true }) (passTo (c.heard + (3 * w + 60) * secNs) s))

/-! ### Commands -/

def radioDown (d : Nat) (f : State → State) (s : State) : State := if isUp s 13 then f s else finish d 0x28 0 [] s

/-- RADIO_SET is taken also while RADIO is switched off for want of work (R61). -/
def radioSetDown (d : Nat) (f : State → State) (s : State) : State := if (islOf s 13).phase == .switchedOff then f s else radioDown d f s

def radioSetOf (b : Bytes) : RadioSet :=
  { enable := bit (u8 b 17) 0, profile := u8 b 18, txDbm := i8 b 19, panId := u16 b 20, hopSeed := u16 b 22, hopStep := u16 b 24,
    baseMode := u8 b 26, gMax := u8 b 27, restore := u16 b 28 }

def radioSetChecks (b : Bytes) : List Check :=
  [(u8 b 16 ≤ 1, 16), (inRange (u8 b 18) 1 3, 18), (-10 ≤ i8 b 19 && i8 b 19 ≤ 27, 19), (inRange (u8 b 27) 10 90, 27), (u16 b 28 ≤ 3600, 28)]

/-- What RADIO_SET refuses: status and DETAIL. -/
def radioSetRefusal (s : State) (v : RadioSet) : Option (Nat × Nat) :=
  match regOf s v.profile with
  | none => some (0x2A, 18)
  | some p =>
    if p.maxDbm < v.txDbm then some (0x2B, 0)
    else if Nat.gcd v.hopStep p.hop.length != 1 || 1 < v.baseMode then some (0x2C, 0)
    else none

/-- HOP_VERSION of a radio increments in the option store. -/
def bumpHop (r : Nat) (o : Opt) : Opt := { o with hopVersion := modAt o.hopVersion r (fun v => (v + 1) % 256) }

/-- RADIO_SET. -/
def execRadioSet (d : Nat) (s : State) : Out :=
  .next (hostCmd 0x54 d radioSetChecks (fun x s => radioSetDown d (fun s =>
    let r := u8 x.bytes 16
    let v := radioSetOf x.bytes
    match radioSetRefusal s v with
    | some (st, de) => finish d st de [] s
    | none =>
      let old := s.opt.radio.getD r RadioSet.reset
      let hop := old.profile != v.profile || old.hopSeed != v.hopSeed || old.hopStep != v.hopStep
      let s := saveOpt (fun o => let o := { o with radio := setAt o.radio r v }; if hop then bumpHop r o else o) s
      finishOk d (toLE 1 (s.opt.hopVersion.getD r 0)) s) s) s)

/-- HOP_MASK's channels. -/
def maskHops (b : Bytes) : List Nat := (List.range 256).filter (fun k => bit (u8 b (16 + k / 8)) (k % 8))

def subOf (b : Bytes) (j : Nat) : SubBand :=
  let o := 48 + 8 * j
  { first := u8 b o, last := u8 b (o + 1), maxDbm := i8 b (o + 2), budget := u16 b (o + 4), window := u16 b (o + 6) }

def regFrom (b : Bytes) : RegProfile :=
  { modes := u8 b 1, f0 := u32 b 2, spacing := u16 b 6, chCount := u8 b 8, rdvCh := u8 b 9, maxDbm := i8 b 10, dwellMax := u16 b 12,
    dwellWindow := u16 b 14, hop := maskHops b, subs := ((List.range 4).map (subOf b)).filter (fun x => x.first != 0xFF) }

/-- Checks of a sub-band. -/
def subChecks (b : Bytes) (j : Nat) : List Check :=
  let x := subOf b j
  let o := 48 + 8 * j
  if x.first = 0xFF then []
  else [(x.first < u8 b 8, o), (x.first ≤ x.last && x.last < u8 b 8, o + 1), (-10 ≤ x.maxDbm && x.maxDbm ≤ 27, o + 2),
    (x.budget ≤ 10000, o + 4), (0 < x.window && x.window ≤ airKeep, o + 6)]

def regChecks (b : Bytes) : List Check :=
  [(u8 b 0 == 3, 0), (u8 b 1 != 0, 1), (inRange (u16 b 6) 100 1000, 6), (1 ≤ u8 b 8, 8), (u8 b 9 < u8 b 8, 9),
   (-10 ≤ i8 b 10 && i8 b 10 ≤ 27, 10), (inRange (u16 b 14) 1 3600, 14), (2 ≤ (maskHops b).length && (maskHops b).all (· < u8 b 8), 16)] ++
    (List.range 4).flatMap (subChecks b)

/-- RADIO_PROFILE_SET: a change of a profile that a radio is set to increments its HOP_VERSION. -/
def execRadioProfileSet (d : Nat) (s : State) : Out :=
  .next (hostCmd 0x55 d (fun b => [addrCheck b 24 64]) (fun x s => radioDown d (fun s =>
    match x.input with
    | none => s
    | some b =>
      match (checkFaults (regChecks b)).min? with
      | some o => finish d 0x2A o [] s
      | none =>
        let p := regFrom b
        let users := (List.range 2).filter (fun r => (s.opt.radio.getD r RadioSet.reset).profile == 3 && s.opt.profile3 != some p)
        finishOk d [] (saveOpt (fun o => users.foldl (fun o r => bumpHop r o) { o with profile3 := some p }) s)) s) s)

/-- The child buffer. -/
def childBytes (c : Child) : Bytes :=
  padTo 64 ([BitVec.ofNat 8 c.radio, BitVec.ofNat 8 c.pollSlot] ++ toLE 2 c.pollOfs ++ [BitVec.ofNat 8 c.dataMode, BitVec.ofNat 8 c.drift,
    BitVec.ofNat 8 (b2n c.silent), BitVec.ofNat 8 c.hopVersion] ++ toLE 2 (ofInt 16 c.rssi) ++ toLE 2 (ofInt 16 c.cfo) ++
    [BitVec.ofNat 8 c.channel, BitVec.ofNat 8 (ofInt 8 c.quality)] ++ toLE 2 c.queue.length)

/-- The first silent child at or above a short index. -/
def nextSilent (s : State) (from_ : Nat) : Option Child :=
  (s.rad.children.filter (fun c => c.silent && from_ ≤ c.short)).foldl (fun (b : Option Child) c => match b with
    | none => some c
    | some q => if c.short < q.short then some c else some q) none

/-- RADIO_CHILD_READ. -/
def execRadioChildRead (d : Nat) (s : State) : Out :=
  .next (hostCmd 0x56 d (fun b => refChecks b ++ [(!bit (u8 b 28) 0 || bit (u8 b 27) 7, 28), addrCheck b 32 64]) (fun x s => radioDown d (fun s =>
    let out := fun c : Child => finishOk d (toLE 4 c.short) (putOut d (u64 x.bytes 32) (childBytes c) s)
    if bit (u8 x.bytes 28) 0 then
      match nextSilent s (u24 x.bytes 24 % 2 ^ 20) with
      | some c => out c
      | none => finishOk d (toLE 4 0xFFFFFFFF) s
    else
      match refMeter false s x.bytes with
      | none => finish d 2 16 [] s
      | some (k, _) =>
        match childOf s k with
        | some c => out c
        | none => finish d 0x29 0 [] s) s) s)

/-- RADIO_STATS. -/
def execRadioStats (d : Nat) (s : State) : Out :=
  .next <|
    if isUp s 13 then
      statsCmd 0x57 d 256 (fun s => s.rad.stats.flatten)
        (fun s => cntClear 6 (onRad (fun p => { p with stats := List.replicate 2 (List.replicate 12 0) }) s)) (fun _ => []) s
    else hostCmd 0x57 d statsChecks (fun _ s => finish d 0x28 0 [] s) s

end Sys2Proof.Machine
end

