-- ==== Sys2Proof/Machine/Convert.lean ====
section
/-! DEFINITION. Validation and conversion of one reading (chapters 08 and 09, R186 to R211, R509): pure computations over the profile
copy, the meter state and the elements. -/
namespace Sys2Proof.Machine
open Sys2Proof

/-- An element of a READING (R177). -/
structure Elem where
  kind : Nat
  exp : Int
  value : Int
  deriving DecidableEq, Repr

/-- N elements laid out from offset o (R177, R217). -/
def elemsAt (b : Bytes) (o n : Nat) : List Elem :=
  (List.range n).map (fun i => { kind := u8 b (o + 10 * i), exp := i8 b (o + 10 * i + 1), value := i64 b (o + 10 * i + 2) })

/-- READING plaintext (R177). -/
def rdTime (p : Bytes) : Nat := u48 p 0
def rdStatus (p : Bytes) : Nat := u16 p 6
def rdN (p : Bytes) : Nat := u8 p 8
def rdElems (p : Bytes) : List Elem := elemsAt p 10 (rdN p)

/-- The plaintext breaks R177. -/
def rdMalformed (p : Bytes) : Bool :=
  rdN p < 1 || 8 < rdN p || p.length != 10 + 10 * rdN p || bit (rdStatus p) 7 || u8 p 9 != 0 ||
  (rdElems p).any (fun e => !isKind e.kind || e.exp < -12 || 6 < e.exp)

/-- The elements match the used rules position by position, in KIND and in EXP (R187 step 1). -/
def rdMatches (body : Bytes) (es : List Elem) : Bool :=
  (List.range 8).all (fun i =>
    let r := pfRule body i
    match es[i]? with
    | none => r.kind == 0
    | some e => r.kind == e.kind && r.exp == e.exp)

/-- What validation needs of the meter state: LAST_TIME and LAST_VALUE, none with METER_NO_HISTORY. -/
structure Hist where
  time : Nat
  values : List Int
  deriving DecidableEq, Repr

/-- 3,600 × 32,768. -/
def hourUnits : Int := 117964800

/-- A rollover is recognised for element i; its wrapped increase (R187, MONO). -/
def wrapOf (r : Rule) (v last dt : Int) : Option Int :=
  if v < last ∧ r.digits ≠ 0 then
    let w := v + 10 ^ r.digits - last
    if r.rateMax = 0 then (if 2 * w < 10 ^ r.digits then some w else none)
    else if 0 < dt ∧ w * hourUnits ≤ r.rateMax * dt then some w else none
  else none

/-- The increment of a totaliser (R187): the wrapped increase when a rollover is recognised, else v − v_last. -/
def increment (r : Rule) (v last dt : Int) : Int := (wrapOf r v last dt).getD (v - last)

def lastOf (h : Hist) (i : Nat) : Int := h.values.getD i 0

/-- Increments by element position; 0 for instants, and for all with METER_NO_HISTORY (R196, R197). -/
def increments (body : Bytes) (es : List Elem) (h : Option Hist) (dt : Int) : List Int :=
  es.zipIdx.map (fun p =>
    match h with
    | none => 0
    | some hs => if isTotaliser p.1.kind then increment (pfRule body p.2) p.1.value (lastOf hs p.2) dt else 0)

def firstElem (es : List Elem) (kind : Nat) : Option (Nat × Elem) :=
  (es.zipIdx.find? (fun p => p.1.kind == kind)).map (fun p => (p.2, p.1))

/-- PT of R509: it fails. -/
def ptFails (body : Bytes) (es : List Elem) : Bool :=
  match pfPtMode body, firstElem es 0x10, firstElem es 0x11 with
  | 0, _, _ => false
  | m, some (_, p), some (_, t) =>
    let pp := fDecode p.value p.exp
    let tc := fDecode t.value t.exp
    if fLt pp (fOfNat 50000) || fLt (fOfNat 10000000) pp || fLt tc fZero || fLt (fOfNat 600) tc then true
    else
      let tk := fAdd tc (fDec 27315 (-2))
      let mg := fDiv (fOfNat (pfPtMargin body)) (fOfNat 10)
      let ts := ifTs (fDiv pp (fOfNat 1000000))
      if m = 1 then fLt tk (fSub ts mg) else if m = 2 then fLt (fAdd ts mg) tk else false
  | _, _, _ => false

/-- Element i fails RANGE, MONO, RATE (R187). -/
def failRange (r : Rule) (e : Elem) : Bool := e.value < r.min || r.max < e.value
def failMono (r : Rule) (e : Elem) (last dt : Int) : Bool :=
  isTotaliser e.kind && e.value < last && (wrapOf r e.value last dt).isNone
def failRate (r : Rule) (e : Elem) (last dt : Int) : Bool :=
  r.rateMax != 0 && 0 < dt &&
    (if isTotaliser e.kind then increment r e.value last dt * hourUnits > r.rateMax * dt
     else ((e.value - last).natAbs : Int) * hourUnits > r.rateMax * dt)

/-- VAL_FLAGS (R187). `now`: module time in network units, none while the clock is invalid. -/
def valFlags (body : Bytes) (plain : Bytes) (h : Option Hist) (now : Option Int) : Nat :=
  let es := rdElems plain
  let t : Int := rdTime plain
  let each := fun (f : Rule → Elem → Nat → Bool) => es.zipIdx.any (fun p => f (pfRule body p.2) p.1 p.2)
  let range := each (fun r e _ => failRange r e)
  let status := (BitVec.ofNat 16 (rdStatus plain) &&& BitVec.ofNat 16 (pfStatusMask body)) != 0
  let future := match now with
    | none => false
    | some n => t > n + 32768 * (pfFutureLimit body : Int)
  let base := b2n range + 8 * b2n (ptFails body es) + 64 * b2n status + 128 * b2n future
  match h with
  | none => base
  | some hs =>
    let dt := t - hs.time
    base + 2 * b2n (each (fun r e i => failMono r e (lastOf hs i) dt)) + 4 * b2n (each (fun r e i => failRate r e (lastOf hs i) dt)) +
      16 * b2n (dt > 32768 * (pfGapLimit body : Int)) + 32 * b2n (dt ≤ 0)

/-- The estimate of a totaliser at a boundary b between t_last and t, all in units of 1/65,536 s (R190). -/
def estimate (digits : Nat) (vLast dv b tLast dt : Int) : Int :=
  let e := vLast + ratHalfEven (dv * (b - tLast)) dt.toNat
  if digits = 0 then e else e % 10 ^ digits

/-- The estimates of the totalisers of a reading at a boundary. -/
def estimatesAt (body : Bytes) (es : List Elem) (incs : List Int) (h : Hist) (b tLast dt : Int) : List Int :=
  (es.zipIdx.filter (fun p => isTotaliser p.1.kind)).map (fun p =>
    estimate (pfRule body p.2).digits (lastOf h p.2) (incs.getD p.2 0) b tLast dt)

/-- DUPLICATE of R187 step 2. -/
def isDuplicate (plain : Bytes) (h : Option Hist) : Bool :=
  match h with
  | none => false
  | some hs => rdTime plain == hs.time && (rdElems plain).map (·.value) == hs.values

/-- The outcome of the checks (R188): 0 posted, 1 voided, 2 quarantined. -/
def verdict (body : Bytes) (flags : Nat) : Nat :=
  let acts := ((List.range 8).filter (bit flags)).map (pfAction body)
  if acts.contains 2 then 2 else if acts.contains 1 then 1 else 0

/-- What a conversion gives (R203, R213, R217). `bad`: it cannot be computed (R211); `big`: z reaches 2^63 (R203). -/
structure Conversion where
  bad : Bool
  big : Bool
  region : Nat
  ns : List Int
  residuals : List F64
  v : F64
  h : F64
  zf : F64
  deriving DecidableEq, Repr

/-- B(T) of a virial table (R210); none outside it. -/
def virialB (pts : List (F64 × F64)) (t : F64) : Option F64 :=
  let segs := pts.zip (pts.drop 1)
  match segs.reverse.find? (fun s => fLe s.1.1 t && fLe t s.2.1) with
  | none => none
  | some ((t0, b0), (t1, b1)) => some (fAdd b0 (fMul (fSub b1 b0) (fDiv (fSub t t0) (fSub t1 t0))))

def gasR : F64 := fDec 831446261815324 (-14)
def fMega : F64 := fOfNat 1000000

/-- zf of R210 at (p, T). -/
def gasZ (b p t : F64) : F64 := fAdd fOne (fDiv (fMul b (fMul p fMega)) (fMul gasR t))

/-- A measured value: the first element of the kind, decoded, or the mean of last and present under PT_AVG (R207). -/
def measured (body : Bytes) (es : List Elem) (h : Option Hist) (kind : Nat) : Option F64 :=
  match firstElem es kind with
  | none => none
  | some (i, e) =>
    let cur := fDecode e.value e.exp
    match h with
    | some hs => if pfPtAvg body then some (fDiv (fAdd (fDecode (lastOf hs i) (pfRule body i).exp) cur) (fOfNat 2)) else some cur
    | none => some cur

def toMpa (x : F64) : F64 := fDiv x fMega
def toKelvin (x : F64) : F64 := fAdd x (fDec 27315 (-2))

/-- The state (p, T) that STATE_SRC gives (R207), within the range of R211. -/
def stateOf (body : Bytes) (es : List Elem) (h : Option Hist) : Option (F64 × F64) :=
  let mp := (measured body es h 0x10).map toMpa
  let mt := (measured body es h 0x11).map toKelvin
  let st : Option (F64 × F64) :=
    match pfStateSrc body, mp, mt with
    | 0, some p, some t => some (p, t)
    | 1, some p, _ => if badP p then none else some (p, ifTs p)
    | 2, _, some t => if badT t then none else some (ifPs t, t)
    | 3, _, some t => some (pfFixedP body, t)
    | 4, _, _ => some (pfFixedP body, pfFixedT body)
    | _, _, _ => none
  match st with
  | some (p, t) => if badP p || badT t then none else some (p, t)
  | none => none

/-- v and h of METHOD 1 or 2 at (p, T), and the region evaluated: 1, 2, or 4 at saturation (R207). -/
def phaseEval (m : Nat) (p t : F64) : (F64 × F64) × Nat :=
  let ts := ifTs p
  if m = 1 then (if fLt ts t then (ifRegion2 p t, 2) else (ifRegion2 p ts, 4))
  else (if fLt t ts then (ifRegion1 p t, 1) else (ifRegion1 p ts, 4))

/-- The sources of R198 for one increment: mass, energy, line volume, reference volume; with region, v, h and zf. -/
structure Sources where
  mass : F64
  energy : F64
  volume : F64
  refVolume : F64
  region : Nat
  v : F64
  h : F64
  zf : F64
  deriving DecidableEq, Repr

/-- METHOD 1 and 2 (R206 to R208). -/
def sourcesThermo (body : Bytes) (es : List Elem) (h : Option Hist) (isMass : Bool) (x p t : F64) : Option Sources :=
  let m := pfMethod body
  let (vh, reg) := phaseEval m p t
  let side : Option (F64 × F64 × Nat) :=
    if m = 2 ∧ pfBasis body = 2 then
      match (measured body es h 0x12).map toKelvin with
      | none => none
      | some tr =>
        if badT tr then none
        else
          let (vr, rr) := phaseEval 2 p tr
          some (if pfMassSide body then vr.1 else vh.1, vr.2, if reg = 4 ∨ rr = 4 then 4 else reg)
    else if pfBasis body = 1 then some (vh.1, (ifRegion1 (pfRefP body) (pfRefT body)).2, reg)
    else some (vh.1, fZero, reg)
  match side with
  | none => none
  | some (v, hb, r) =>
    let mass := if isMass then x else fDiv x v
    some { mass := mass, energy := fMul (fMul mass (fSub vh.2 hb)) (fOfNat 1000), volume := if isMass then fMul x v else x,
           refVolume := fZero, region := r, v := v, h := vh.2, zf := fZero }

/-- A quotient of values that are all finite; else not a number, which quarantines the reading (R211). -/
def fRatio (a b : F64) : F64 := if fFinite a && fFinite b then fDiv a b else fNan

/-- METHOD 3 (R210). z_n is needed for the reference volume alone. -/
def sourcesGas (body : Bytes) (pts : List (F64 × F64)) (isMass : Bool) (x p t : F64) : Option Sources :=
  match virialB pts t with
  | none => none
  | some bf =>
    let zf := gasZ bf p t
    if !fFinite bf || !fFinite zf then none
    else
      let mm := pfMolar body
      let zn := (virialB pts (pfRefT body)).map (fun b => gasZ b (pfRefP body) (pfRefT body))
      let line := fMul (fMul p fMega) mm
      let gas := fMul (fMul zf gasR) t
      some
        { mass := if isMass then x else fRatio (fMul x line) gas
          energy := fZero
          volume := if isMass then fRatio (fMul x gas) line else x
          refVolume := match zn with
            | none => fNan
            | some z =>
              if isMass then fRatio (fMul x (fMul (fMul z gasR) (pfRefT body))) (fMul (fMul (pfRefP body) fMega) mm)
              else if fFinite z then fMul (fMul (fMul x (fDiv p (pfRefP body))) (fDiv (pfRefT body) t)) (fDiv z zf)
              else fNan
          region := 0, v := fZero, h := fZero, zf := zf }

/-- The sources for the converted totaliser (R196); none: the conversion cannot be computed (R211). -/
def sourcesOf (body : Bytes) (es : List Elem) (incs : List Int) (h : Option Hist) (pts : List (F64 × F64)) : Option Sources :=
  let tot := match firstElem es 1 with
    | some p => some (p, false)
    | none => (firstElem es 2).map (fun p => (p, true))
  match tot, stateOf body es h with
  | some ((i, e), isMass), some (p, t) =>
    let x := fDecode (incs.getD i 0) e.exp
    if pfMethod body = 3 then sourcesGas body pts isMass x p t else sourcesThermo body es h isMass x p t
  | _, _ => none

/-- z of R203 for a value y and exponent e, with the residual. -/
def quantum (y : F64) (e : Int) (res : F64) : F64 :=
  fAdd (if e ≤ 0 then fMul y (fDec 1 (-e)) else fDiv y (fDec 1 e)) res

/-- One quantity: unused, quantised, not finite, or too large (R198, R203). -/
inductive Quantised where
  | unused
  | value (n : Int) (res : F64)
  | notFinite
  | tooLarge
  deriving DecidableEq, Repr

def quantise (y : F64) (e : Int) (res : F64) : Quantised :=
  let z := quantum y e res
  if !fFinite z then .notFinite
  else
    let n := fToInt z
    if 2 ^ 63 * (fDen z : Int) ≤ ((fNum z).natAbs : Int) then .tooLarge else .value n (fSub z (fOfInt n))

def quantityOf (body : Bytes) (es : List Elem) (incs : List Int) (src : Option Sources) (res : List F64) (q : Nat) : Quantised :=
  let r := res.getD q fZero
  let fin := fun y : F64 => quantise y (pfE body q) r
  match pfOut body q, src with
  | 0, _ => .unused
  | 5, _ =>
    let pos := pfOutPos body q
    fin (fDecode (incs.getD pos 0) ((es[pos]?).map (·.exp) |>.getD 0))
  | 1, some s => fin s.mass
  | 2, some s => fin s.energy
  | 3, some s => fin s.volume
  | 4, some s => fin s.refVolume
  | _, _ => .notFinite

/-- The conversion of a reading (R196 to R211). With METER_NO_HISTORY it posts zero increments (R197). -/
def convert (body : Bytes) (es : List Elem) (incs : List Int) (h : Option Hist) (pts : List (F64 × F64)) (res : List F64) :
    Conversion :=
  let nq := min 4 (pfQuantities body)
  let zero : Conversion :=
    { bad := false, big := false, region := 0, ns := List.replicate nq 0, residuals := res, v := fZero, h := fZero, zf := fZero }
  match h with
  | none => zero
  | some _ =>
    let needs := (pfOuts body).any (fun s => 1 ≤ s ∧ s ≤ 4)
    let src := if needs then sourcesOf body es incs h pts else none
    if needs && src.isNone then { zero with bad := true }
    else
      let qs := (List.range nq).map (quantityOf body es incs src res)
      let info := src.getD { mass := 0, energy := 0, volume := 0, refVolume := 0, region := 0, v := 0, h := 0, zf := 0 }
      { bad := qs.contains .notFinite
        big := !qs.contains .notFinite && qs.contains .tooLarge
        region := info.region
        ns := qs.map (fun q => match q with | .value n _ => n | _ => 0)
        residuals := (List.range res.length).map (fun q =>
          match qs[q]? with | some (Quantised.value _ r) => r | _ => res.getD q fZero)
        v := info.v, h := info.h, zf := info.zf }

end Sys2Proof.Machine
end

