-- ==== Sys2Proof/Machine/Wired.lean ====
section
/-! DEFINITION. Chapter 15: the polling engine of the RS-485 ports and the commands 0x58 to 0x5B. -/
namespace Sys2Proof.Machine
open Sys2Proof


/-- Module time in whole seconds from the epoch. -/
def netSec (s : State) : Nat := netTime s / 32768

/-- The last due instant of an entry at or before a second (R338). -/
def dueAt (p : PollEntry) (t : Nat) : Option Nat :=
  let period := u32 p.bytes 4
  let off := u32 p.bytes 8
  if t < off || period = 0 then none else some ((t - off) / period * period + off)

/-! ### The frame (R343, R344) -/

/-- A raw value extended from its TYPE. -/
def extendRaw (type raw : Nat) : Int :=
  match type % 8 with
  | 0 => (raw % 2 ^ 16 : Nat)
  | 1 => toInt 16 raw
  | 2 => (raw % 2 ^ 32 : Nat)
  | 3 => toInt 32 raw
  | 4 => toInt 64 raw
  | _ => toInt 64 raw

/-! ### Requests (R340, R341) -/

/-- Registers that a TYPE takes. -/
def typeWords (type : Nat) : Nat := [1, 1, 2, 2, 4, 4].getD (type % 8) 1
/-- A register of a function, as one number in order of function and address. -/
def regKey (func reg : Nat) : Nat := 65536 * func + reg % 65536
/-- The registers of element i. -/
def elementRegs (b : Bytes) (i : Nat) : List Nat :=
  let o := 16 + 16 * i
  (List.range (typeWords (u8 b (o + 2)))).map (fun j => regKey (u8 b (o + 3)) (u16 b (o + 4) + j))

/-- Sorted insertion without repeats. -/
def insertKey (k : Nat) : List Nat → List Nat
  | [] => [k]
  | x :: r => if k < x then k :: x :: r else if k = x then x :: r else x :: insertKey k r

/-- One more register, in order, joins the run before it or starts one; a run holds at most 125. -/
def addRun (runs : List (Nat × Nat)) (k : Nat) : List (Nat × Nat) :=
  match runs with
  | (a, n) :: r => if a + n = k && k % 65536 != 0 && n < 125 then (a, n + 1) :: r else (k, 1) :: runs
  | [] => [(k, 1)]

/-- The requests of an entry: Modbus reads each maximal run of contiguous registers of one function, in order of function and address (the
order is the model's, log 106); COSEM associates, reads attributes 2 and 3 of each object and disconnects. -/
def requestsOf (b : Bytes) : List WiredReq :=
  let els := List.range (u8 b 3)
  if u8 b 2 = 0 then
    let keys := (els.flatMap (elementRegs b)).foldl (fun l k => insertKey k l) []
    ((keys.foldl addRun []).reverse).map (fun r => .registers (r.1 / 65536) (r.1 % 65536) r.2)
  else [.snrm, .aarq] ++ els.flatMap (fun i => [.get i 2, .get i 3]) ++ [.disc]

/-- What the answer to a request gives: its registers, or the value of its object. -/
def wordsOf (req : WiredReq) (raw : List Nat) : List (Nat × Nat) :=
  match req with
  | .registers func reg count => (List.range count).map (fun k => (regKey func (reg + k), raw.getD k 0 % 65536))
  | .get i 2 => [(i, raw.getD 0 0)]
  | _ => []

/-- Raw value of element i: the high word first, unless TYPE bit 3 is set (R340). -/
def rawOf (b : Bytes) (words : List (Nat × Nat)) (i : Nat) : Nat :=
  let word := fun k => ((words.find? (fun w => w.1 == k)).map (·.2)).getD 0
  if u8 b 2 = 0 then
    let ws := (elementRegs b i).map word
    (if bit (u8 b (16 + 16 * i + 2)) 3 then ws.reverse else ws).foldl (fun v w => 65536 * v + w) 0
  else word i

/-- A scaler that differs from the EXP of its element (R341). -/
def scalerDiffers (b : Bytes) (req : WiredReq) (raw : List Nat) : Bool :=
  match req with
  | .get i 3 => toInt 8 (raw.getD 0 0) != i8 b (16 + 16 * i + 1)
  | _ => false

/-- The request on the bus leaves; HDLC polls always use 8N1 (R337). -/
def sendRequest (port : Nat) (p : PollEntry) (t : WiredTx) (s : State) : State :=
  match t.todo with
  | q :: _ =>
    let v := wiredSetOf s port
    emit (.wired port t.address v.rate (if u8 p.bytes 2 = 1 then 0 else v.framing) q) (setTx port (some t) s)
  | [] => setTx port (some t) s

/-- READING plaintext from the values read, in map order. -/
def wiredPlain (s : State) (p : PollEntry) (raw : List Nat) : Bytes :=
  let n := u8 p.bytes 3
  toLE 6 (netTime s) ++ [0, 0, BitVec.ofNat 8 n, 0] ++
    (List.range n).flatMap (fun i =>
      let o := 16 + 16 * i
      slice p.bytes o 2 ++ toLE 8 (ofInt 64 (extendRaw (u8 p.bytes (o + 2)) (raw.getD i 0))))

/-- The counter of the next frame: 65,536 is added first after a start. -/
def nextCounter (p : PollEntry) : Nat := min ctrMax (min ctrMax (p.counter + if p.bump then 65536 else 0) + 1)

/-- A frame of the engine enters queue 5 or 6. -/
def presentFrame (port address : Nat) (frame : Bytes) (s : State) : State :=
  toQueue (5 + port) { meta16 := metaWord frame.length (5 + port) 0x7F (stamp s) address 0, bytes := frame, meas := Meas.none } s

/-- A read with result 0: sealed under the meter's key, kept until it is answered. -/
def sealPoll (port address : Nat) (p : PollEntry) (raw : List Nat) (s : State) : State :=
  match currentKey s p.short p.id with
  | none => s
  | some k =>
    let c := nextCounter p
    let plain := wiredPlain s p raw
    let f := sealFrame k (frameHeader 1 false p.id c plain.length) plain
    presentFrame port address f (onPoll (pollKey port address) (fun p => { p with counter := c, bump := false, held := some f }) (useKey p.short p.id s))

/-! ### Transactions (R339, R342) -/

/-- A poll that is due starts, where nothing runs on the port. True: a transaction runs now. -/
def beginPoll (port address : Nat) (s : State) : Bool × State :=
  match pollAt s port address with
  | none => (false, s)
  | some p =>
    match p.held with
    | some f => (false, presentFrame port address f s)
    | none =>
      let s := statWir port 0 s
      if (currentKey s p.short p.id).isNone then (false, noteResult port address 6 0 s)
      else
        (true, sendRequest port p { address := address, todo := requestsOf p.bytes, words := [], tries := 0, change := none, waiting := [] } s)

/-- The next of the polls that wait, in due order, lower address first; one whose next due instant has come is late. -/
def firstWaiting (l : List (Nat × Nat)) : Option (Nat × Nat) :=
  l.foldl (fun (b : Option (Nat × Nat)) x => match b with
    | none => some x
    | some y => if x.2 < y.2 || (x.2 == y.2 && x.1 < y.1) then some x else some y) none

def serveWaitingF : Nat → Nat → List (Nat × Nat) → State → State
  | 0, _, _, s => s
  | f + 1, port, l, s =>
    match firstWaiting l with
    | none => s
    | some x =>
      let rest := l.filter (· != x)
      let late := ((pollAt s port x.1).bind (fun p => dueAt p (netSec s))).any (fun t => x.2 < t)
      if late then serveWaitingF f port rest (statWir port 8 s)
      else
        match beginPoll port x.1 s with
        | (true, s) => onWir (fun w => { w with tx := modAt w.tx port (fun t => t.map (fun t => { t with waiting := rest })) }) s
        | (false, s) => serveWaitingF f port rest s

/-- The transaction ends. -/
def endTx (port result exc : Nat) (s : State) : State :=
  match txOf s port with
  | none => s
  | some t =>
    let s := setTx port none (noteResult port t.address result exc s)
    let s := takeChange port t s
    serveWaitingF (t.waiting.length + 1) port t.waiting s

/-- A request that failed is sent again, up to RETRIES times; then the poll has failed. -/
def retryTx (port result : Nat) (s : State) : State :=
  match txOf s port with
  | none => s
  | some t =>
    match pollAt s port t.address with
    | none => endTx port result 0 s
    | some p =>
      if t.tries < (wiredSetOf s port).retries then sendRequest port p { t with tries := t.tries + 1 } s
      else endTx port result 0 s

def portOn (s : State) (port : Nat) : Bool := isUp s 4 && (wiredSetOf s port).enable

/-- WIRED_POLL_DUE (R339). A port whose driver is gated does not poll (R336). -/
def execWiredPollDue (port address : Nat) (s : State) : Out :=
  .next <|
    if !portOn s port || !maySend s then s
    else
      match pollAt s port address with
      | none => s
      | some p =>
        match dueAt p (netSec s) with
        | none => s
        | some due =>
          if p.suspended || p.lastDue == some due then s
          else
            let s := onPoll (pollKey port address) (fun p => { p with lastDue := some due }) s
            match txOf s port with
            | none => (beginPoll port address s).2
            | some t =>
              let s := if t.waiting.any (fun x => x.1 == address) then statWir port 8 s else s
              setTx port (some { t with waiting := t.waiting.filter (fun x => x.1 != address) ++ [(address, due)] }) s

/-- A request is answered: the next one leaves, or the poll has its values (R340, R341). -/
def answerRequest (port : Nat) (t : WiredTx) (p : PollEntry) (raw : List Nat) (s : State) : State :=
  match t.todo with
  | [] => endTx port 0 0 s
  | q :: rest =>
    if scalerDiffers p.bytes q raw then endTx port 5 0 s
    else
      let words := t.words ++ wordsOf q raw
      if rest.isEmpty then endTx port 0 0 (sealPoll port t.address p ((List.range (u8 p.bytes 3)).map (rawOf p.bytes words)) s)
      else sendRequest port p { t with todo := rest, words := words, tries := 0 } s

/-- WIRED_RESPONSE (R340 to R343). -/
def execWiredResponse (port : Nat) (r : WiredRx) (s : State) : Out :=
  .next <|
    match txOf s port with
    | none => s
    | some t =>
      if !isUp s 4 then s
      else if !maySend s then endTx port 7 0 s
      else
        match r with
        | .values raw =>
          (match pollAt s port t.address with
           | none => endTx port 0 0 s
           | some p => answerRequest port t p raw s)
        | .modbusException c => endTx port 3 c s
        | .refused c => endTx port 4 c s
        | .crcError => retryTx port 2 s

/-- WIRED_RESP_TIMEOUT (R342). -/
def execWiredRespTimeout (port : Nat) (s : State) : Out :=
  .next (if !isUp s 4 || (txOf s port).isNone then s else if !maySend s then endTx port 7 0 s else retryTx port 1 s)

/-! ### Commands -/

def wiredDown (d : Nat) (f : State → State) (s : State) : State := if isUp s 4 then f s else finish d 0x30 0 [] s

def wiredFrom (b : Bytes) : WiredSet :=
  { enable := bit (u8 b 17) 0, term := bit (u8 b 17) 1, rate := u8 b 18 % 16, framing := u8 b 18 / 16 % 4, respTmo := u16 b 20,
    retries := u8 b 22, silentAfter := u8 b 23 }

/-- WIRED_SET (R336, R337). TERM is latched in HOLM (R54). -/
def execWiredSet (d : Nat) (s : State) : Out :=
  .next (hostCmd 0x58 d (fun b => [(u8 b 16 ≤ 1, 16), (u8 b 18 % 16 ≤ 7, 18), (inRange (u16 b 20) 10 2000, 20), (u8 b 22 ≤ 3, 22),
      (inRange (u8 b 23) 1 15, 23)]) (fun x s => wiredDown d (fun s =>
    let p := u8 x.bytes 16
    let v := wiredFrom x.bytes
    finishOk d [] (saveOpt (fun o => { o with wired := setAt o.wired p v })
      (onWir (fun w => { w with set := setAt w.set p v, term := setAt w.term p v.term }) s))) s) s)

/-- Checks of an element map. -/
def mapChecks (b : Bytes) (i : Nat) : List Check :=
  let o := 16 + 16 * i
  let cosem := u8 b 2 == 1
  [(isKind (u8 b o), o), (-12 ≤ i8 b (o + 1) && i8 b (o + 1) ≤ 6, o + 1), (u8 b (o + 2) % 8 ≤ 5 && u8 b (o + 2) < 16, o + 2),
   (if cosem then u8 b (o + 3) == 2 else u8 b (o + 3) == 3 || u8 b (o + 3) == 4, o + 3),
   (!cosem || u16 b (o + 4) == 1 || u16 b (o + 4) == 3, o + 4), (cosem || allZero (slice b (o + 6) 6), o + 6)]
def entryChecks (b : Bytes) : List Check :=
  ([(decide (u8 b 0 ≤ 1), 0), (inRange (u8 b 1) 1 247, 1), (decide (u8 b 2 ≤ 1), 2), (inRange (u8 b 3) 1 8, 3),
    (inRange (u32 b 4) 1 86400, 4), (decide (u32 b 8 < u32 b 4), 8)] : List Check) ++ (List.range (min 8 (u8 b 3))).flatMap (mapChecks b)

/-- The entry of a meter, on either port. -/
def pollOfMeter (s : State) (short : Nat) : Option (Nat × PollEntry) := s.db.polls.find? (fun p => p.2.short == short)

/-- A change of an entry, in the option store at once, and in force at once or when its transaction ends (15, commands). -/
def putPoll (k : Nat) (v : Option PollEntry) (s : State) : State :=
  let polls := Tab.put s.db.polls k v
  let now := fun s => onDb (fun d => { d with polls := polls }) s
  saveOpt (fun o => { o with polls := polls }) <|
    match txOf s (k / 256) with
    | some t => if t.address = k % 256 then setTx (k / 256) (some { t with change := some v }) s else now s
    | none => now s

/-- A loaded entry: a meter that holds one keeps its counter and the frame it holds (R344). -/
def pollFrom (s : State) (b : Bytes) (short : Nat) (e : MEntry) : PollEntry :=
  match pollOfMeter s short with
  | some (_, p) => { p with bytes := b, lastDue := none }
  | none =>
    { bytes := b, short := short, id := e.id, counter := if e.homeSelf then (mstateOf s short).lastCounter else 0, bump := false, held := none,
      lastResult := 0, lastExc := 0, failed := 0, silent := false, suspended := false, lastDue := none }

/-- The load of an entry (R338). -/
def loadPoll (d short : Nat) (e : MEntry) (b : Bytes) (s : State) : State :=
  let port := u8 b 0
  let k := pollKey port (u8 b 1)
  let others := s.db.polls.filter (fun p => p.1 / 256 == port && p.2.short != short)
  if !(wiredSetOf s port).enable then finish d 0x30 0 [] s
  else if 247 ≤ others.length then finish d 0x31 0 [] s
  else if others.any (fun p => p.1 == k) then finish d 0x32 0 [] s
  else
    let v := pollFrom s b short e
    let s := match pollOfMeter s short with
      | some (old, _) => if old = k then s else putPoll old none s
      | none => s
    finishOk d [] (putPoll k (some v) s)

/-- WIRED_POLL_SET. -/
def execWiredPollSet (d : Nat) (s : State) : Out :=
  .next (meterCmd 0x59 d false otherClass (fun b => if bit (u8 b 28) 0 then [] else [addrCheck b 32 16]) (fun x k e s => wiredDown d (fun s =>
    if bit (u8 x.bytes 28) 0 then
      match pollOfMeter s k with
      | some (old, _) => finishOk d [] (putPoll old none s)
      | none => finish d 2 16 [] s
    else
      match x.input with
      | none => s
      | some b =>
        match (checkFaults (entryChecks b)).min? with
        | some o => finish d 0x33 o [] s
        | none => loadPoll d k e b s) s) s)

/-- WIRED_POLL_READ. -/
def execWiredPollRead (d : Nat) (s : State) : Out :=
  .next (meterCmd 0x5A d false otherClass (fun b => [addrCheck b 32 16]) (fun x k _ s => wiredDown d (fun s =>
    match pollOfMeter s k with
    | none => finish d 2 16 [] s
    | some (_, p) =>
      finishOk d (toLE 1 p.lastResult ++ toLE 1 p.lastExc)
        (putOut d (u64 x.bytes 32) (padTo 160 (padTo 144 p.bytes ++ toLE 4 p.counter ++ toLE 1 p.failed)) s)) s) s)

/-- WIRED_STATS. -/
def execWiredStats (d : Nat) (s : State) : Out :=
  .next <|
    if isUp s 4 then
      statsCmd 0x5B d 128 (fun s => s.wir.stats.flatten)
        (fun s => cntClear 7 (onWir (fun w => { w with stats := List.replicate 2 (List.replicate 9 0) }) s)) (fun _ => []) s
    else hostCmd 0x5B d statsChecks (fun _ s => finish d 0x30 0 [] s) s

end Sys2Proof.Machine
end

