-- ==== Sys2Proof/Machine/Images.lean ====
section
/-! DEFINITION. Images (chapter 21): header checks, transfer, activation, trial, fallback and confirmation, what a configuration image
does, staging to other members, and the rows IMAGE_BEGIN to STAGE_FREE but for the campaigns. -/
namespace Sys2Proof.Machine
open Sys2Proof

/-! ### Settings -/

/-- The settings of the option store come into force. The power-line and radio values follow at their next period and cycle. -/
def loadOpt (s : State) : State :=
  let o := s.opt
  let s := onSch (fun c => { c with nextSet := some o.sched }) s
  let s := onIk (fun i => { i with set := o.intake }) s
  let s := onLg (fun l => { l with nextMap := some o.tariffMap, ovr := o.ovr }) s
  let s := onWir (fun w => { w with set := o.wired }) s
  let s := onTm (fun t => { t with zone := o.zone, pulses := o.pulses }) (applyTimeCfg o.time s)
  let s := onArch (fun a => { a with set := o.arch }) s
  let s := onFl (fun f => { f with hostMiB := o.hostMiB }) s
  onKeys (fun k => { k with live := some (o.tamper.getD TamperCfg.reset) }) s

/-! ### Types and slots (R457) -/

def onType (t : Nat) (f : ImgType → ImgType) (s : State) : State := onImg (fun i => { i with types := modAt i.types (t - 1) f }) s
def typeOf (s : State) (t : Nat) : ImgType := s.img.types.getD (t - 1) ImgType.reset
def slotOf (t : ImgType) (n : Nat) : Option ImgSlot := if n = 0 then t.slotA else t.slotB
def putImage (n : Nat) (v : Option ImgSlot) (t : ImgType) : ImgType := if n = 0 then { t with slotA := v } else { t with slotB := v }
def MiB : Nat := 1048576

/-- Largest body. -/
def bodyMax (t : Nat) : Nat :=
  [0, 8 * MiB, 32 * MiB, 4 * MiB, 4 * MiB, 16 * MiB, MiB, 8372224, 12582912, 262144].getD t 0
/-- Signed under the owner's authority. -/
def byAuthority (t : Nat) : Bool := t == 6 || 8 ≤ t
/-- The island of a type. -/
def islandOf (t : Nat) : Nat := [0, 1, 9, 12, 13, 6].getD t 0

/-- VERSION and TYPE_INFO of the image in a slot; a slot never written holds the factory's. -/
def slotVersion (t : Nat) (x : Option ImgSlot) : Nat := (x.map (fun i => u32 i.header 20)).getD (Config.factoryImage t).1
def slotInfo (t : Nat) (x : Option ImgSlot) : Nat := (x.map (fun i => u16 i.header 36)).getD (Config.factoryImage t).2

/-- The slot that is neither running nor confirmed. A recovery image always goes to block 2 first (R458). -/
def inactiveSlot (s : State) (t : Nat) : Option Nat :=
  let x := typeOf s t
  if t = 7 then some 0 else if x.confirmed != x.running then none else some (1 - x.confirmed)

/-- CONV_VERSION in force: that of the island in service (R215). -/
def convNow (s : State) : Nat := if isUp s 6 && s.cv.okA then s.cv.verA else s.cv.verB

/-! ### The header (R459, R460) -/

/-- MAGIC, TYPE and every reserved byte. -/
def headerFormat (h : Bytes) : Bool :=
  u32 h 0 == 0x494D4731 && inRange (imgType h) 1 9 && u8 h 5 < 2 && (bit (u8 h 5) 0 || allZero (slice h 8 12)) && u32 h 20 != 0 &&
    allZero (slice h 25 3) && (imgType h == 2 || imgType h == 5 || u16 h 36 == 0) && allZero (slice h 38 2) && allZero (slice h 88 328)

/-- The signature verifies under the type's key. -/
def headerSigned (s : State) (h : Bytes) : Bool :=
  match (if byAuthority (imgType h) then s.opt.authority else some s.keys.imageKey) with
  | none => false
  | some k => ecdsaVerify k (h.take 416) (beNat (slice h 416 48)) (beNat (slice h 464 48))

/-- The first check that fails (R460); 0: none. -/
def headerStatus (s : State) (h : Bytes) : Nat :=
  let t := imgType h
  if !headerFormat h then 0x20
  else if !inRange (imgLength h) 1 (bodyMax t) then 0x26
  else if t ≤ 7 && u16 h 6 != 0x6144 then 0x21
  else if bit (u8 h 5) 0 && slice h 8 12 != unitBytes s then 0x22
  else if byAuthority t && s.keys.st != 1 then 0x30
  else if !headerSigned s h then 0x23
  else if t ≤ 7 && u8 h 24 < s.img.floors.getD (t - 1) 0 then 0x24
  else if s.keys.c < u32 h 28 then 0x25
  else if t = 5 && (slotInfo 2 (slotOf (typeOf s 2) (typeOf s 2).confirmed) < u16 h 36 || u16 h 36 < convNow s) then 0x2B
  else 0

/-! ### Transfer (R462) -/

/-- Where a transfer goes: a staging entry, or a type. -/
abbrev Place := Bool × Nat

def placeSlot (s : State) (p : Place) : Option ImgSlot :=
  if p.1 then stagedOf s p.2 else (inactiveSlot s p.2).bind (slotOf (typeOf s p.2))
def placeRx (s : State) (p : Place) : Bool := if p.1 then s.img.stagingRx.contains p.2 else (typeOf s p.2).receiving
def setPlace (p : Place) (v : Option ImgSlot) (rx : Bool) (s : State) : State :=
  if p.1 then
    onImg (fun i =>
      { i with staging := Tab.put i.staging p.2 v
               stagingRx := if rx then p.2 :: i.stagingRx.filter (· != p.2) else i.stagingRx.filter (· != p.2) }) s
  else
    match inactiveSlot s p.2 with
    | none => s
    | some n => onType p.2 (fun t => { putImage n v t with receiving := rx }) s

/-- Staging area: 64 entries and 382 MiB (R457). -/
def stagingEntries : Nat := 64
def stagingBytes : Nat := 382 * MiB
def stagingUsed (s : State) : Nat := (s.img.staging.map (fun p => imgLength p.2.header)).sum

/-- A transfer in progress of a staged type is abandoned (R462). -/
def abandonStaged (t : Nat) (s : State) : State :=
  (s.img.staging.filter (fun p => s.img.stagingRx.contains p.1 && imgType p.2.header == t)).foldl (fun s p => setPlace (true, p.1) none false s) s

/-- IMAGE_BEGIN and STAGE_HEADER: the status, and where the body goes. -/
def imageBegin (h : Bytes) (s : State) : Nat × Place × State :=
  let t := imgType h
  let st := headerStatus s h
  let fresh : ImgSlot := { header := h, body := [], complete := false }
  if st != 0 then (st, (false, 0), s)
  else if s.fl.readOnly then (0x0B, (false, 0), s)
  else if t ≤ 7 then
    if (inactiveSlot s t).isNone || s.img.act.any (fun a => a.type == t) then (0x27, (false, t), s)
    else (0, (false, t), setPlace (false, t) (some fresh) true s)
  else
    let s1 := abandonStaged t s
    match (List.range stagingEntries).find? (fun k => (stagedOf s1 k).isNone) with
    | none => (0x27, (true, 0), s)
    | some k =>
      if stagingBytes < stagingUsed s1 + imgLength h then (0x27, (true, 0), s)
      else (0, (true, k), setPlace (true, k) (some fresh) true s1)

/-- IMAGE_DATA and STAGE_DATA: the next part of a body; the status and the bytes received. -/
def imageData (p : Place) (offset : Nat) (part : Bytes) (s : State) : Nat × Nat × State :=
  match placeSlot s p with
  | none => (0x2A, 0, s)
  | some x =>
    let got := x.body.length
    if !placeRx s p then (0x2A, 0, s)
    else if offset != got then (0x28, got, s)
    else if imgLength x.header < got + part.length then (0x26, got, s)
    else (0, got + part.length, setPlace p (some { x with body := x.body ++ part }) true s)

/-- A floor is raised to an image's SEC_VERSION (R461). -/
def raiseFloor (t : Nat) (h : Bytes) (s : State) : State :=
  writeCounter (onImg (fun i => { i with floors := modAt i.floors (t - 1) (max (u8 h 24)) }) s)

/-- A recovery image stands in both blocks and is confirmed (R458). -/
def takeRecovery (x : ImgSlot) (s : State) : State :=
  raiseFloor 7 x.header (onType 7 (fun t => { t with slotA := some x, slotB := some x, receiving := false }) s)

/-- IMAGE_END: the hash is compared; on a mismatch the slot is empty. -/
def imageEnd (p : Place) (s : State) : Nat × State :=
  match placeSlot s p with
  | none => (0x2A, s)
  | some x =>
    if !placeRx s p then (0x2A, s)
    else if x.body.length != imgLength x.header || sha384 x.body != slice x.header 40 48 then (0x29, setPlace p none false s)
    else
      let x := { x with complete := true }
      let s := setPlace p (some x) false s
      (0, if !p.1 && p.2 = 7 then takeRecovery x s else s)

/-- The part of REEF in a transfer: it hashes and verifies (R457, R462). -/
def reefCmd (d : Nat) (f : State → State) (s : State) : State := if isUp s 2 then f s else finish d 7 0 [] s

/-- IMAGE_BEGIN (R460). -/
def execImageBegin (d : Nat) (s : State) : Out :=
  .next (hostCmd 0xA0 d (fun b => [addrCheck b 24 64]) (fun x s => reefCmd d (fun s =>
    let h := x.input.getD []
    let r := imageBegin h s
    if r.1 != 0 then finish d r.1 0 [] r.2.2
    else finishOk d (toLE 1 (imgType h) ++ toLE 1 (if r.2.1.1 then r.2.1.2 else (inactiveSlot r.2.2 r.2.1.2).getD 0)) r.2.2) s) s)

def imgPlace (b : Bytes) (o : Nat) : Place := (bit (u8 b o) 0, u8 b (o + 1))
def placeCheck (b : Bytes) (o : Nat) : Check := (if bit (u8 b o) 0 then u8 b (o + 1) < 64 else inRange (u8 b (o + 1)) 1 7, o + 1)

/-- IMAGE_DATA (R462). -/
def execImageData (d : Nat) (s : State) : Out :=
  .next (hostCmd 0xA1 d (fun b => [(inRange (u32 b 20) 1 65536, 20), addrCheck b 24 64, placeCheck b 32]) (fun x s => reefCmd d (fun s =>
    let r := imageData (imgPlace x.bytes 32) (u32 x.bytes 16) (x.input.getD []) s
    finish d r.1 0 (if r.1 = 0 then toLE 4 r.2.1 else []) r.2.2) s) s)

/-- IMAGE_END (R462). -/
def execImageEnd (d : Nat) (s : State) : Out :=
  .next (hostCmd 0xA2 d (fun b => [placeCheck b 32]) (fun x s => reefCmd d (fun s =>
    let p := imgPlace x.bytes 32
    let r := imageEnd p s
    finish d r.1 0 (if r.1 = 0 then toLE 4 (((placeSlot r.2 p).map (fun i => imgLength i.header)).getD 0) else []) r.2) s) s)

/-! ### Trial (R464 to R466) -/

/-- The islands of a type whose attempt bytes count. -/
def trialIslands (t : Nat) : List Nat := if t = 5 then [6, 7] else [islandOf t]
def setAttempts (t v : Nat) (s : State) : State :=
  onRs (fun r => { r with attempts := (trialIslands t).foldl (fun a n => setAt a n v) r.attempts }) s

/-- The trial starts: the window, the criterion's counters and IMAGE_TRIAL. -/
def startTrial (t secs : Nat) (s : State) : State :=
  let s := onType t (fun x => { x with state := 1, deadline := some (s.rs.opSeconds + secs), since := s.rs.opSeconds }) s
  raise 56 t (onImg (fun i => { i with crit := List.replicate 11 0, heard := [] }) s)

/-- The tables of an island are those of its slot (R463). -/
def setVersion (a : Bool) (v : Nat) (s : State) : State :=
  onCv (fun c => if a then { c with verA := v, okA := false } else { c with verB := v, okB := false }) s

/-- VERSION of the tables: the CONV_VERSION of the running slot. -/
def runningConv (s : State) : Nat := slotInfo 5 (slotOf (typeOf s 5) (typeOf s 5).running)

/-- CALC_A or CALC_B is stopped and loaded with the running slot's tables. -/
def loadCalc (a : Bool) (s : State) : State := startIslandReset (if a then 6 else 7) 3 (setVersion a (runningConv s) s)

/-- HOLM returns an island to its confirmed slot by itself (R465). Reason: R471, source 57. -/
def fallBack (t why : Nat) (s : State) : State :=
  if (typeOf s t).state != 1 && !s.img.act.any (fun a => a.type == t && !a.back) then s
  else
    let s := match s.img.act with
      | some a => onImg (fun i => { i with act := none }) (if a.back then s else finish a.desc 4 0 [] s)
      | none => s
    let s := onType t (fun x => { x with running := x.confirmed, state := 2, deadline := none }) s
    let s := raise 57 (t + 256 * why) (setAttempts t 0 s)
    if t = 5 then loadCalc true (onImg (fun i => { i with act := some { type := 5, step := 0, desc := 0, trial := 0, back := true, loaded := false } }) s)
    else startIslandReset (islandOf t) 3 s

/-- An island of a type is on trial: from its release on the new slot, which may come before the activation is over (R464). -/
def onTrial (s : State) (t n : Nat) : Bool :=
  (trialIslands t).contains n &&
    match s.img.act with
    | some a =>
      if a.type != t || a.back then (typeOf s t).state == 1
      else (typeOf s t).running != (typeOf s t).confirmed && (a.loaded || a.step == 1 && n == 6) && !(t == 5 && a.step == 0 && n == 7)
    | none => (typeOf s t).state == 1

/-- The reset was the activation's own: its island is now released on the new slot. -/
def ownReset (s : State) (n : Nat) : Bool :=
  s.img.act.any (fun a => !a.loaded && !a.back && (typeOf s a.type).running != (typeOf s a.type).confirmed &&
    (if a.type = 5 then n == 6 + a.step else islandOf a.type == n))

/-- An island on trial has been reset: its attempt byte counts (R465). ATOLL's items count again from here. -/
def noteTrialReset (n : Nat) (s : State) : State :=
  match (List.range 6).find? (fun t => 1 ≤ t && onTrial s t n) with
  | none => if ownReset s n then onImg (fun i => { i with act := i.act.map (fun a => { a with loaded := true }) }) s else s
  | some t =>
    let s := onRs (fun r => { r with attempts := modAt r.attempts n (· + 1) }) s
    let s := if t = 2 then onType 2 (fun x => { x with since := s.rs.opSeconds }) (onImg (fun i => { i with crit := setAt i.crit 3 0 }) s) else s
    if 3 < s.rs.attempts.getD n 0 then fallBack t 0 s else s

/-- The criterion of R466. -/
def criterionMet (s : State) (t : Nat) : Bool :=
  let c := fun k => s.img.crit.getD k 0
  match t with
  | 1 => 1 ≤ c 0 && 1 ≤ c 1 && 1 ≤ c 2
  | 2 => s.img.act.isNone && (10000 ≤ c 3 || (typeOf s 2).since + 120 ≤ s.rs.opSeconds)
  | 3 =>
    let n := s.img.bound.length
    let m := (s.img.bound.filter s.img.heard.contains).length
    (List.range 3).all (fun ph => !plcInService s ph || 30 ≤ c (4 + ph)) && (if n < 2 then n ≤ m else n ≤ 2 * m)
  | 4 => (List.range 2).all (fun r => !radioEnabled s r || 15 ≤ c (7 + r)) && c 9 == 0
  | _ => s.img.act.isNone && isUp s 6 && isUp s 7 && s.cv.okA && s.cv.okB && 1000 ≤ c 10

/-- The running slot becomes the confirmed one: option store, floor, attempt byte. -/
def confirmSlot (t : Nat) (s : State) : State :=
  let n := (typeOf s t).running
  let s := onType t (fun x => { x with confirmed := n, state := 0, deadline := none }) s
  let s := setAttempts t 0 (saveOpt (fun o => { o with confirmed := setAt o.confirmed (t - 1) n }) s)
  match slotOf (typeOf s t) n with
  | some x => raiseFloor t x.header s
  | none => s

/-- IMAGE_CONFIRM: CAPE finds the criterion met (R466). -/
def execImageConfirm (t : Nat) (s : State) : Out :=
  .next (if isUp s 1 && inRange t 1 5 && (typeOf s t).state == 1 && criterionMet s t then raise 56 (t + 256) (confirmSlot t s) else s)

/-- TRIAL_WINDOW_END (R465). -/
def execTrialWindowEnd (t : Nat) (s : State) : Out :=
  .next (match (typeOf s t).deadline with
    | some e => if inRange t 1 5 then fallBack t 1 (passOp e s) else s
    | none => s)

/-- IMAGE_REVERT (R465). -/
def execImageRevert (d : Nat) (s : State) : Out :=
  .next (hostCmd 0xA4 d (fun b => [(inRange (u8 b 16) 1 5, 16)]) (fun x s =>
    let t := u8 x.bytes 16
    if (typeOf s t).state != 1 then finish d 0x2D 0 [] s else fallBack t 2 (finishOk d [] s)) s)

/-! ### Activation (R463) -/

/-- What the option store holds beside settings does not come from a configuration image. -/
def keepOwn (old new : Opt) : Opt :=
  { new with authority := old.authority, debugAllowed := old.debugAllowed, cert := old.cert, tamper := old.tamper,
             confirmed := old.confirmed, counts := old.counts, calFrom := old.calFrom }

/-- A configuration image is checked whole and applied; role, member ID and pair settings wait for the next start. -/
def takeConfigImage (n : Nat) (x : ImgSlot) (d : Nat) (s : State) : State :=
  match Config.configBody x.body s.opt with
  | .error off => finish d 0x2C off [] s
  | .ok (o, pc) =>
    let s := onType 6 (fun t => { t with confirmed := n, running := n, state := 0 }) s
    let s := saveOpt (fun old => { keepOwn old o with confirmed := setAt old.confirmed 5 n }) s
    let s := match pc with
      | some c => { s with pairStore := s.pairStore.write (macRootNow s) c }
      | none => s
    let s := loadOpt (onRs (fun r => { r with optUnverified := false }) s)
    let s := onWir (fun w => { w with term := s.opt.wired.map (·.term) }) s
    finishOk d (toLE 1 n) (raiseFloor 6 x.header s)

/-- The island is reset and released on its new slot. -/
def enterSlot (t : Nat) (s : State) : State :=
  let s := onType t (fun x => { x with running := 1 - x.confirmed }) s
  setAttempts t 1 s

/-- The activation of a type begins. The power-line and radio islands wait for their beacon. -/
def beginActivation (t d trial : Nat) (s : State) : State :=
  let s := onImg (fun i => { i with act := some { type := t, step := 0, desc := d, trial := trial, back := false, loaded := t == 2 } }) (holdDesc d s)
  match t with
  | 1 => startIslandReset 1 3 (enterSlot 1 s)
  | 2 => firstGroup (setCores (enterSlot 2 s))
  | 5 => loadCalc true (enterSlot 5 s)
  | _ => s

/-- IMAGE_ACTIVATE (R463, R464). -/
def execImageActivate (d : Nat) (s : State) : Out :=
  .next (hostCmd 0xA3 d (fun b => [(inRange (u8 b 16) 1 6, 16), (u32 b 20 == 0 || inRange (u32 b 20) 60 3600, 20)]) (fun x s =>
    let t := u8 x.bytes 16
    if s.img.act.isSome || s.img.types.any (fun y => y.state == 1) then finish d 0x27 0 [] s
    else
      match inactiveSlot s t with
      | none => finish d 0x27 0 [] s
      | some n =>
        match slotOf (typeOf s t) n with
        | none => finish d 0x2A 0 [] s
        | some im =>
          if !im.complete then finish d 0x2A 0 [] s
          else if t = 6 then takeConfigImage n im d s
          else beginActivation t d (unlessZero (u32 x.bytes 20) 600) s) s)

def onAct (f : Activation → Activation) (s : State) : State := onImg (fun i => { i with act := i.act.map f }) s

/-- The last stage is over: the command completes. The trial of CALC tables began when CALC_A returned. -/
def endActivation (a : Activation) (s : State) : State :=
  let s := onImg (fun i => { i with act := none }) s
  if a.back then s
  else
    let s := finishOk a.desc (toLE 1 (typeOf s a.type).running) s
    if a.type = 5 then s else startTrial a.type a.trial s

/-- PLC: 30 ms after an L1 beacon; RADIO: 15 ms after a beacon of each enabled radio (R463). -/
def beaconPassed (s : State) (t : Nat) : Bool :=
  if t = 3 then !plcInService s 0 || ((phaseAt s 0).lastPeriod == some (periodNo s 0).toNat && 30 ≤ periodMs s 0)
  else
    (List.range 2).all (fun r => !radioEnabled s r || ((radioAt s r).asn == some (asnNow s) && asnNow s % 10 == 0)) &&
      15 ≤ (netTime s * 5 % 32768) * 200 / 32768

/-- A group of cores has drained and is reloaded; the next one drains (R463). -/
def atollStage (a : Activation) (s : State) : State :=
  let cores := groupCores a.step
  if !isUp s 9 || !cores.all (fun c => (s.sch.cores.getD c Core.reset).drained) then s
  else
    let s := onSch (fun c => { c with cores := cores.foldl (fun l k => modAt l k (fun x => { x with powered := true, draining := false, drained := false, image := (typeOf s 2).running })) c.cores }) s
    if a.step < 5 then drainGroup (a.step + 1) (onAct (fun a => { a with step := a.step + 1 }) s)
    else setCores (endActivation a s)

/-- CALC_A has returned: the new version is in force, the trial begins, and CALC_B is loaded; then CALC_B has returned. -/
def calcStage (a : Activation) (s : State) : State :=
  if a.step = 0 then
    if isUp s 6 && s.cv.okA then
      let s := onAct (fun a => { a with step := 1, loaded := false }) s
      notePaths (loadCalc false (if a.back then s else startTrial 5 a.trial s))
    else s
  else if isUp s 7 && s.cv.okB then notePaths (endActivation a s) else s

/-- ACTIVATION_GROUP_DONE: a stage has completed and the next starts. -/
def execActivationGroupDone (s : State) : Out :=
  .next <|
    match s.img.act with
    | none => s
    | some a =>
      match a.type with
      | 2 => atollStage a s
      | 5 => calcStage a s
      | 1 => if isUp s 1 then endActivation a s else s
      | t =>
        if a.step = 0 then
          if isUp s (islandOf t) && beaconPassed s t then
            let s := onImg (fun i => { i with bound := s.plc.stations.map (·.tei) }) (onAct (fun a => { a with step := 1 }) s)
            startIslandReset (islandOf t) 3 (enterSlot t s)
          else s
        else if isUp s (islandOf t) then endActivation a s else s

/-- Bytes of a type in IMAGE_STATUS_READ. -/
def statusOfType (s : State) (t : Nat) : Bytes :=
  let x := typeOf s t
  let other := slotOf x (1 - x.running)
  let st := if x.receiving then 3 else x.state
  toLE 1 x.confirmed ++ toLE 1 x.running ++ toLE 1 st ++
    toLE 1 (if inRange t 1 5 then s.rs.attempts.getD (islandOf t) 0 else 0) ++ toLE 4 (slotVersion t (slotOf x x.running)) ++
    toLE 4 ((other.map (fun i => u32 i.header 20)).getD 0) ++ toLE 1 (s.img.floors.getD (t - 1) 0) ++
    toLE 3 ((x.deadline.map (· - s.rs.opSeconds)).getD 0)

/-- IMAGE_STATUS_READ. -/
def execImageStatusRead (d : Nat) (s : State) : Out :=
  .next (hostCmd 0xA5 d (fun b => [addrCheck b 24 64]) (fun x s =>
    finishOk d [] (putOut d (u64 x.bytes 24) (padTo 256 ((List.range 7).flatMap (fun k => statusOfType s (k + 1)))) s)) s)

/-! ### Staging (R467) -/

/-- STAGE_FREE: an entry that a campaign still sends from is kept. -/
def execStageFree (d : Nat) (s : State) : Out :=
  .next (hostCmd 0xAA d (fun b => [(u8 b 16 < 64, 16)]) (fun x s =>
    let k := u8 x.bytes 16
    if (stagedOf s k).isNone then finish d 0x2A 0 [] s
    else if s.img.campaigns.any (fun c => c.entry == k && !c.finished) then finish d 0x27 0 [] s
    else finishOk d [] (setPlace (true, k) none false s)) s)

/-- The image that a STAGE_FORWARD sends: a complete slot or staging entry; of a type, the slot that runs where the other holds none. -/
def forwardImage (s : State) (p : Place) : Option ImgSlot :=
  let whole := fun (x : Option ImgSlot) => x.filter (·.complete)
  if p.1 then whole (stagedOf s p.2)
  else
    let t := typeOf s p.2
    (whole (slotOf t (1 - t.confirmed))).or (whole (slotOf t t.confirmed))

/-- The next part of a body that is staged to a member. -/
def sendStageData (id desc member offset : Nat) (body : Bytes) (s : State) : State :=
  let part := (body.drop offset).take 1024
  let s := onImg (fun i => { i with stageTx := i.stageTx.map (fun y => if y.1 == id then (id, desc, member, offset + part.length) else y) }) s
  sendMsg member 0x41 true true true (.stage desc) (toBE 2 id ++ [0, 0] ++ toBE 4 offset ++ part) s

/-- STAGE_FORWARD. -/
def execStageForward (d : Nat) (s : State) : Out :=
  .next (hostCmd 0xA9 d (fun b => [placeCheck b 16, (u16 b 18 < 4096, 18)]) (fun x s =>
    match forwardImage s (imgPlace x.bytes 16) with
    | none => finish d 0x2A 0 [] s
    | some im =>
      let m := u16 x.bytes 18
      if !sessionUp s (hopOf s m) then finish d 0x0C 0 [] s
      else
        let id := s.img.nextStage % 65536
        let s := onImg (fun i => { i with nextStage := i.nextStage + 1, stageTx := i.stageTx ++ [(id, d, m, 0)] }) (holdDesc d s)
        sendMsg m 0x40 true true true (.stage d) (toBE 2 id ++ [0, 0] ++ im.header) s) s)

/-- A STAGE_RESULT has come: the next part, or the command ends with its status. -/
def onStageResult (member : Nat) (body : Bytes) (s : State) : State :=
  let id := beNat (slice body 0 2)
  let status := u8 body 2
  let got := beNat (slice body 4 4)
  match s.img.stageTx.find? (fun y => y.1 == id && y.2.2.1 == member) with
  | none => s
  | some (_, d, m, sent) =>
    let stop := fun (s : State) => onImg (fun i => { i with stageTx := i.stageTx.filter (fun y => y.1 != id) }) s
    match (descOf s d).bind (fun x => forwardImage s (imgPlace x.bytes 16)) with
    | none => finish d 0x2A 0 [] (stop s)
    | some im =>
      if status != 0 || imgLength im.header ≤ got then finishOk d (toLE 1 status) (stop s)
      else if got < sent then s
      else sendStageData id d m got im.body s

/-- STAGE_RESULT to the sender. -/
def answerStage (member id status got : Nat) (s : State) : State :=
  sendAcked member 0x42 .plain (toBE 2 id ++ toBE 1 status ++ [0] ++ toBE 4 got) s

/-- STAGE_HEADER is taken as IMAGE_BEGIN; both end STRAIT_ABORT while REEF is down. -/
def onStageHeader (member : Nat) (body : Bytes) (s : State) : State :=
  let id := beNat (slice body 0 2)
  if !isUp s 2 then answerStage member id 7 0 s
  else
  let r := imageBegin (slice body 4 512) s
  let keep := r.2.2.img.stageRx.filter (fun y => !(y.1 == member && y.2.1 == id))
  let s := if r.1 = 0 then onImg (fun i => { i with stageRx := keep ++ [(member, id, r.2.1.1, r.2.1.2)] }) r.2.2 else r.2.2
  answerStage member id r.1 0 s

/-- STAGE_DATA is taken as IMAGE_DATA, and the last part also as IMAGE_END. -/
def onStageData (member : Nat) (body : Bytes) (s : State) : State :=
  let id := beNat (slice body 0 2)
  if !isUp s 2 then answerStage member id 7 0 s
  else
  match s.img.stageRx.find? (fun y => y.1 == member && y.2.1 == id) with
  | none => answerStage member id 0x2A 0 s
  | some (_, _, p) =>
    let r := imageData p (beNat (slice body 4 4)) (body.drop 8) s
    let len := ((placeSlot r.2.2 p).map (fun x => imgLength x.header)).getD 0
    if r.1 = 0 && r.2.1 = len then
      let e := imageEnd p r.2.2
      answerStage member id e.1 r.2.1 (onImg (fun i => { i with stageRx := i.stageRx.filter (fun y => !(y.1 == member && y.2.1 == id)) }) e.2)
    else answerStage member id r.1 r.2.1 r.2.2

/-- A reset of any reach abandons the transfers in progress (R462). -/
def abandonReceiving (s : State) : State :=
  let drop := fun (t : ImgType) =>
    let inactive := if t.confirmed == t.running then some (1 - t.confirmed) else none
    { (if t.receiving then (match inactive with | some n => putImage n none t | none => t) else t) with receiving := false }
  onImg (fun i =>
    { i with
      types := i.types.map drop, staging := i.staging.filter (fun p => !i.stagingRx.contains p.1), stagingRx := [], stageRx := [] }) s

/-- A reset of reach WARM or wider also ends whatever activation was not yet on trial, and the campaigns (R462). -/
def abandonTransfers (s : State) : State :=
  onImg (fun i =>
    { i with
      types := i.types.map (fun t => { t with running := if t.state == 1 then t.running else t.confirmed })
      act := none, campaigns := [], stageTx := [] }) (abandonReceiving s)

end Sys2Proof.Machine
end

