-- ==== Sys2Proof/Machine/Post.lean ====
section
/-! DEFINITION. Step 10: what a converted reading does to its ledger record, the journal record that carries it, and what is due when that
record is durable (R182, R188, R219 to R250, R253, R276; chapters 08, 10, 11, 12). -/
namespace Sys2Proof.Machine
open Sys2Proof

/-! ### The frame that is posted -/

def metaLink (m : Bytes) : Nat := u8 m 2 / 16
def metaArrival (m : Bytes) : Nat := u64 m 4
def metaRoute (m : Bytes) : Nat := u16 m 12

/-- What a reading brings to its posting. -/
structure PostIn where
  short : Nat
  entry : MEntry
  body : Bytes
  /-- READ_TIME, and LAST_TIME where the meter has history, in 1/65,536 s. -/
  t : Int
  last : Option Int
  ns : List Int
  resid : List F64
  est : Bool
  single : Bool
  deriving DecidableEq, Repr

/-- What the posting does to the meter's record. -/
structure LedgerStep where
  items : List (Nat × Nat)
  flags : Nat
  tariff : Nat
  /-- totalisers of TARIFF after the posting, by quantity -/
  q : List Int
  minutes : List Minute
  sat : Nat
  lateParts : Nat
  splits : Nat
  negative : Bool
  creditSat : Bool
  deriving DecidableEq, Repr

/-- LATE: some part is stamped before the meter's last close (R236): a stretch of stamps begins or the reading stands before it. -/
def isLate (s : State) (runs : List (Int × Int)) (p : PostIn) : Bool :=
  match (Tab.getD s.db.snaps p.short []).head? with
  | some c => (p.t :: runs.map (·.1)).any (fun x => x < (c.2.closeTime : Int))
  | none => false

/-- INSTANT_UNKNOWN (R243). -/
def isUnknown (s : State) (p : PostIn) : Bool :=
  match p.last with
  | some a => overlapsUnknown s.db.outages a p.t
  | none => false

/-- Flag bits of a delivered record (R122). -/
def recordFlags (est late custody single unknown invalid roll : Bool) : Nat :=
  b2n est + 2 * b2n late + 4 * b2n custody + 8 * b2n single + 16 * b2n unknown + 32 * b2n invalid + 64 * b2n roll

/-- The model's mark of a close is kept while it lies after the last reading (R233). -/
def keepClosed (closedTo : Nat) (t : Int) : Nat := if (closedTo : Int) * unitsPerSec ≤ t then 0 else closedTo

/-- Every quantity of a record is posted into its registers, in parts by period. -/
def postAll (rollMax nq : Nat) (body : Bytes) (parts : Nat → List (Nat × Int)) (tot : Tab Int) (roll : List Nat) : Tab Int × List Nat × Bool :=
  (List.range nq).foldl (fun (a : Tab Int × List Nat × Bool) q =>
    let b := postParts rollMax q (pfDigits body q) (parts q) (a.1, a.2.1.getD q 0, false)
    (b.1, setAt a.2.1 q b.2.1, a.2.2 || b.2.2)) (tot, roll, false)

/-- A standard meter's posting (R221, R228, R231, R253). -/
def stdStep (s : State) (p : PostIn) : LedgerStep :=
  let r := stdOf s p.short
  let invalid := !s.tm.validSeen
  let k := if invalid then 0 else (periodAt s.db.timeline p.t).1
  let nq := min 2 (pfQuantities p.body)
  let (tot, roll, ovr) := postAll 127 nq p.body (fun q => [(k, p.ns.getD q 0)]) r.tot r.roll
  let r1 := { r with tot := tot, roll := roll, resid := p.resid, periodInvalid := r.periodInvalid || invalid }
  let runs := match p.last with | some a => [(a, p.t)] | none => []
  let (r2, sat, lateParts) := match pfDemandQ p.body with
    | some q => stdDemand (standardOffset s) (demandLen p.body) s.db.outages runs (p.last.getD p.t) p.est (p.ns.getD q 0) r1
    | none => (r1, 0, 0)
  let n := p.ns.getD (pfPriceQ p.body) 0
  let c := if r.prepay.enabled then debit r.credit (pfRate p.body k) n else (r.credit, false, false)
  let r3 := { r2 with credit := c.1, closedTo := keepClosed r2.closedTo p.t }
  { items := diffStd r r3
    flags := recordFlags p.est (isLate s runs p) false false (isUnknown s p) invalid ovr
    tariff := k, q := (List.range 2).map (fun q => Tab.getD tot (16 * q + k) 0), minutes := [], sat := sat, lateParts := lateParts
    splits := 0, negative := c.2.1, creditSat := c.2.2 }

/-- A custody channel's posting (R221, R228, R232, R238, R239, R246). -/
def custStep (s : State) (r : Cust) (p : PostIn) : LedgerStep :=
  let d := demandSet s p.body
  let k := (periodAt s.db.timeline p.t).1
  let steps := r.steps.map (fun x => (unitsOf x.1, unitsOf x.2))
  let runs := match p.last with | some a => clockRuns a p.t steps | none => []
  let parts := fun q => tariffParts s.db.timeline runs (p.ns.getD q 0) k
  let (tot, roll, ovr) := postAll 255 4 p.body parts r.tot r.roll
  let invalid := r.invalid || !s.tm.validSeen
  let late := isLate s runs p
  let m : Marks := { est := p.est, late := late, invalid := invalid, unknown := isUnknown s p, single := p.single, roll := ovr }
  let r1 := { r with tot := tot, roll := roll, resid := p.resid }
  let r2 := if p.last.isNone then custOpen d p.t r1 else r1
  let lateTo : Option Int := if p.last.any (fun a => a < (r.closedTo : Int) * unitsPerSec) then some (r.closedTo : Int) else none
  let n := (d.q.map (fun q => p.ns.getD q 0)).getD 0
  let (r3, splits, lateParts) := if d.len = 0 then (r2, 0, 0) else custFix d m runs lateTo n r2
  let r4 := custSub d m runs lateTo n r3
  let (r5, ms) := custMinutes d m runs lateTo p.ns r4
  let r6 := { r5 with
    steps := [], closedTo := keepClosed r.closedTo p.t
    periodFlags := orNat r5.periodFlags (b2n invalid + 2 * b2n p.single) }
  { items := diffCust r r6
    flags := recordFlags p.est late true p.single (isUnknown s p) (!s.tm.validSeen) ovr
    tariff := k, q := (List.range 4).map (fun q => Tab.getD tot (16 * q + k) 0), minutes := ms, sat := 0, lateParts := lateParts
    splits := splits, negative := false, creditSat := false }

/-! ### Delivered records (R122) -/

/-- One delivered record, POST_TIME still zero. -/
def deliveredRecord (seq : Nat) (e : MEntry) (profile short flags link tariff channel : Nat) (t counter route : Nat) (e0 e1 q0 q1 : Int) : Bytes :=
  toLE 8 seq ++ toLE 8 e.id ++ toLE 4 (short + 2 ^ 20 * profile) ++ toLE 2 flags ++ toLE 1 (16 * link + tariff) ++ toLE 1 channel ++ toLE 8 t ++
  toLE 4 counter ++ toLE 2 (if link = 7 then 32768 + route % 4096 else 0) ++ toLE 1 (ofInt 8 e0) ++ toLE 1 (ofInt 8 e1) ++
  toLE 8 (w64 q0) ++ toLE 8 (w64 q1) ++ toLE 8 0

/-- The records of a posting: one, or for a custody channel two. -/
def recordsOf (seq : Nat) (e : MEntry) (profile short channel link route t counter : Nat) (body : Bytes) (x : LedgerStep) : List Bytes :=
  let nq := pfQuantities body
  let ex := fun q : Nat => if q < nq then pfE body q else 0
  let v := fun q : Nat => if q < nq then x.q.getD q 0 else 0
  let one := fun (flags a : Nat) => deliveredRecord seq e profile short flags link x.tariff channel t counter route (ex a) (ex (a + 1)) (v a) (v (a + 1))
  if channel < 96 then [one x.flags 0, one (x.flags + 256) 2] else [one x.flags 0]

/-! ### Indicators of the ledger home (R276) -/

/-- REVERSE and TAMPER as a frame shows them. -/
def frameInds (reverse tamper : Bool) : List IndSet :=
  (if reverse then [{ bit_ := 0, data0 := 0, data1 := 0, info := 0 }] else []) ++
  (if tamper then [{ bit_ := 1, data0 := 0, data1 := 0, info := 1 }] else [])

/-- The indicator record after a frame, and the bits it sets. -/
def applyInds (body : Bytes) (l : List IndSet) (i : Ind) : Ind × List IndSet :=
  l.foldl (fun a x => let b := setIndBit body x a.1; (b.1, a.2 ++ b.2.toList)) (i, [])

/-- The increment that REVERSE looks at. -/
def reverseN (s : State) (short : Nat) (ns : List Int) : Int :=
  let m := (Tab.get s.db.memb short).bind (fun m => m.memberOf.or m.supplyOf)
  match m.bind (fun id => Tab.get s.db.nodes id) with
  | some n => ns.getD n.balQ 0
  | none => ns.getD 0 0

/-! ### The POSTING record (R182, R248) -/

/-- A POSTING record of an accepted frame, with the answer that follows it (R31, R183, R192). -/
def appendPosting (short counter outcome : Nat) (rd : Reading) (flags : Nat) (p : PostBody) (inds : List IndSet) (s : State) : State :=
  let rekey := counter == ctrMax
  let body := boundBody s rd.profile rd.pver
  let i0 := indOf s short
  let (i1, set) := applyInds body inds i0
  let m := mstateOf s short
  let answers := !rd.replay && !rd.released && (currentKey s short (frameId rd.frame)).isSome
  let p := { p with counter := counter, outcome := outcome, rekey := rekey, items := p.items ++ indItems i0 i1, profile := rd.profile, pver := rd.pver
                    valFlags := rd.valFlags, down := min ctrMax (m.downCounter + b2n answers), authFail := m.authFail, replays := m.replays }
  let s := appendMeter 1 short flags (.posting p) s
  let s := match s.jr.open_.getLast? with
    | some r => whenDurable (.posted r) s
    | none => s
  let s := match p.quar with
    | some q => whenDurable (.quarVisible q) s
    | none => s
  let s := if rd.replay || rd.released then s
    else whenDurable (.answer short (if rekey then 4 else outcome) counter (metaLink rd.meta16) (metaRoute rd.meta16)) s
  reportInds short set s

def emptyBody (type readTime : Nat) : PostBody :=
  { counter := 0, outcome := 0, type := type, tariff := 0, valFlags := 0, convVersion := 0, values := [], readTime := readTime, items := [],
    ns := [], runs := [], profile := 0, pver := 0, recs := [], rekey := false, quar := none, down := 0, authFail := 0, replays := 0, ests := [] }

/-- Counters of a posting (R223, R227, R233, R236, R238, R243, R253). -/
def countPosting (s0 : State) (p : PostIn) (x : LedgerStep) (s : State) : State :=
  let s := statLgN 1 x.lateParts (statLgN 0 x.sat s)
  let s := if (periodAt s0.db.timeline p.t).2 then statLg 2 s else s
  let s := if bit x.flags 1 then statLg 3 s else s
  let s := if bit x.flags 4 then statLg 4 s else s
  let s := statLgN 5 x.splits s
  let s := if x.negative then statPp 0 s else s
  let s := if x.creditSat then statPp 1 s else s
  let s := if p.est then statIk 57 s else s
  onLg (fun l => { l with posted := l.posted + 1 }) s

/-- The end of a posting's work in LEDGER: minutes, the audit of a late posting, the comparison of credit, the valve's status. -/
def afterPosting (p : PostIn) (counter status : Nat) (x : LedgerStep) (s : State) : State :=
  match channelOf s p.short with
  | some (ch, _) =>
    let s := appendMinutes p.short ch x.minutes s
    if bit x.flags 1 then audit ch 9 0 counter p.t.toNat s else s
  | none => valveStatus p.short (bit status 5) (creditCompare p.short p.body false s)

/-- The boundaries between t_last and t that the ledger, a custody profile or the balance engine needs (R190, R229). -/
def estBounds (s : State) (custody : Bool) (p : PostIn) (a : Int) : List Int :=
  let m := Tab.get s.db.memb p.short
  let nodes := [m.bind (·.memberOf), m.bind (·.supplyOf)].filterMap (fun o => o.bind (fun id => Tab.get s.db.nodes id))
  let d := demandSet s p.body
  let lens := ((if custody then [60, d.len, d.subLen] else [d.len]) ++ nodes.map (fun n => 60 * (n.balLen : Int))).filter (0 < ·)
  let tariff := if custody then (s.db.timeline.reverse.map (fun c => unitsOf c.1)).filter (fun b => a < b && b < p.t) else []
  lens.eraseDups.flatMap (fun len => gridBetween d.off len a p.t) ++ tariff

/-- The estimates that a posting across a gap makes (R190). -/
def estimatesOf (s : State) (custody : Bool) (rd : Reading) (p : PostIn) : List (Int × List Int) :=
  match p.last, (mstateOf s p.short).noHistory with
  | some a, false =>
    let m := mstateOf s p.short
    let h : Hist := { time := m.lastTime, values := m.lastValues }
    if p.est then (estBounds s custody p a).map (fun b => (b, estimatesAt p.body (rdElems rd.plain) rd.incs h b a (p.t - a))) else []
  | _, _ => []

/-- Item BAL_N of a meter that belongs to a node (R283). -/
def balanceItem (s : State) (p : PostIn) : List (Nat × Nat) :=
  let m := Tab.get s.db.memb p.short
  match (m.bind (fun m => m.memberOf.or m.supplyOf)).bind (fun id => Tab.get s.db.nodes id) with
  | some n => [(0x70, w64 (p.ns.getD n.balQ 0))]
  | none => []

/-- A reading is posted (R221 to R233, R182): the record is appended and its effects follow. -/
def postReading (rd : Reading) (p : PostIn) (s : State) : State :=
  let s := closeIfDue p.short s
  let ch := channelOf s p.short
  let x := match ch with
    | some (_, r) => custStep s r p
    | none => stdStep s p
  let counter := frameCounter rd.frame
  let status := rdStatus rd.plain
  let steps := match ch with | some (_, r) => r.steps.map (fun v => (unitsOf v.1, unitsOf v.2)) | none => []
  let channel := (ch.map (·.1)).getD 127
  let body : PostBody :=
    { emptyBody 0 (rdTime rd.plain) with
      tariff := x.tariff, convVersion := rd.cver, values := rd.values, items := x.items ++ balanceItem s p, ns := p.ns
      runs := match p.last with | some a => clockRuns a p.t steps | none => []
      ests := estimatesOf s ch.isSome rd p
      recs := recordsOf s.jr.next p.entry rd.profile p.short channel (metaLink rd.meta16) (metaRoute rd.meta16) p.t.toNat counter p.body x }
  let inds := frameInds (reverseN s p.short p.ns < 0 || bit rd.valFlags 1 || bit status 1) (bit status 0)
  afterPosting p counter status x (countPosting s p x (appendPosting p.short counter 0 rd x.flags body inds s))

/-- A released reading whose conversion cannot be computed (R194, R211): the registers as they stand, no increment. -/
def postAsIs (rd : Reading) (p : PostIn) (s : State) : State :=
  let s := closeIfDue p.short s
  let ch := channelOf s p.short
  let k := if ch.isNone && !s.tm.validSeen then 0 else (periodAt s.db.timeline p.t).1
  let tot := match ch with | some (_, r) => r.tot | none => (stdOf s p.short).tot
  let x : LedgerStep :=
    { items := [], flags := recordFlags false (isLate s (match p.last with | some a => [(a, p.t)] | none => []) p) ch.isSome false (isUnknown s p) (!s.tm.validSeen) false, tariff := k
      q := (List.range 4).map (fun q => Tab.getD tot (16 * q + k) 0), minutes := [], sat := 0, lateParts := 0, splits := 0, negative := false
      creditSat := false }
  let counter := frameCounter rd.frame
  let channel := (ch.map (·.1)).getD 127
  let body : PostBody :=
    { emptyBody 0 (rdTime rd.plain) with
      tariff := k, convVersion := rd.cver
      recs := recordsOf s.jr.next p.entry rd.profile p.short channel (metaLink rd.meta16) (metaRoute rd.meta16) p.t.toNat counter p.body x }
  afterPosting p counter (rdStatus rd.plain) x (countPosting s p x (appendPosting p.short counter 0 rd x.flags body [] s))

/-- Entries of the validation quarantine, those not yet visible included (R194). -/
def quarCount (s : State) : Nat :=
  (s.db.quars.filter (fun q => q.reason != 2)).length +
  (s.jr.waits.filter (fun w => match w.2 with | .quarVisible q => q.reason != 2 | _ => false)).length

def quarLimit : Nat := 1048576

/-- The quarantine entry of a reading (R193). -/
def quarOf (s : State) (rd : Reading) (e : MEntry) (reason : Nat) (outOfRange : Bool) : Quar :=
  { seq := s.jr.next, id := e.id, short := rd.short, reason := reason, link := metaLink rd.meta16, valFlags := rd.valFlags
    arrival := metaArrival rd.meta16, counter := frameCounter rd.frame, bytes := rd.frame.take 16 ++ rd.plain, outOfRange := outOfRange
    meta16 := rd.meta16 }

/-- A reading is voided (R182, R188): answered VOID once durable. -/
def voidReading (rd : Reading) (s : State) : State :=
  let status := rdStatus rd.plain
  let inds := frameInds (bit rd.valFlags 1 || bit status 1) (bit status 0)
  appendPosting rd.short (frameCounter rd.frame) 2 rd 0 (emptyBody 0 (rdTime rd.plain)) inds (statIk 55 s)

/-- A reading is quarantined: held, or voided where the quarantine is full (R194). -/
def holdReading (rd : Reading) (e : MEntry) (reason : Nat) (outOfRange : Bool) (s : State) : State :=
  if quarLimit ≤ quarCount s then voidReading rd (statIk 69 s)
  else
    let status := rdStatus rd.plain
    let inds := frameInds (bit rd.valFlags 1 || bit status 1) (bit status 0)
    appendPosting rd.short (frameCounter rd.frame) 1 rd 0 { emptyBody 0 (rdTime rd.plain) with quar := some (quarOf s rd e reason outOfRange) } inds
      (statIk 56 s)

/-- The inputs of a posting from a converted reading. ESTIMATED needs GAP failed with action FLAG (R190). -/
def postInOf (s : State) (rd : Reading) (e : MEntry) : PostIn :=
  let body := boundBody s rd.profile rd.pver
  { short := rd.short, entry := e, body := body, t := stampOfNet (rdTime rd.plain), last := lastUnits s rd.short, ns := rd.ns
    resid := rd.resid, est := bit rd.valFlags 4 && pfAction body 4 == 0, single := rd.single }

/-- CMD_RESULT and METER_EVENT are journalled and answered like readings (R178, R182): only L and LAST_OUTCOME change. -/
def postOther (rd : Reading) (type : Nat) (s : State) : State :=
  let code := u16 rd.plain 6
  let inds := if type = 2 then frameInds (code == 2) (code == 1) else []
  appendPosting rd.short (frameCounter rd.frame) 0 rd 0 (emptyBody type 0) inds s

end Sys2Proof.Machine
end

