-- ==== Sys2Proof/Machine/Session.lean ====
section
/-! DEFINITION. Urrauf sessions (R366 to R372, R386, R388): certificates, the handshake of three datagrams on Ethernet and on the isthmus,
and what a session's coming Up changes. -/
namespace Sys2Proof.Machine
open Sys2Proof

/-- Timings of chapter 17, ns. -/
def tUrrHs : Nat := 500 * msNs
def tKa : Nat := secNs
def tDead : Nat := 5 * secNs

/-- The Urrauf engine is open: NET runs, the module is a member of an archipelago, and a pair's standby keeps it closed (R363, R398). -/
def engineOpen (s : State) : Bool := isUp s 10 && inService s && !isStandby s && s.arch.role != 0

/-- The isthmus can carry a session: the lane is trained and PAIR runs (R388). -/
def laneOpen (s : State) : Bool := isUp s 11 && s.pair.trained && s.pair.cfg.isSome

/-! ### Where the peer's record stands -/

def onLink (isthmus : Bool) (m : Nat) (f : Peer → Peer) (s : State) : State :=
  if isthmus then onPair (fun p => { p with isthmus := f p.isthmus }) s else onPeer m f s
def linkPeer (isthmus : Bool) (s : State) (m : Nat) : Option Peer := if isthmus then some s.pair.isthmus else peerOf s m

/-- A plain datagram (R371). -/
def plainOut (isthmus : Bool) (m kind session : Nat) (body : Bytes) (s : State) : State :=
  let d := outerHeader kind session 0 body.length ++ body
  if isthmus then emit (.isthmus d) s
  else
    let a := addressOf s m
    emit (.datagram a.1 a.2 d) s

/-! ### Certificates (R368, R388) -/

/-- UTC seconds now. -/
def utcSec (s : State) : Int := taiSec s - utcOffset s

/-- A peer's certificate is accepted. A member that joins knows the designated member before it holds a directory (log 36). -/
def certGood (isthmus : Bool) (c : Cert) (s : State) : Bool :=
  (s.opt.authority.any (fun k => ecdsaVerify k c.tbs c.sigR c.sigS)) &&
  (!clockOk || ((c.notBefore : Int) ≤ utcSec s && utcSec s ≤ (c.notAfter : Int))) &&
  (if isthmus then
     c.member == s.arch.member && (s.pair.cfg.any (fun p => p.partner == 0 || p.partner == c.unit))
   else c.member != s.arch.member &&
     ((dirOf s c.member).any (fun e => e.state ≤ 1) || ((dirOf s c.member).isNone && c.member == s.arch.set.designated)))
where
  clockOk : Bool := clockValid s

/-! ### Handshake bodies (R369) -/

/-- The common part of HELLO and HELLO_REPLY. -/
def helloBody (member rx : Nat) (nonce : Bytes) (pub : Nat × Nat) (cert : Bytes) : Bytes :=
  toBE 2 member ++ toBE 2 rx ++ nonce ++ pointBytes pub ++ [0, 0, 0] ++ toBE 2 cert.length ++ cert

def helloRx (b : Bytes) : Nat := beNat (slice b 2 2)
def helloPoint (b : Bytes) : Option (Nat × Nat) := pointOf (slice b 36 97)
/-- A HELLO_REPLY body without its signature. -/
def helloPlain (b : Bytes) : Bytes := b.take (138 + beNat (slice b 136 2))

/-- A number below the order, not 0, from the TRNG. -/
def drawScalar (s : State) : Nat := (Config.trng s.free).toNat % (p384N - 1) + 1

/-- A SESSION_ID of this module; 0 stands for HELLO. -/
def nextRx (n : Nat) : Nat := if n + 1 = 65536 then 1 else n + 1

/-- What this module says in a HELLO or HELLO_REPLY: the body, its scalar, its RX_SESSION. None without a certificate or a device key. -/
def ownHello (s : State) : Option (Bytes × Nat × Nat × State) :=
  match s.opt.cert, deviceScalar s with
  | some c, some _ =>
    let eph := drawScalar s
    let s := useFree s
    let nonce := toLE 32 (Config.trng s.free).toNat
    let rx := s.arch.nextSession
    let s := useFree (onArch (fun a => { a with nextSession := nextRx a.nextSession }) s)
    some (helloBody s.arch.member rx nonce (ecPub eph) c, eph, rx, s)
  | _, _ => none

/-- A signature over the concatenation whose digest is H. -/
def signH (m : Bytes) (s : State) : Bytes × State :=
  let g := ecdsaSign ((deviceScalar s).getD 1) (Config.trng s.free).toNat m
  (toBE 48 g.1 ++ toBE 48 g.2, useFree s)

/-- The 72 bytes of key material. -/
def sessionKeys (m z : Bytes) : Bytes := hkdf384 (sha384 m) z (ascii "urrauf 1") 72

def sessionOf (initiator : Bool) (k : Bytes) (tx rx now : Nat) : Session :=
  let i := slice k 0 32
  let r := slice k 32 32
  let si := slice k 64 4
  let sr := slice k 68 4
  { txId := tx, rxId := rx, txKey := if initiator then i else r, rxKey := if initiator then r else i,
    txSalt := if initiator then si else sr, rxSalt := if initiator then sr else si, txSeq := 0, rxHigh := 0, rxSet := [],
    since := now, rxAt := now, txAt := now }

/-! ### The three datagrams -/

/-- ARCH_SET takes effect at the next session opened (17, commands). -/
def adoptArch (isthmus : Bool) (s : State) : State := if isthmus then s else onArch (fun a => { a with set := s.opt.arch }) s

/-- A handshake begins with HELLO. -/
def startHandshake (isthmus : Bool) (m : Nat) (s : State) : State :=
  let s := adoptArch isthmus s
  if (if isthmus then laneOpen s else engineOpen s && m != s.arch.member) then
    match ownHello s with
    | none => s
    | some (b, eph, rx, s) =>
      let h : Handshake :=
        { initiator := true, rxId := rx, peerRx := 0, hello := b, eph := eph, since := s.now, ready := none, h := [], pubX := 0, pubY := 0 }
      plainOut isthmus m 1 0 b (onLink isthmus m (fun p => { p with hs := some h, retryAt := none }) s)
  else s

/-- A HELLO is answered. -/
def answerHello (h : Hello) (s : State) : State :=
  let s := adoptArch h.isthmus s
  let m := h.cert.member
  if !(if h.isthmus then laneOpen s else engineOpen s) || !certGood h.isthmus h.cert s then s
  else
    match helloPoint h.body, ownHello s with
    | some pub, some (b, eph, rx, s) =>
      let text := h.body ++ b
      let k := sessionKeys text (ecdh eph pub)
      let peerRx := helloRx h.body
      let hs : Handshake :=
        { initiator := false, rxId := rx, peerRx := peerRx, hello := b, eph := eph, since := s.now,
          ready := some (sessionOf false k peerRx rx s.now), h := text, pubX := h.cert.pubX, pubY := h.cert.pubY }
      let g := signH text s
      plainOut h.isthmus m 2 peerRx (b ++ g.1) (onLink h.isthmus m (fun p => { p with resp := some hs }) g.2)
    | _, _ => s

/-- The designated member keeps the directory's STATE and tells of each change (R365, R385). -/
def noteEntry (m st : Nat) (s : State) : State :=
  if !isDesignated s then s
  else
    match dirOf s m with
    | none => s
    | some e =>
      if e.state = st then s
      else
        let e := { e with state := st }
        tellDirectory [e] (onArch (fun a => { a with dir := modWhere (fun x => x.member == m) (fun _ => e) a.dir }) s)

/-- PEER state 0 Down, 1 Up, 2 Leaving: MEMBER_CHANGE at each change (R386). -/
def setPeerState (m st : Nat) (s : State) : State :=
  let old := ((peerOf s m).map (·.state)).getD 0
  if old = st then s else noteEntry m st (raise 60 (m + 4096 * st) (onPeer m (fun p => { p with state := st }) s))

/-- A session is Up: it takes the place of the one before, which receives for 10 s more (R370). -/
def sessionIsUp (isthmus : Bool) (m : Nat) (e : Session) (s : State) : State :=
  let e := { e with since := s.now, rxAt := s.now, txAt := s.now }
  let s := onLink isthmus m (fun p => { p with session := some e, old := p.session, retryAt := none }) s
  let s := statArch 5 s
  if isthmus then s else setPeerState m 1 s

/-- A HELLO_REPLY is verified, CONFIRM is sent: true where the session is Up. -/
def takeReply (h : Hello) (s : State) : Bool × State :=
  let m := h.cert.member
  match (linkPeer h.isthmus s m).bind (·.hs) with
  | none => (false, s)
  | some hs =>
    let plain := helloPlain h.body
    let text := hs.hello ++ plain
    match helloPoint h.body with
    | none => (false, s)
    | some pub =>
      if !certGood h.isthmus h.cert s || !ecdsaVerify (h.cert.pubX, h.cert.pubY) text h.sigR h.sigS then (false, s)
      else
        let k := sessionKeys text (ecdh hs.eph pub)
        let g := signH text s
        let s := plainOut h.isthmus m 3 (helloRx h.body) g.1 (onLink h.isthmus m (fun p => { p with hs := none }) g.2)
        (true, sessionIsUp h.isthmus m (sessionOf true k (helloRx h.body) hs.rxId s.now) s)

/-- A CONFIRM is verified: true where the session is Up. -/
def takeConfirm (isthmus : Bool) (m r t : Nat) (s : State) : Bool × State :=
  match (linkPeer isthmus s m).bind (·.resp) with
  | none => (false, s)
  | some hs =>
    match hs.ready with
    | some e =>
      if ecdsaVerify (hs.pubX, hs.pubY) hs.h r t then
        (true, sessionIsUp isthmus m e (onLink isthmus m (fun p => { p with resp := none }) s))
      else (false, s)
    | none => (false, s)

/-- A peer's session is closed (R386). -/
def closeSession (m : Nat) (s : State) : State :=
  setPeerState m 0 (onPeer m (fun p => { p with session := none, old := none, hs := none, resp := none }) s)

/-! ### Sessions that a member keeps (R363, R385, R387) -/

/-- The designated member, the remote host, the ledger homes of its meters; a hub keeps one with every member of the directory. -/
def wantedPeers (s : State) : List Nat :=
  let homes := (s.db.entries.filter (fun p => !p.2.homeSelf && !p.2.retired)).map (·.2.home)
  let dir := if s.arch.role = 2 then s.arch.dir.map (·.member) else []
  let own := [s.arch.set.designated] ++ (if remoteHosted s then [s.arch.set.remoteHost] else []) ++ homes ++ dir
  (own.eraseDups).filter (fun m => m != s.arch.member)

/-- Opens the sessions that are wanted and not Up; one with a relay stands for those behind it (R366). -/
def openSessions (s : State) : State :=
  let s := adoptArch false s
  (((wantedPeers s).map (hopOf s)).eraseDups).foldl (fun s m =>
    match peerOf s m with
    | some p => if p.session.isSome || p.hs.isSome then s else startHandshake false m s
    | none => startHandshake false m s) s

end Sys2Proof.Machine
end

