-- ==== Sys2Proof/Machine/Pair.lean ====
section
/-! DEFINITION. The redundant pair (chapter 18): the lease and its timers, taking and leaving the token, the standby's health, the mirrored
journal, catch-up, and the commands 0x78 to 0x7C. -/
namespace Sys2Proof.Machine
open Sys2Proof

/-! ### The lease timers (R390) -/

/-- The resonator's rate as the lease timers see it, within 200 ppm (R390): a free value. -/
def leasePpb : Int := clampInt (-200000) 200000 Config.resonator

/-- Cycles of the 32.768 kHz resonator since an instant. -/
def cyclesSince (s : State) (t : Nat) : Nat := (s.now - t) * 32768 * (1000000000 + leasePpb).toNat / 10 ^ 18

/-- The least time that holds n such cycles, ns. -/
def cyclesNs (n : Nat) : Nat :=
  let r := 32768 * (1000000000 + leasePpb).toNat
  if r = 0 then 0 else (n * 10 ^ 18 + r - 1) / r

def leaseCyc (c : PairCfg) : Nat := c.lease * 32768 / 1000
def guardCyc (c : PairCfg) : Nat := (c.guard_ * 32768 + 999) / 1000

/-! ### Health (R399, R401) -/

/-- The module's HEALTH word is formed anew; PAIR_HEALTH at a change of the standby's eligibility. -/
def refreshHealth (s : State) : State :=
  let h := ownHealth s
  let was := s.pair.eligOwn
  let s := onPair (fun p => { p with health := h, eligOwn := eligible h }) s
  if s.pair.st == .standby && was != eligible h then raise 35 (s.pair.partner + 32768 * b2n s.pair.sync) s else s

/-- The standby's report reaches the holder. -/
def partnerReport (h : Nat) (s : State) : State :=
  let was := s.pair.eligPartner
  let s := onPair (fun p => { p with partner := h, eligPartner := eligible h }) s
  if was != eligible h then raise 35 (h + 32768 * b2n s.pair.sync) s else s

/-! ### Taking the token (R392, R394, R407) -/

/-- Every valve command in flight is sent again with its CMD_SEQ (R262, R407 step 4). -/
def resendValves (s : State) : State :=
  (s.db.valves.filter (fun p => p.2.flight.isSome)).foldl (fun s p => transmitValve p.1 (bodyOfShort s p.1) s) s

/-- The steps of R407, in order; a renewal is due at once. -/
def takeTokenIn (st : PairState) (s : State) : State :=
  let s := onPair (fun p => { p with takeover := none, leaseAt := some s.now, renewAt := none, renews := [], owesRelease := false, sync := false }) s
  let s := openSessions (setPairState st (statPair 2 s))
  ledgerResumed (deliverAll (redeliver (fun _ => true) (resendValves s)))

def takeToken (s : State) : State := takeTokenIn (if isthmusUp s then .active else .solo) s

/-- LEASE_RX has been low for n cycles without a break. -/
def lowFor (s : State) (n : Nat) : Bool := !s.pair.leaseRx && n ≤ cyclesSince s s.pair.leaseRxAt

/-- The standby opens its gate where the three conditions of R392 hold. -/
def tryTake (s : State) : State :=
  let s := refreshHealth s
  match s.pair.takeover with
  | some (t, cyc, g) =>
    if s.pair.st == .standby && isUp s 11 && cyc ≤ cyclesSince s t && lowFor s g && s.pair.eligOwn then takeToken s else s
  | none => s

/-! ### The journal of a standby (R402, R406, R422) -/

/-- Records held, oldest first. -/
def allRecs (s : State) : List JRec := s.jr.flash ++ s.jr.cut.getD [] ++ s.jr.commit.getD [] ++ s.jr.open_

/-- What the standby knows of the partner's keys (R400). -/
def notePartnerKey (r : JRec) (s : State) : State :=
  match r.body with
  | .keyState 1 _ _ _ | .keyState 3 _ _ _ => onPair (fun p => { p with partnerKeys := if p.partnerKeys.contains r.short then p.partnerKeys else p.partnerKeys ++ [r.short] }) s
  | .keyState 4 _ _ _ => onPair (fun p => { p with partnerKeys := p.partnerKeys.filter (· != r.short) }) s
  | .keyState 5 _ _ _ => onPair (fun p => { p with partnerKeys := [] }) s
  | _ => s

/-- The record as the standby keeps it: a KEY_STATE record is marked as the partner's. -/
def mirroredRec (r : JRec) : JRec :=
  match r.body with
  | .keyState a f c _ => { r with body := .keyState a (setBit f mirroredKey) c [] }
  | _ => r

/-- An enrolled or purged meter in the standby's live table. -/
def mirrorPlace (r : JRec) (s : State) : State :=
  match r.body with
  | .table _ true => freePlace r.short s
  | .table e false =>
    if (entryOf s r.short).isSome then s
    else match placeFor s r.short e.id with
      | some m => notePressure (onTbl (fun t => { t with slots := t.slots ++ [m] }) s)
      | none => s
  | _ => s

/-- What durability releases on the standby. -/
def mirrorWait (r : JRec) (s : State) : State :=
  match r.body with
  | .posting _ => whenDurable (.posted r) s
  | .calCross cal count instant _ => whenDurable (.calKept cal count ((instant : Int) / 1000000000)) s
  | _ => s

/-- One record of the holder is applied as replay does and appended. -/
def acceptRec (r : JRec) (s : State) : State :=
  let s := notePartnerKey r (mirrorPlace r s)
  let r := mirroredRec r
  let s := { s with
    db := replayRec s.db r
    jr := { s.jr with next := s.jr.next + 1, open_ := s.jr.open_ ++ [r] }
    fl := { s.fl with cpJournal := s.fl.cpJournal + recLen r } }
  mirrorWait r (onPair (fun p => { p with acked := max p.acked r.seq }) s)

/-- CATCHUP_REQ (R406). -/
def requestFrom (n : Nat) (s : State) : State := isthmusSend 0x86 (toBE 8 n) (onPair (fun p => { p with catchup := true }) s)

/-- The records of JOURNAL, in SEQ order; one that does not follow asks for the stream again. -/
def acceptAll (rs : List JRec) (s : State) : State :=
  rs.foldl (fun s r => if r.seq = s.jr.next then acceptRec r s else if r.seq < s.jr.next || s.pair.catchup then s else requestFrom s.jr.next s) s

/-- The structures as they were after record n: the newest kept root at or before it, and the records between (R241). -/
def rollbackDb (n : Nat) (s : State) : Option Db :=
  (s.fl.roots.find? (fun r => r.good && r.j ≤ n)).map (fun root =>
    ((allRecs s).filter (fun r => root.j < r.seq && r.seq ≤ n)).foldl replayRec root.image)

/-- Records beyond n do not exist on the holder: they are discarded (R406). -/
def discardBeyond (n : Nat) (s : State) : State :=
  let lost := lastSeq s - n
  let keep := fun l : List JRec => l.filter (fun r => r.seq ≤ n)
  let db := (rollbackDb n s).getD Db.reset
  let s := { s with
    db := db
    jr := { s.jr with next := n + 1, open_ := keep s.jr.open_, commit := s.jr.commit.map keep, cut := s.jr.cut.map keep, flash := keep s.jr.flash,
                      programmed := min n s.jr.programmed, durable := min n s.jr.durable
                      waits := s.jr.waits.filter (fun w => w.1 ≤ n && (match w.2 with | .apply _ => false | _ => true)) }
    fl := { s.fl with log := s.fl.log.filter (fun e => e.seq ≤ n), lostRec := s.fl.lostRec.filter (· ≤ n) }
    lg := { s.lg with folds := keep s.lg.folds }
    tbl := { s.tbl with slots := buildSlots s.tbl.hashRoot s.tbl.epoch db.entries } }
  let s := notePressure s
  (List.range lost).foldl (fun s _ => statPair 6 s) s

/-- The last of its records that also exists on the holder is known to the two journals alone: a free value (log 5). No record before the
oldest kept root can be given back; then all are. -/
def commonSeq (s : State) : Nat :=
  let n := min (lastSeq s) (Config.freeNat s.free)
  if n = lastSeq s || (rollbackDb n s).isSome then n else 0

/-- A module joins the holder as standby (R406). -/
def joinStandby (s : State) : State :=
  let n := commonSeq s
  let s := useFree (onPair (fun p => { p with joined := true }) s)
  requestFrom (n + 1) (if n < lastSeq s then discardBeyond n s else s)

/-- Catch-up has reached the live records (R399 bit 6, R406). The holder's ledger has no outage of this module (R240; log 104). -/
def caughtUp (holderSeq : Nat) (s : State) : State :=
  if holderSeq ≤ lastSeq s then onLg (fun l => { l with outStart := none, outRest := none }) (onPair (fun p => { p with catchup := false }) s) else s

/-! ### The isthmus (R388, R393 to R395) -/

/-- A takeover timer from the module's own values: it heard no RENEW that gives others (log 38). -/
def ownTimer (s : State) : State :=
  match s.pair.cfg with
  | some c => onPair (fun p => { p with takeover := some (s.now, leaseCyc c + guardCyc c, guardCyc c) }) s
  | none => s

/-- The isthmus session has come Up. -/
def isthmusCameUp (s : State) : State :=
  let first := !s.pair.wasUp
  let s := refreshHealth (onPair (fun p => { p with wasUp := true, joined := false }) s)
  if holdsToken s then
    if s.pair.leaseRx && positionB s then setPairState .standby (onPair (fun p => { p with leaseAt := none, renews := [], sync := false }) s)
    else setPairState .active (onPair (fun p => { p with leaseAt := some s.now, renewAt := none, renews := [] }) s)
  else
    let s := setPairState .standby s
    if s.pair.leaseRx then joinStandby s
    else if first && !positionB s && s.pair.eligOwn then takeToken s
    else ownTimer s

/-- ISTHMUS_TRAINED (R388). -/
def execIsthmusTrained (s : State) : Out :=
  .next <|
    if s.pair.trained || s.pair.cfg.isNone || !isUp s 11 || s.rs.phase < 6 then s
    else startHandshake true s.arch.member (onPair (fun p => { p with trained := true }) s)

/-- ISTHMUS_DOWN: the session is lost, with the lane or on a lane that stays trained. With the lane trained the lease wire is intact, and
LEASE_RX low shows the partner's gate closed (R393): Active becomes Solo. With the lane lost the holder cannot tell a dead partner from a cut
cable: its lease runs on (log 38). -/
def execIsthmusDown (lane : Bool) (s : State) : Out :=
  .next <|
    if (if lane then !s.pair.trained else !isthmusUp s) then s
    else
      let s := if isthmusUp s then statPair 7 s else s
      let s := onPair (fun p =>
        { p with trained := p.trained && !lane, joined := false
                 isthmus := { p.isthmus with session := none, old := none, hs := none, resp := none, out := [] } }) s
      if s.pair.st == .active && !lane && !s.pair.leaseRx then setPairState .solo (onPair (fun p => { p with leaseAt := some s.now }) s) else s

/-- Something has arrived on the isthmus. -/
def isthmusHeard (s : State) : State :=
  onPair (fun p => { p with isthmus := { p.isthmus with session := p.isthmus.session.map (fun e => { e with rxAt := s.now }) } }) s

/-- A message of the isthmus is processed while PAIR runs and the session is Up. -/
def onIsthmus (f : State → State) (s : State) : State := if isUp s 11 && isthmusUp s then f (isthmusHeard s) else s

/-! ### Renewal (R391, R392, R395) -/

/-- LEASE, GUARD and MIRROR_TMO as last written: the holder applies them from its next RENEW. -/
def newTimes (s : State) (c : PairCfg) : PairCfg :=
  match s.pairStore.selected with
  | some p => { c with lease := p.body.lease, guard_ := p.body.guard_, mirrorTmo := p.body.mirrorTmo }
  | none => c

/-- RENEW_SEND: every LEASE/4. -/
def execRenewSend (s : State) : Out :=
  .next <|
    match s.pair.cfg with
    | none => s
    | some c =>
      if !holdsToken s || !isUp s 11 then s
      else
        let s := match s.pair.renewAt with
          | some t => passTo (t + c.lease * msNs / 4) s
          | none => s
        let c := newTimes s c
        let no := (s.pair.renewNo + 1) % 2 ^ 32
        let s := if s.pair.renews.any (fun r => r.1 == s.pair.renewNo) then statPair 1 s else s
        let s := isthmusSend 0x80 (toBE 4 no ++ toBE 2 (leaseCyc c) ++ toBE 2 (guardCyc c) ++ toBE 8 (lastSeq s)) (statPair 0 s)
        onPair (fun p =>
          { p with cfg := some c, renewNo := no, renewAt := some s.now
                   renews := if isthmusUp s then p.renews ++ [(no, s.now)] else p.renews
                   leaseAt := if p.st == .solo then some s.now else p.leaseAt }) s

/-- RENEW_RX: the standby restarts its timer with the values of the RENEW and answers with its HEALTH. -/
def execRenewRx (renewNo leaseCyc guardCyc lastSeq : Nat) (s : State) : Out :=
  .next <| onIsthmus (fun s =>
    if s.pair.st != .standby then s
    else
      let s := onPair (fun p => { p with takeover := some (s.now, leaseCyc + guardCyc, guardCyc), partnerSeq := lastSeq }) s
      let s := if s.pair.joined then caughtUp lastSeq s else joinStandby s
      let s := refreshHealth s
      isthmusSend 0x81 (toBE 4 renewNo ++ toBE 4 s.pair.health) s) s

/-- RENEW_ACK_RX: in time, it restarts the lease timer from the instant its RENEW was sent. -/
def execRenewAckRx (renewNo health : Nat) (s : State) : Out :=
  .next <| onIsthmus (fun s =>
    match s.pair.cfg, s.pair.renews.find? (fun r => r.1 == renewNo) with
    | some c, some (_, t) =>
      if !holdsToken s || !s.pair.leaseAt.any (fun l => cyclesSince s l < leaseCyc c) then s
      else
        let s := onPair (fun p => { p with leaseAt := some t, renews := p.renews.filter (fun r => t < r.2) }) s
        let s := partnerReport health s
        let s := if c.sync && s.pair.st == .active && bit health 6 then onPair (fun p => { p with sync := true }) s else s
        if s.pair.owesRelease && eligible health then releaseToken s else s
    | _, _ => s) s

/-- LEASE_EXPIRE: the gate closes and LEASE_TX falls without any act of firmware (R391). -/
def execLeaseExpire (s : State) : Out :=
  .next <|
    match s.pair.cfg, s.pair.leaseAt with
    | some c, some t =>
      if holdsToken s then
        let s := passTo (t + cyclesNs (leaseCyc c)) s
        setPairState (if isthmusUp s then .standby else .fenced) (onPair (fun p => { p with leaseAt := none, renews := [], owesRelease := false, sync := false }) s)
      else s
    | _, _ => s

/-- TAKEOVER_TIMER_EXPIRE (R392). -/
def execTakeoverTimerExpire (s : State) : Out :=
  .next <|
    match s.pair.takeover with
    | some (t, cyc, g) =>
      if s.pair.st != .standby || s.pair.leaseRx then tryTake s
      else tryTake (passTo (s.pair.leaseRxAt + cyclesNs g) (passTo (t + cyclesNs cyc) s))
    | none => tryTake s

/-- LEASE_RX_CHANGE: a change restarts the guard count; the same level again completes it (R392). -/
def execLeaseRxChange (level : Bool) (s : State) : Out :=
  .next <|
    if level == s.pair.leaseRx then tryTake s else onPair (fun p => { p with leaseRx := level, leaseRxAt := s.now }) s

/-- RELEASE_RX: with LEASE_RX low the standby opens its gate without waiting for its timer (R396); one that is not eligible, or still sees
LEASE_RX high, does so as soon as it may. -/
def execReleaseRx (lastSeq : Nat) (s : State) : Out :=
  .next <| onIsthmus (fun s =>
    if s.pair.st != .standby then s
    else tryTake (onPair (fun p => { p with takeover := some (s.now, 0, 0), partnerSeq := lastSeq }) s)) s

/-! ### Mirroring (R402 to R406) -/

/-- JOURNAL_RX. -/
def execJournalRx (records : List JRec) (s : State) : Out :=
  .next <| onIsthmus (fun s =>
    if s.pair.st != .standby || !ledgerUp s then s
    else
      let s := acceptAll records s
      let s := if 0 < s.pair.partnerSeq then caughtUp s.pair.partnerSeq s else s
      isthmusSend 0x84 (toBE 8 (lastSeq s)) s) s

/-- JOURNAL_ACK_RX. -/
def execJournalAckRx (seq : Nat) (s : State) : Out :=
  .next (onIsthmus (fun s => if holdsToken s then mirrorAck (min seq (lastSeq s)) s else s) s)

/-- MIRROR_TMO_EXPIRE: synchronous mode is left (R403). -/
def execMirrorTmoExpire (s : State) : Out :=
  .next <|
    match s.pair.cfg with
    | none => s
    | some c =>
      match (if s.pair.sync then s.pair.waitAcks.head? else none) with
      | some w =>
        let s := passTo (w.2 + c.mirrorTmo * msNs) s
        let s := statPair 5 (onPair (fun p => { p with sync := false, waitAcks := [] }) s)
        let s := if mayAppend s then appendGlobal 11 0 (.config (.mirror false)) s else s
        advanceDurable (raise 35 s.pair.partner s)
      | none => s

/-- CONFIRMED_RX (R405). -/
def execConfirmedRx (seqs : List Nat) (s : State) : Out :=
  .next (onIsthmus (fun s => if s.pair.st == .standby then settleLog (fun e => seqs.contains e.seq) s else s) s)

/-- Records go to the partner, one JOURNAL message each. -/
def streamOut (rs : List JRec) (s : State) : State := rs.foldl (fun s r => emit (.journal [r] (recBytes r)) (isthmusNumbers s)) s

/-- CATCHUP_REQ_RX (R406). -/
def execCatchupReqRx (fromSeq : Nat) (s : State) : Out :=
  .next <| onIsthmus (fun s =>
    if !holdsToken s then s
    else
      let rs := allRecs s
      let first := (rs.head?.map (·.seq)).getD s.jr.next
      match s.fl.roots.head? with
      | some root =>
        if fromSeq < first then streamOut (rs.filter (fun r => root.j < r.seq)) (emit (.image root.n) (isthmusNumbers s))
        else streamOut (rs.filter (fun r => fromSeq ≤ r.seq)) s
      | none => streamOut (rs.filter (fun r => fromSeq ≤ r.seq)) s) s

/-- Each module learns from its own hearing (R148): of the holder's entries a standby takes all but what learning sets. -/
def ownRoutes (own holder : Tab MEntry) : Tab MEntry :=
  holder.map (fun p => (p.1, match Tab.get own p.1 with
    | some x => mergeEntry (some x) p.2
    | none => { p.2 with link := if p.2.pinned then p.2.link else 15, altLink := 15, altQuality := -128, switches := 0, linkHeard := 0 }))

/-- CATCHUP_CHECKPOINT_RX: the holder's copy is loaded before the stream; wrapped keys stay the module's own (R400, R406). -/
def execCatchupCheckpointRx (n j q : Nat) (image : Db) (s : State) : Out :=
  .next <| onIsthmus (fun s =>
    if s.pair.st != .standby || !s.pair.catchup || !ledgerUp s then s
    else
      let db := { image with keys := s.db.keys, entries := ownRoutes s.db.entries image.entries }
      let s := onPair (fun p => { p with partnerKeys := (image.keys.filter (fun k => k.2.current.isSome)).map (·.1), acked := max p.acked j }) s
      notePressure { s with
        db := db
        jr := { s.jr with next := j + 1, open_ := [], commit := s.jr.commit.map (fun _ => []), cut := none, flash := [], programmed := j, durable := j,
                          waits := [] }
        lg := { s.lg with folds := [] }
        fl := { s.fl with roots := [{ n := n, j := j, s := q, image := db, good := true, copyGood := true }] }
        tbl := { s.tbl with slots := buildSlots s.tbl.hashRoot s.tbl.epoch db.entries } }) s

/-! ### Commands (class 0x78) -/

def pairBody (b : Bytes) : PairCfg :=
  { pairId := u64 b 0, sync := u8 b 8 == 0, lease := u16 b 10, guard_ := u16 b 12, mirrorTmo := u16 b 14, partner := leNat (slice b 16 12) }

/-- The first byte of the body that is out of range (R389); the sum is charged to LEASE (log 38). -/
def pairFault (b : Bytes) : Option Nat :=
  let c := pairBody b
  (checkFaults [(c.pairId != 0, 0), (u8 b 8 ≤ 1, 8), (inRange c.lease 100 800 && c.lease + c.guard_ ≤ 880, 10), (inRange c.guard_ 10 100, 12),
    (inRange c.mirrorTmo 1 100, 14)]).min?

/-- PAIR_SET (R389): the record is written; it takes effect as the chapter's commands lay down. -/
def execPairSet (d : Nat) (s : State) : Out :=
  .next (hostCmd 0x78 d (fun b => [addrCheck b 24 16]) (fun x s =>
    let b := x.input.getD []
    match pairFault b with
    | some o => finish d 0x32 o [] s
    | none => finishOk d [] { s with pairStore := s.pairStore.write (macRootNow s) (pairBody b) }) s)

/-- A command of a module that is a pair member. -/
def pairedCmd (op d : Nat) (checks : Bytes → List Check) (f : State → State) (s : State) : State :=
  hostCmd op d checks (fun _ s => if s.pair.cfg.isNone then finish d 0x30 0 [] s else f s) s

/-- PAIR_SWITCH (R397, R401). -/
def execPairSwitch (d : Nat) (s : State) : Out :=
  .next (pairedCmd 0x79 d (fun _ => []) (fun s =>
    if !holdsToken s then finish d 0x33 0 [] s
    else if !eligible s.pair.partner || !bit s.pair.partner 7 then finish d 0x31 0 [] s
    else finishOk d [] (releaseToken s)) s)

/-- PAIR_FORCE: the token in Solo, whatever the timers and eligibility. -/
def execPairForce (d : Nat) (s : State) : Out :=
  .next (pairedCmd 0x7A d (fun b => [(bit (u8 b 16) 0, 16)]) (fun s =>
    if s.pair.leaseRx then finish d 0x34 0 [] s
    else
      let s := if holdsToken s then s else takeTokenIn .solo s
      finishOk d (toLE 1 (pairNo s.pair.st)) s) s)

/-- PAIR_HEALTH_READ. -/
def execPairHealthRead (d : Nat) (s : State) : Out :=
  .next (pairedCmd 0x7B d (fun _ => []) (fun s =>
    let s := refreshHealth s
    finishOk d (toLE 4 s.pair.health ++ toLE 4 s.pair.partner ++ toLE 4 (pairLag s)) s) s)

/-- PAIR_STATS. -/
def execPairStats (d : Nat) (s : State) : Out :=
  .next (statsCmd 0x7C d 64 (fun s => s.pair.stats) (fun s => cntClear 10 (onPair (fun p => { p with stats := List.replicate 8 0 }) s)) (fun _ => []) s)

end Sys2Proof.Machine
end

