-- ==== Sys2Proof/Machine/Recorder.lean ====
section
/-! DEFINITION. Chapter 22: recorder channels, freeze and thaw, generations, the recorder window, CNT_SAT, background activities, and the
commands 0x43 to 0x4B. -/
namespace Sys2Proof.Machine
open Sys2Proof

/-! ### Channels (R475, R476) -/

def recChannels : Nat := 30

/-- BASE and STEP of a channel. -/
def recScale (ch : Nat) : Int × Nat :=
  match ch with
  | 0 => (-40, 12)
  | 1 => (-40, 10)
  | 2 => (-30, 10)
  | 3 => (100, 12)
  | 4 => (220, 10)
  | 18 => (10, 10)
  | 19 | 20 | 21 => (0, 3)
  | 22 | 23 => (-120, 6)
  | 24 => (200, 100)
  | 25 => (20, 10)
  | 26 => (1, 4)
  | 27 => (10, 10)
  | 28 => (10, 6)
  | 29 => (1000, 1500)
  | _ => (2, 2)

def recBin (ch : Nat) (v : Int) : Nat :=
  let c := recScale ch
  if v < c.1 then 0 else min 15 ((v - c.1) / c.2 + 1).toNat

/-- The island that a channel measures; 0: HOLM. -/
def recIsland (ch : Nat) : Nat :=
  if inRange ch 5 17 then ch - 4
  else match ch with
    | 2 | 25 => 3
    | 19 | 20 | 21 => 12
    | 22 | 23 => 13
    | 24 | 29 => 8
    | 27 => 11
    | 28 => 9
    | _ => 0

/-- The sample's value: what the state holds, else what was measured. -/
def recValue (s : State) (ch : Nat) (v : Int) : Int :=
  if inRange ch 5 17 then (islOf s (ch - 4)).grant
  else if ch = 18 then ((s.isl.map (·.grant)).sum : Nat)
  else if ch = 26 then s.tel.fixed
  else if ch = 28 then sharePercent s s.sch.busy.sum
  else if ch = 29 then s.lg.posted
  else v

/-- One sample enters an accumulator. -/
def recSample (ch : Nat) (v : Int) (now : Nat) (invalid : Bool) (c : RecCh) : RecCh :=
  let k := recBin ch v
  let first := c.fresh
  let newMin := first || c.min.all (fun m => v < m.1)
  let newMax := first || c.max.all (fun m => m.1 < v)
  { c with
    samples := c.samples + 1
    bins := bumpAt c.bins k
    binStopped := c.binStopped || stuckAt c.bins k
    min := if newMin then some (v, now, invalid) else c.min
    max := if newMax then some (v, now, invalid) else c.max
    fresh := false }

/-- RECORDER_EXTREME for what changed between two states of a channel. -/
def recExtreme (ch : Nat) (old new : RecCh) (s : State) : State :=
  let s := if new.min != old.min && new.min.any (fun m => recBin ch m.1 == 0) then raise 62 ch s else s
  if new.max != old.max && new.max.any (fun m => recBin ch m.1 == 15) then raise 62 ch s else s

def liveCh (s : State) (ch : Nat) : RecCh := s.tel.live.getD ch RecCh.empty

/-- A live copy changes: stopped bins and extremes are noted. -/
def setLive (ch : Nat) (c : RecCh) (s : State) : State :=
  let old := liveCh s ch
  let s := onTel (fun r => { r with live := setAt r.live ch c }) s
  recExtreme ch old c (cntSat 15 (c.binStopped && !old.binStopped) s)

/-- RECORDER_SAMPLE: into the live copy, or while frozen into the shadow. No sample is taken while the measured island does not run. -/
def execRecorderSample (ch : Nat) (v : Int) (s : State) : Out :=
  .next <|
    if recChannels ≤ ch || !isUp s 1 || !isUp s (recIsland ch) then s
    else
      let x := recValue s ch v
      let s := if ch = 29 then onLg (fun l => { l with posted := 0 }) s else s
      let s := if ch = 26 then onTel (fun r => { r with fixed := 0 }) s else s
      let add := recSample ch x (stamp s) (!clockValid s)
      if s.tel.frozen then onTel (fun r => { r with shadow := modAt r.shadow ch add }) s else setLive ch (add (liveCh s ch)) s

/-! ### Freeze and thaw (R479) -/

def addBins (a b : List Nat) : List Nat := (List.range 16).map (fun k => min ctrMax (a.getD k 0 + b.getD k 0))

/-- The shadow joins the live copy. -/
def mergeCh (live shadow : RecCh) : RecCh :=
  let bins := addBins live.bins shadow.bins
  let less := fun (a b : Option (Int × Nat × Bool)) => match a, b with
    | some x, some y => x.1 < y.1
    | some _, none => true
    | none, _ => false
  { samples := live.samples + shadow.samples
    bins := bins
    min := if shadow.min.isSome && (live.fresh || less shadow.min live.min) then shadow.min else live.min
    max := if shadow.max.isSome && (live.fresh || less live.max shadow.max || live.max.isNone) then shadow.max else live.max
    fresh := live.fresh && shadow.min.isNone
    binStopped := live.binStopped || shadow.binStopped || bins.contains ctrMax }

/-- Record bytes (R476). -/
def recordOf (r : RecRec) : Bytes :=
  let c := r.data
  let flags := b2n ((c.min.map (·.2.2)).getD false) + 2 * b2n ((c.max.map (·.2.2)).getD false) + 4 * b2n c.binStopped
  let b := toLE 4 0x52454331 ++ toLE 1 r.channel ++ toLE 1 flags ++ toLE 2 r.generation ++ toLE 5 r.opSeconds ++ [0, 0, 0] ++ toLE 4 r.powerCycles ++
    [0, 0, 0, 0] ++ toLE 8 c.samples ++ (padTo 64 (c.bins.flatMap (toLE 4))) ++ toLE 4 (ofInt 32 ((c.min.map (·.1)).getD 0)) ++
    toLE 4 (ofInt 32 ((c.max.map (·.1)).getD 0)) ++ toLE 8 ((c.min.map (·.2.1)).getD 0) ++ toLE 8 ((c.max.map (·.2.1)).getD 0) ++ [0, 0, 0, 0]
  b ++ toLE 4 (crc32 b).toNat

def liveRec (s : State) (ch : Nat) : RecRec :=
  { channel := ch, generation := s.tel.generation, opSeconds := s.rs.opSeconds, powerCycles := s.rs.powerCycles, data := liveCh s ch }

/-- A flush writes one generation (R477). -/
def flushRecorder (s : State) : State :=
  let g := (s.tel.generation + 1) % 65536
  let s := onTel (fun r => { r with generation := g, bgDone := setAt r.bgDone 10 10000 }) s
  let recs := (List.range recChannels).map (fun ch => (32 * (g % 16) + ch, liveRec s ch))
  onImg (fun i => { i with crit := bumpAt i.crit 0 }) (onTel (fun r => { r with slots := recs.foldl (fun t p => Tab.set t p.1 p.2) r.slots }) s)

/-- The recorder can write its slots: CAPE, MEM and the store serve. -/
def mayFlush (s : State) : Bool := isUp s 1 && isUp s 3 && !s.fl.readOnly

/-- The thaw: the shadow is merged, extremes are raised, and a flush that fell due runs. -/
def thaw (s : State) : State :=
  if !s.tel.frozen then s
  else
    let sh := s.tel.shadow
    let s := onTel (fun r => { r with frozen := false, thawAt := none, shadow := List.replicate 30 RecCh.empty }) s
    let s := (List.range recChannels).foldl (fun s ch => setLive ch (mergeCh (liveCh s ch) (sh.getD ch RecCh.empty)) s) s
    if s.tel.flushDue && mayFlush s then flushRecorder (onTel (fun r => { r with flushDue := false }) s) else s

/-- RECORDER_FLUSH_DUE (R477). -/
def execRecorderFlushDue (s : State) : Out :=
  .next <|
    let s := passOp (3600 * (s.tel.lastHour + 1)) s
    let h := s.rs.opSeconds / 3600
    if !mayFlush s || h ≤ s.tel.lastHour then s
    else
      let s := onTel (fun r => { r with lastHour := h }) s
      if s.tel.frozen then onTel (fun r => { r with flushDue := true }) s else flushRecorder s

/-- RECORDER_THAW_DUE: 10 s after the latest freeze. -/
def execRecorderThawDue (s : State) : Out :=
  .next (match s.tel.thawAt with
    | some t => thaw (passTo t s)
    | none => s)

/-- RECORDER_FREEZE: a freeze while frozen starts the 10 s again. -/
def execRecorderFreeze (d : Nat) (s : State) : Out :=
  .next (hostCmd 0x44 d (fun _ => []) (fun _ s =>
    finishOk d [] (onTel (fun r =>
      { r with frozen := true, thawAt := some (s.now + 10 * secNs), shadow := if r.frozen then r.shadow else List.replicate 30 RecCh.empty }) s)) s)

/-- RECORDER_THAW. -/
def execRecorderThaw (d : Nat) (s : State) : Out := .next (hostCmd 0x45 d (fun _ => []) (fun _ s => finishOk d [] (thaw s)) s)

/-- RECORDER_FLUSH. -/
def execRecorderFlush (d : Nat) (s : State) : Out :=
  .next (hostCmd 0x46 d (fun _ => []) (fun _ s =>
    if s.tel.frozen then finish d 0x21 0 [] s
    else if !mayFlush s then noResource d s
    else
      let s := flushRecorder s
      finishOk d (toLE 2 s.tel.generation) s) s)

/-- RECORDER_EXT_RESET: the next sample of each channel in the mask sets both extremes. -/
def execRecorderExtReset (d : Nat) (s : State) : Out :=
  .next (hostCmd 0x47 d (fun _ => []) (fun x s =>
    let on := fun k => bit (u32 x.bytes 16) k
    finishOk d [] (onTel (fun r =>
      { r with
        live := r.live.zipIdx.map (fun p => if on p.2 then { p.1 with fresh := true } else p.1)
        shadow := r.shadow.zipIdx.map (fun p => if on p.2 then { p.1 with fresh := true, min := none, max := none } else p.1) }) s)) s)

/-! ### Window and reads (R480) -/

/-- A record by its number: a live channel, or a slot; 128 zero bytes where there is none. -/
def recordAt (s : State) (live : Bool) (k : Nat) : Bytes :=
  if live then (if k < recChannels then recordOf (liveRec s k) else List.replicate 128 0)
  else ((Tab.get s.tel.slots k).map recordOf).getD (List.replicate 128 0)

/-- REC_CURSOR_WRITE. -/
def execRecCursorWrite (v : BitVec 32) (s : State) : Out :=
  .next (if regOpen s 1 then
    onTel (fun r => { r with autoInc := v.getLsbD 16, liveSel := v.getLsbD 15, index := v.toNat % 512, loading := true }) s else s)

/-- REC_WINDOW_LOADED: the two records at the cursor. -/
def execRecWindowLoaded (s : State) : Out :=
  .next <|
    if isUp s 1 && s.tel.loading then
      let w := recordAt s s.tel.liveSel s.tel.index ++ recordAt s s.tel.liveSel ((s.tel.index + 1) % 512)
      onTel (fun r => { r with loading := false, window := w }) s
    else s

/-- A read of offset 0x1FC with AUTO_INC. -/
def windowRead (s : State) : State :=
  if regOpen s 1 && s.tel.autoInc then onTel (fun r => { r with index := (r.index + 2) % 512, loading := true }) s else s

/-- REC_WINDOW_AUTO_INC. -/
def execRecWindowAutoInc (s : State) : Out := .next (windowRead s)

/-- REC_STATUS_CLEAR: COUNT_STUCK and COUNT_LOST are W1C (R478). -/
def execRecStatusClear (v : BitVec 32) (s : State) : Out :=
  .next (if regOpen s 1 then
    onTel (fun r => { r with countStuck := r.countStuck && !v.getLsbD 19, countLost := r.countLost && !v.getLsbD 18 }) s else s)

/-- CNT_SAT_CLEAR (R473). -/
def execCntSatClear (v : BitVec 32) (s : State) : Out :=
  .next (if regOpen s 1 then onTel (fun r => { r with cntSat := andNot 16 r.cntSat v.toNat }) s else s)

/-- RECORDER_READ. -/
def execRecorderRead (d : Nat) (s : State) : Out :=
  .next (hostCmd 0x43 d (fun b => [(inRange (u16 b 20) 1 512, 20), addrCheck b 24 64]) (fun x s =>
    let live := bit (u8 x.bytes 16) 0
    let first := u16 x.bytes 18
    let n := min (u16 x.bytes 20) ((if live then recChannels else 512) - first)
    finishOk d (toLE 2 n ++ toLE 2 s.tel.generation)
      (putOut d (u64 x.bytes 24) ((List.range n).flatMap (fun k => recordAt s live (first + k))) s)) s)

/-! ### The error log and counters (R474) -/

/-- ECC_LOG_READ. -/
def execEccLogRead (d : Nat) (s : State) : Out :=
  .next (hostCmd 0x48 d (fun b => logChecks b 64) (fun x s =>
    let from_ := u64 x.bytes 40
    let es := (s.tel.eccLog.filter (fun e => from_ ≤ e.1)).take (u32 x.bytes 32 / 8)
    let next := ((es.getLast?).map (fun e => e.1 + 1)).getD from_
    finishOk d (toLE 4 es.length ++ toLE 8 next) (putOut d (u64 x.bytes 24) (es.flatMap (fun e => toLE 8 e.2.toNat)) s)) s)

/-- The words of ECC_STATS: five kinds per island, then the uncorrectable count per island. -/
def eccWords (s : State) : List Nat :=
  ((List.range 14).flatMap (fun n => (List.range 5).map (fun k => Tab.getD s.fab.corrected (8 * n + k) 0))) ++
    (List.range 14).map (fun n => min ctrMax (((List.range 8).map (fun k => Tab.getD s.fab.uncorrected (8 * n + k) 0)).sum))

/-- ECC_STATS. -/
def execEccStats (d : Nat) (s : State) : Out :=
  .next (statsCmd 0x49 d 512 eccWords (fun s => cntClear 14 (onFab (fun f => { f with corrected := [], uncorrected := [] }) s)) (fun _ => []) s)

/-- ECC_SET. -/
def execEccSet (d : Nat) (s : State) : Out :=
  .next (hostCmd 0x4A d (fun b => [(inRange (u8 b 16) 1 13, 16), (u32 b 20 != 0, 20)]) (fun x s =>
    finishOk d [] (onFab (fun f => { f with eccLimit := setAt f.eccLimit (u8 x.bytes 16) (u32 x.bytes 20) }) s)) s)

/-! ### Background work (R481) -/

/-- Periods of the activities, ns; 0: as needed. -/
def bgPeriod (s : State) (k : Nat) : Nat :=
  match k with
  | 0 => 86400 * secNs
  | 2 => 2592000 * secNs
  | 5 | 10 => 3600 * secNs
  | 6 => secNs
  | 7 => 500 * msNs
  | 8 => 0
  | 9 => if isStandby s then 60 * secNs else 600 * secNs
  | _ => 600 * secNs

/-- The activity has work in the present state: calibration where a phase is in service or a radio enabled, the clock trim while Locked. -/
def bgActive (s : State) (k : Nat) : Bool :=
  match k with
  | 3 => (List.range 3).any (plcInService s)
  | 4 => (List.range 2).any (radioEnabled s)
  | 6 => s.tm.st == 2
  | _ => true

/-- Elapsed fraction of an activity's period in 1/10,000. -/
def bgElapsed (s : State) (k : Nat) : Nat := (s.now - s.tel.bgSince.getD k 0) * 10000 / max 1 (bgPeriod s k)

/-- The activity whose completed fraction falls furthest behind; retraining is MEM's own, wear levelling runs where none is behind. -/
def bgFurthest (s : State) : Nat :=
  let behind := ([0, 1, 2, 3, 4, 5, 6, 9, 10].filter (bgActive s)).foldl (fun (b : Nat × Nat) k =>
    let lag := bgElapsed s k - s.tel.bgDone.getD k 0
    if b.2 < lag then (k, lag) else b) (8, 0)
  behind.1

/-- One unit of the DRAM patrol: read, corrected, written back unless a write of the sound hit it after the read (R24, R25, R27). -/
def scrubUnit (addr : Nat) (e : Ecc) (hit : Bool) (s : State) : State :=
  let unit := addr / 16 * 16
  if dramBytes ≤ unit || s.fab.poison.contains unit then s
  else
    match eccRead e s with
    | (.good, s) => s
    | (.corrected y, s) => eccCorrected 3 2 y (unit / 16) s
    | (.wrong w, s) => if hit then s else onFab (fun f => { f with dram := unitWrite f.dram unit w }) s
    | (.bad, s) =>
      let s := if hit then s else onFab (fun f => { f with poison := unit :: f.poison }) s
      eccUncorrectable 3 2 (unit / 16) s

/-- A change of the kept structures in DRAM and in both kept checkpoints. -/
def everyCopy (f : Db → Db) (s : State) : State :=
  onFl (fun l => { l with roots := l.roots.map (fun r => { r with image := f r.image }) }) (onDb f s)

/-- The tests of a pair's HEALTH word (R399). -/
def healthTest (pass : Bool) (s : State) : State :=
  let now := if pass then some s.now else none
  refreshHealth (onPair (fun p => { p with dramAt := now.or p.dramAt, katAt := now.or p.katAt, flashAt := now.or p.flashAt }) s)

/-- The effect of a sector that is lost (R447), by what it held. A minute or an audit entry goes from the kept checkpoints too. -/
def loseAt (s : State) : FlashLoss → State
  | .root n => onFl (fun f => { f with roots := f.roots.map (fun r => if r.n = n then { r with good := false } else r) }) s
  | .tableCopy n => onFl (fun f => { f with roots := f.roots.map (fun r => if r.n = n then { r with copyGood := false } else r) }) s
  | .record q => onFl (fun f => { f with lostRec := some (min q (f.lostRec.getD q)) }) s
  | .posted q => onFl (fun f => { f with log := f.log.filter (fun e => e.seq != q) }) s
  | .minute ch k =>
    match (Tab.getD s.db.minutes ch [])[k]? with
    | some m => everyCopy (fun db => { db with minutes := Tab.set db.minutes ch ((Tab.getD db.minutes ch []).filter (· != m)) }) s
    | none => s
  | .audit ch k =>
    match (Tab.getD s.db.audits ch [])[k]? with
    | some a => everyCopy (fun db => { db with audits := Tab.set db.audits ch ((Tab.getD db.audits ch []).filter (· != a)) }) s
    | none => s
  | .slot k => onTel (fun t => { t with slots := t.slots.filter (fun p => p.1 != k) }) s

/-- The flash patrol reads a block (R447, R449): each uncorrectable sector of a page is rebuilt or lost; `lost` tells what the lost ones held
(log 109). -/
def patrolBlock (r : BgRun) (s : State) : State :=
  match blockOf s r.die r.block with
  | none => s
  | some b =>
    let s := readWords r.die r.block r.corrected s
    let a := (List.range ((r.corrected.length + 3) / 4)).foldl (fun (a : Bool × State) k =>
      if ((r.corrected.drop (4 * k)).take 4).any (40 < ·) then
        let w := badSector b (k / 4) a.2
        (a.1 || w.1, w.2)
      else a) (false, s)
    if a.1 then r.lost.foldl loseAt a.2 else a.2

/-- What a background item does. -/
def bgWork (k : Nat) (r : BgRun) (s : State) : State :=
  match k with
  | 0 => if isUp s 3 then scrubUnit r.scrubAddr r.scrubErr r.hitByWrite s else s
  | 2 => if isUp s 3 then patrolBlock r s else s
  | 8 => if isUp s 3 && !s.fl.readOnly then wearMove r.die s else s
  | 9 => healthTest r.pass s
  | _ => s

/-- BG_ACTIVITY_DISPATCH: CAPE makes a class B item of the activity furthest behind (R153, R481); its work is done when it is dispatched. Its
key, priority and handler are the firmware's (log 5). -/
def execBgActivityDispatch (r : BgRun) (s : State) : Out :=
  .next <|
    if !isUp s 1 then s
    else
      let s := onTel (fun t => { t with bgDone := (List.range 11).map (fun k => if k = 7 || k = 10 then t.bgDone.getD k 0 else min 10000 (r.progress.getD k 0)) }) s
      let i := { blankItem 1 (Config.freeNat s.free % 8) 0 (Config.freeNat (s.free + 1) % 2 ^ 64) (Config.handler 2 % 256) with noFlow := true, task := .background (bgFurthest s) r }
      createItem i { s with free := s.free + 2 }

/-- BG_PERIOD_END: a period ends; an activity that has not completed is counted, and the next period starts. -/
def execBgPeriodEnd (k : Nat) (s : State) : Out :=
  .next <|
    if 11 ≤ k || !isUp s 1 || bgPeriod s k = 0 then s
    else
      let s := passTo (s.tel.bgSince.getD k 0 + bgPeriod s k) s
      let late := bgActive s k && s.tel.bgDone.getD k 0 < 10000
      onTel (fun t =>
        { t with bgLate := if late then bumpAt t.bgLate k else t.bgLate, bgSince := setAt t.bgSince k s.now, bgDone := setAt t.bgDone k 0 }) s

/-- DRAM_RETRAIN: MEM retrains by itself; the first after P7 clears DRAM_TRAIN_COLD (R99). -/
def execDramRetrain (s : State) : Out :=
  .next <|
    if !isUp s 3 then s
    else
      let s := onTel (fun t => { t with bgDone := setAt t.bgDone 7 10000 }) s
      if inService s then onRs (fun r => { r with dramTrainCold := false }) s else s

/-- BG_STATS. -/
def execBgStats (d : Nat) (s : State) : Out :=
  .next (statsCmd 0x4B d 64 (fun s => s.tel.bgLate) (fun s => onTel (fun t => { t with bgLate := List.replicate 11 0 }) s) (fun _ => []) s)

end Sys2Proof.Machine
end

