-- ==== Sys2Proof/Machine/Reading.lean ====
section
/-! DEFINITION. The reading path of R29 from the ingest queue to the posting: queues (R168 to R174), work items and their dispatch (R151 to
R161), lookup (step 6), authentication and the counter (steps 7 and 8), validation and conversion on the CALC islands and the firmware
path (step 9, R212 to R216), and the append (step 10). -/
namespace Sys2Proof.Machine
open Sys2Proof

/-! ### Ingest queues -/

def onQueue (n : Nat) (f : Queue → Queue) (s : State) : State := onIk (fun i => { i with queues := modAt i.queues n f }) s
def queueOf (s : State) (n : Nat) : Queue := s.ik.queues.getD n Queue.reset

/-- Words of a queue (R168). -/
def queueSize (n : Nat) : Nat := if n < 5 then 4096 else if n < 7 then 1024 else 32768
/-- Words of a frame: the meta word and its bytes in words of 16 (R169). -/
def frameWords (f : QFrame) : Nat := 1 + (f.bytes.length + 15) / 16
/-- Words in use, the frame being written left out. -/
def wordsUsed (q : Queue) : Nat := ((q.frames ++ q.taken).map frameWords).sum
/-- QCOUNT.WORDS (R174): the frame being written is counted with the words it will take, as far as the queue has them (log 102). -/
def wordsHeld (n : Nat) (q : Queue) : Nat := min (queueSize n) (wordsUsed q + ((q.coming.take 1).map frameWords).sum)

/-- The Urrauf forward that a frame of queue 7 answers for is forgotten: the field module sends again after t_fwd_wait (R378). -/
def forgetOwed (f : Bytes) (s : State) : State :=
  onArch (fun a => { a with owed := a.owed.eraseP (fun o => o.1 == frameId f && o.2.1 == frameCounter f) }) s

/-- DISPOSITION 2 of a frame that queue 7 had no room for (R377). -/
def refuseForward (f : Bytes) (s : State) : State := settleForward (frameId f) (frameCounter f) 2 [] s

/-- FRAME_ARRIVAL (R168, R171, R172): the frame being written ends. A complete frame wakes the module from EBB (R60). -/
def execFrameArrival (queue : Nat) (aborted : Bool) (s : State) : Out :=
  .next <|
    let q := queueOf s queue
    match q.coming with
    | [] => s
    | f :: r =>
      if !isUp s 4 then s
      else
        let s := onQueue queue (fun q => { q with coming := r }) s
        let lost := fun s => if queue = 7 then refuseForward f.bytes s else s
        if aborted then lost (statIk (6 * queue + 2) s)
        else if queueSize queue < wordsUsed q + frameWords f then lost (statIk (6 * queue + 1) s)
        else ebbWake (statIk (6 * queue) (onQueue queue (fun q => { q with frames := q.frames ++ [f] }) s))

/-- A flush (R173): frames not yet taken, and the frame being written. -/
def flushQueue (n : Nat) (s : State) : State :=
  let q := queueOf s n
  let s := q.frames.foldl (fun s f => statIk (6 * n + 3) (if n = 7 then forgetOwed f.bytes s else s)) s
  let s := q.coming.foldl (fun s f => statIk (6 * n + 2) (if n = 7 then forgetOwed f.bytes s else s)) s
  onQueue n (fun q => { q with frames := [], coming := [] }) s

/-- A frame that was miscorrected as it was read: one of its words is another (R23). -/
def spoil (w : BitVec 128) (s : State) (f : QFrame) : QFrame :=
  let k := Config.freeNat s.free % ((f.bytes.length + 15) / 16)
  let word := (List.range 16).map (fun i => BitVec.ofNat 8 (w.toNat / 2 ^ (8 * i)))
  { f with bytes := (f.bytes.take (16 * k) ++ word ++ f.bytes.drop (16 * k + 16)).take f.bytes.length }

/-- QUEUE_POLL (R170, R171): the oldest whole frame is taken, where a reading item can be made for it (R161). -/
def execQueuePoll (queue : Nat) (err : Ecc) (tagOk : Bool) (s : State) : Out :=
  .next <|
    match (queueOf s queue).frames with
    | [] => s
    | f :: _ =>
      if !isUp s 4 || !isUp s 9 || (freeSlot s (poolOf true 0)).isNone then s
      else
        let drop := onQueue queue (fun q => { q with frames := q.frames.drop 1 })
        let take := fun (f : QFrame) => onQueue queue (fun q => { q with frames := q.frames.drop 1, taken := q.taken ++ [f] })
        let lost := fun s : State =>
          let s := eccUncorrectable 4 3 queue (statIk (6 * queue + 5) (drop s))
          if queue = 7 then forgetOwed f.bytes s else s
        if !tagOk then lost s
        else
          match eccRead err s with
          | (.good, s) => take f s
          | (.corrected y, s) => eccCorrected 4 3 y queue (statIk (6 * queue + 4) (take f s))
          | (.wrong w, s) => take (spoil w s f) (useFree s)
          | (.bad, s) => lost s

/-- The header breaks R175. -/
def badHeader (f : QFrame) : Bool :=
  let b := f.bytes
  frameVersion b != 1 || !inRange (frameType b) 1 3 || u8 b 1 / 2 != 0 || 480 < frameLen b || b.length != 28 + frameLen b ||
    u16 f.meta16 0 != b.length

/-- INTAKE makes the work item of the oldest frame taken (R29 step 5); its words are freed. -/
def readingCreate (n : Nat) (s : State) : State :=
  match (queueOf s n).taken with
  | [] => s
  | f :: _ =>
    let free := onQueue n (fun q => { q with taken := q.taken.drop 1 })
    if badHeader f then dropForwarded (metaLink f.meta16) (frameId f.bytes) (frameCounter f.bytes) (statIk 48 (free s))
    else if (freeSlot s (poolOf true 0)).isNone then s
    else createItem (readingItem s (frameId f.bytes) (newReading n f)) (free s)

/-- NET makes the item of a descriptor that needs ATOLL (R151). -/
def hostCreate (d : Nat) (s : State) : State :=
  match descOf s d with
  | none => s
  | some x =>
    if (x.stage == .started || x.stage == .waiting) && isUp s 10 && needsAtoll (opcodeOf x) then ensureItem x s else s

/-- WORK_ITEM_CREATE (R151, R161, R165). -/
def execWorkItemCreate (a : ItemAsk) (s : State) : Out :=
  .next <|
    if !isUp s 9 then s
    else
      match a with
      | .reading n => if isUp s 4 then readingCreate n s else s
      | .host d => hostCreate d s
      | .other cls prio space key handler noFlow count n0 n1 deadline =>
        if 2 < cls then s
        else
          let i := blankItem cls (prio % 8) (space % 4) (key % 2 ^ 64) (handler % 256)
          createWith { item := { i with noFlow := noFlow, notify0 := n0, notify1 := n1, deadline := if cls = 2 then deadline % 65536 else 0 }, count := count } s

/-! ### Ends of the path without a posting -/

def onReading (slot : Nat) (f : Reading → Reading) (s : State) : State := onItem slot (fun i => { i with reading := i.reading.map f }) s

/-- A stored keyless frame has been processed: its entry goes, and the next of the meter may get an item (R192). -/
def replayDone (rd : Reading) (s : State) : State :=
  if !rd.replay then s
  else
    let s := match s.db.quars.find? (fun q => q.reason == 2 && q.bytes == rd.frame && q.meta16 == rd.meta16) with
      | some q => appendGlobal 11 0 (.config (.quarRemove q.seq)) s
      | none => s
    replayStored rd.short s

/-- The path of a reading is over (R29): the item only has to end. -/
def pathOver (slot : Nat) (s : State) : State := parkItem slot .ended s

/-- A frame that is refused before it is accepted, without an answer (R377: DISPOSITION 1 for a forwarded one). -/
def refuseReading (slot : Nat) (rd : Reading) (s : State) : State :=
  pathOver slot (replayDone rd (dropForwarded (metaLink rd.meta16) (frameId rd.frame) (frameCounter rd.frame) s))

/-- Frames that the keyless quarantine holds (R191). -/
def keylessLimit : Nat := 16777216
def keylessCount (s : State) : Nat :=
  (s.db.quars.filter (fun q => q.reason == 2)).length +
  (s.jr.waits.filter (fun w => match w.2 with | .quarVisible q => q.reason == 2 | _ => false)).length

/-- The frame goes to the keyless quarantine as it came (R191). -/
def storeKeyless (slot : Nat) (rd : Reading) (s : State) : State :=
  let id := frameId rd.frame
  let s := if metaLink rd.meta16 = 7 then forgetOwed rd.frame s else s
  if isStandby s || rd.replay then pathOver slot s
  else if s.ik.keylessLast.any (fun p => p.1 == id && p.2 == rd.frame) then pathOver slot (statIk 59 s)
  else if keylessLimit ≤ keylessCount s then pathOver slot (statIk 60 s)
  else
    let q : Quar :=
      { seq := s.jr.next, id := id, short := rd.short, reason := 2, link := metaLink rd.meta16, valFlags := 0, arrival := metaArrival rd.meta16
        counter := frameCounter rd.frame, bytes := rd.frame, outOfRange := false, meta16 := rd.meta16 }
    let s := whenDurable (.quarVisible q) (appendMeter 11 rd.short 0 (.store q) s)
    let s := onIk (fun i => { i with keylessLast := (id, rd.frame) :: i.keylessLast.filter (fun p => p.1 != id) }) s
    pathOver slot (statIk 58 s)

/-- A frame for another ledger home goes unchanged to the forward backlog of LOG (R30, R387), where it has room (R456). -/
def forwardReading (slot : Nat) (rd : Reading) (s : State) : State :=
  if isStandby s then pathOver slot s
  else if !poolHasRoom s frameSlots then pathOver slot (statFl 9 s)
  else
    let f : FwdFrame :=
      { id := frameId rd.frame, frame := { meta16 := rd.meta16, bytes := rd.frame, meas := rd.meas }
        body := boundBody s rd.profile rd.pver, msgId := none, sent := 0, holdTo := 0 }
    pathOver slot (notePool (onArch (fun a => { a with fwd := a.fwd ++ [f] }) s))

/-! ### Step 6 -/

/-- What the exact-match lookup answers (R134, R139, R140): the entry, a wait, or nothing. -/
inductive Found where
  | entry (short : Nat) (e : MEntry)
  | wait
  | missing
  deriving DecidableEq, Repr

def lookupId (s : State) (id : Nat) : Found :=
  if !isUp s 5 then .wait
  else
    let hit := (entryById s id).bind (fun p =>
      (s.tbl.slots.find? (fun m => m.short == p.1)).bind (fun m => if m.ovf && s.tbl.ovfReload then none else some p))
    match hit with
    | some (k, e) => .entry k e
    | none => if s.tbl.state = 2 || s.tbl.ovfReload then .wait else .missing

/-- Step 6 (R29, R143, R145, R215): the entry, the profile copy, the virial table and CONV_VERSION are bound. -/
def stepLookup (slot : Nat) (rd : Reading) (s : State) : State :=
  let id := frameId rd.frame
  match lookupId s id with
  | .wait => parkItem slot .rebuildWait s
  | .missing => refuseReading slot rd (statIk 49 s)
  | .entry k e =>
    if e.retired || (!e.homeSelf && metaLink rd.meta16 = 7) then refuseReading slot rd (statIk 49 s)
    else
      match profileFor s id with
      | none => refuseReading slot rd (statIk 50 s)
      | some (p, prof) =>
        let rd := { rd with
          short := k, profile := p, pver := prof.version, cver := convNow s
          vver := ((Tab.get s.db.virials (pfVirial prof.body)).map (·.version)).getD 0 }
        if e.homeSelf then parkItem slot .authWait (onReading slot (fun _ => rd) s) else forwardReading slot rd s

/-! ### Steps 7 and 8 -/

/-- Step 7 (R181, R420): the plaintext, and whether the key was PENDING. -/
def openUnder (s : State) (short id : Nat) (f : Bytes) : Option (Bytes × Bool) :=
  match (currentKey s short id).bind (fun k => openFrame k f) with
  | some p => some (p, false)
  | none => ((((wrappedOf s short).pending).bind (fun w => unwrapKey s w id)).bind (fun k => openFrame k f)).map (fun p => (p, true))

/-- Window of 60 operating seconds (R185, R189); its counts start from 0. -/
def windowNow (s : State) : Nat := s.rs.opSeconds / 60
def atWindow (s : State) : State :=
  if s.ik.replayWindow = windowNow s then s
  else onIk (fun i => { i with replayWindow := windowNow s, replayCount := 0, replayRaised := false, valCount := 0, valRaised := false }) s

/-- REPLAY_WINDOW_END (R185, R189). -/
def execReplayWindowEnd (s : State) : Out := .next (atWindow (passOp (60 * (s.ik.replayWindow + 1)) s))

/-- A replay counts toward source 53 (R185). -/
def countReplay (s : State) : State :=
  let s := atWindow s
  let s := onIk (fun i => { i with replayCount := i.replayCount + 1 }) s
  if s.ik.set.replayLimit ≤ s.ik.replayCount && !s.ik.replayRaised then
    raise 53 (min 65535 s.ik.replayCount) (onIk (fun i => { i with replayRaised := true }) s)
  else s

/-- A reading voided or quarantined by FORMAT or by a check counts toward source 54 (R189). -/
def countFailure (s : State) : State :=
  let s := atWindow s
  let s := onIk (fun i => { i with valCount := i.valCount + 1 }) s
  if s.ik.set.valLimit ≤ s.ik.valCount && !s.ik.valRaised then
    raise 54 (min 65535 s.ik.valCount) (onIk (fun i => { i with valRaised := true }) s)
  else s

/-- An answer that needs no record of its own; none for a stored frame (R192). -/
def answerNow (rd : Reading) (status : Nat) (s : State) : State :=
  if rd.replay then s else answerTo rd.short status (frameCounter rd.frame) (metaLink rd.meta16) s

/-- The duplicate of an accepted frame is answered with LAST_OUTCOME, once the record of L is durable (R33). -/
def answerDuplicate (rd : Reading) (status : Nat) (s : State) : State :=
  if rd.replay then s
  else
    match s.jr.waits.reverse.find? (fun w => match w.2 with | .posted r => r.short == rd.short | _ => false) with
    | some w =>
      onJr (fun j => { j with waits := j.waits ++ [(w.1, .answer rd.short status (frameCounter rd.frame) (metaLink rd.meta16) (metaRoute rd.meta16))] }) s
    | none => answerNow rd status s

/-- A replay: counted, shown to the indicator, and answered at most once per NAK_HOLDOFF (R182, R185). A stored frame has no answer, so it
begins no hold-off (R192). -/
def onReplay (rd : Reading) (s : State) : State :=
  let s := onDb (fun db => { db with mstate := Tab.mod db.mstate rd.short (fun m => { m with replays := min 65535 (m.replays + 1) }) }) s
  let s := replayIndicator rd.short (boundBody s rd.profile rd.pver) (countReplay (statIk 52 s))
  let held := (Tab.get s.ik.nakAt rd.short).any (fun t => s.now < t + s.ik.set.nakHoldoff * secNs)
  if rd.replay then s
  else if held then dropForwarded (metaLink rd.meta16) (frameId rd.frame) (frameCounter rd.frame) s
  else answerNow rd 3 (onIk (fun i => { i with nakAt := Tab.set i.nakAt rd.short s.now }) s)

/-- The module's own hearing of an authenticated frame (R277 to R280, R360). Frames of Urrauf and RS-485 carry no measurements. -/
def applyMeas (short link channel : Nat) (body : Bytes) (m : Meas) (s : State) : State :=
  let s :=
    if link < 3 then
      match m.mags, (entryOf s short).bind (fun e => stationOf s e.id) with
      | some (g, t), some st => hearPlc short body (channel % 4) g t st.phase st.conf s
      | _, _ => s
    else if link < 5 then hearRadio short body m.rssi m.cfo s
    else s
  match m.skew with
  | some ms => hearSkew short body ms s
  | none => s

/-- A frame past step 8 teaches its entry (R148), and frames held for want of a route leave (R150). -/
def learnFrame (short : Nat) (body meta16 : Bytes) (s : State) : State :=
  match entryOf s short with
  | none => s
  | some e =>
    let e2 := learnEntry body (metaLink meta16) (i8 meta16 3) (metaRoute meta16) (s.rs.opSeconds % 2 ^ 32) e
    flushHeld e2.link short e.id (onDb (fun db => { db with entries := Tab.set db.entries short e2 }) s)

/-- Step 8 (R182). A standby only learns (R398). -/
def stepCounter (slot : Nat) (rd : Reading) (s : State) : State :=
  let m := mstateOf s rd.short
  let c := frameCounter rd.frame
  let body := boundBody s rd.profile rd.pver
  if isStandby s then
    pathOver slot (if !m.rekey && m.lastCounter < c then learnFrame rd.short body rd.meta16 s else s)
  else if m.rekey then pathOver slot (replayDone rd (answerNow rd 4 (statIk 53 s)))
  else if m.lastCounter < c then
    let s := learnFrame rd.short body rd.meta16 s
    let s := applyMeas rd.short (metaLink rd.meta16) (u8 rd.meta16 14) body rd.meas s
    onItem slot (fun i => { i with step := .authed }) (onReading slot (fun _ => rd) s)
  else if c = m.lastCounter && m.lastCounter != 0 then pathOver slot (replayDone rd (answerDuplicate rd m.lastOutcome (statIk 54 s)))
  else pathOver slot (replayDone rd (onReplay rd s))

/-- AUTH_DONE (R181, R182, R191, R420, R510): steps 7 and 8 of a parked reading. A reset of REEF leaves it parked, so that it runs again. -/
def execAuthDone (slot : Nat) (s : State) : Out :=
  .next <|
    match itemAt s slot with
    | none => s
    | some i =>
      match i.reading with
      | none => s
      | some rd =>
        if i.step != .authWait || i.state != .parked || !isUp s 2 || !isUp s 4 || !(mayAppend s || isStandby s) then s
        else if keyless s then storeKeyless slot rd s
        else
          let id := frameId rd.frame
          let opened := openUnder s rd.short id rd.frame
          let s := useKey rd.short id s
          match opened with
          | none =>
            let s := onDb (fun db => { db with mstate := Tab.mod db.mstate rd.short (fun m => { m with authFail := min 65535 (m.authFail + 1) }) }) s
            refuseReading slot rd (statIk 51 s)
          | some (plain, pending) => stepCounter slot { rd with plain := plain } (if pending then promoteKey rd.short id s else s)

/-! ### Step 9 -/

def calcServes (s : State) (b : Bool) : Bool := if b then isUp s 7 && s.cv.okB else isUp s 6 && s.cv.okA

/-- Readings outstanding at a CALC island (R212). -/
def outstandingAt (s : State) (b : Bool) : Nat :=
  (s.sch.items.filter (fun i => (i.step == .validWait || i.step == .convWait) &&
    i.reading.any (fun r => r.onB == b || (channelOf s r.short).isSome))).length

/-- The island for a standard reading: the one with fewer outstanding, ties to CALC_A; none while neither serves (R212, R214). -/
def pickCalc (s : State) : Option Bool :=
  match calcServes s false, calcServes s true with
  | true, true => some (outstandingAt s true < outstandingAt s false)
  | true, false => some false
  | false, true => some true
  | false, false => none

def isCustody (s : State) (rd : Reading) : Bool := (channelOf s rd.short).isSome

/-- A reading goes to its CALC island, or waits for one. -/
def toCalc (slot : Nat) (s : State) : State :=
  parkItem slot .validWait (onReading slot (fun r => { r with onB := (pickCalc s).getD r.onB, pathA := none, pathB := none }) s)

/-- LAST_TIME and LAST_VALUE, where the meter has history. -/
def histOf (s : State) (short : Nat) : Option Hist :=
  let m := mstateOf s short
  if m.noHistory then none else some { time := m.lastTime, values := m.lastValues }

/-- The points of the virial table bound to a reading (R215). -/
def boundVirial (s : State) (body : Bytes) (ver : Nat) : List (F64 × F64) :=
  match Tab.get s.db.virials (pfVirial body) with
  | none => []
  | some v =>
    if v.version = ver then v.points
    else match v.old with
      | some (o, p) => if o = ver then p else v.points
      | none => v.points

/-- Residuals of the meter's ledger record (R203). -/
def residOf (s : State) (short : Nat) : List F64 :=
  match channelOf s short with
  | some (_, c) => c.resid
  | none => (stdOf s short).resid

/-- Module time in network units; none while the clock is invalid (R187 FUTURE). -/
def netNow (s : State) : Option Int := if s.tm.validSeen then some (s.tm.counter * 32768 / 1000000000) else none

/-- Validation (R187, R188): outcome, VAL_FLAGS, values and increments. -/
def validate (s : State) (rd : Reading) : Reading :=
  let body := boundBody s rd.profile rd.pver
  let h := histOf s rd.short
  if rdMalformed rd.plain || !rdMatches body (rdElems rd.plain) then { rd with reason := 5, valFlags := 0, checks := 0 }
  else if isDuplicate rd.plain h then { rd with reason := 6, valFlags := 0, checks := 0 }
  else
    let es := rdElems rd.plain
    let f := valFlags body rd.plain h (netNow s)
    let dt : Int := (rdTime rd.plain : Int) - (h.map (·.time)).getD 0
    { rd with valFlags := f, checks := f, reason := verdict body f, values := es.map (·.value), incs := increments body es h dt }

/-- VALIDATION_DONE (R187, R212, R214): on an island that serves; a reading whose island does not goes to the other. -/
def execValidationDone (slot : Nat) (s : State) : Out :=
  .next <|
    match itemAt s slot with
    | none => s
    | some i =>
      match i.reading, pickCalc s with
      | some rd, some b =>
        if i.step != .validWait || i.state != .parked then s
        else
          let rd := validate s { rd with onB := if calcServes s rd.onB then rd.onB else b }
          onItem slot (fun i => { i with reading := some rd, step := if rd.reason = 0 || isCustody s rd then .convWait else .postWait }) s
      | _, _ => s

/-- The conversion of a reading as every path computes it (R201, R213). -/
def conversionOf (s : State) (rd : Reading) : Conversion :=
  let body := boundBody s rd.profile rd.pver
  convert body (rdElems rd.plain) rd.incs (histOf s rd.short) (boundVirial s body rd.vver) (residOf s rd.short)

/-- The result block of a path (R213). -/
def resultBlock (s : State) (rd : Reading) : AltBlock :=
  if rd.reason != 0 then { outcome := rd.reason, valFlags := rd.valFlags, ns := [], residuals := residOf s rd.short }
  else
    let c := conversionOf s rd
    if c.bad then { outcome := 4, valFlags := orNat rd.valFlags 8, ns := [], residuals := residOf s rd.short }
    else if c.big then { outcome := 7, valFlags := orNat rd.valFlags 1, ns := [], residuals := residOf s rd.short }
    else { outcome := 0, valFlags := rd.valFlags, ns := c.ns, residuals := c.residuals }

/-- The block is taken: the reading waits for LEDGER. -/
def takeBlock (b : AltBlock) (rd : Reading) : Reading :=
  { rd with reason := b.outcome, valFlags := b.valFlags, ns := b.ns, resid := b.residuals }

/-- A reading is quarantined for want of a majority (R213). -/
def noMajority (rd : Reading) : Reading := { rd with reason := 3, ns := [], resid := [] }

/-- The reading passed validation, so that its conversion was evaluated, whatever came of it. -/
def evaluated (rd : Reading) : Bool := rd.reason == 0 || rd.reason == 3 || rd.reason == 4 || rd.reason == 7

/-- SAT_EVAL and OUT_OF_RANGE, once per reading, and the readings converted since the last custody mismatch (R207, R211, R466). -/
def countConversion (s0 : State) (rd : Reading) (s : State) : State :=
  let s := if evaluated rd && (conversionOf s0 { rd with reason := 0 }).region = 4 then statCv 8 s else s
  let s := if rd.reason = 4 then statCv 7 s else s
  if rd.reason = 0 then onImg (fun m => { m with crit := bumpAt m.crit 10 }) s else s

/-- The item waits for LEDGER with its outcome. -/
def toLedger (slot : Nat) (rd : Reading) (s : State) : State :=
  onItem slot (fun i => { i with reading := some rd, step := .postWait }) (countConversion s rd s)

/-- CONVERSION_DONE (R198, R212 to R214): a standard reading's block, or both blocks of a custody reading. `altA`, `altB`: what a disturbed
path returned. -/
def execConversionDone (slot : Nat) (altA altB : Option AltBlock) (s : State) : Out :=
  .next <|
    match itemAt s slot with
    | none => s
    | some i =>
      match i.reading with
      | none => s
      | some rd =>
        if i.step != .convWait || i.state != .parked then s
        else if (pickCalc s).isNone || (!isCustody s rd && !calcServes s rd.onB) then toCalc slot s
        else if !isCustody s rd then toLedger slot (takeBlock (resultBlock s rd) rd) s
        else
          let a := if calcServes s false then some (altA.getD (resultBlock s rd)) else none
          let b := if calcServes s true then some (altB.getD (resultBlock s rd)) else none
          match a, b with
          | some x, some y =>
            if x = y then toLedger slot (takeBlock x rd) (statCv 0 s)
            else onItem slot (fun i => { i with reading := some { rd with pathA := a, pathB := b }, step := .thirdPath }) s
          | _, _ => onItem slot (fun i => { i with reading := some { rd with pathA := a, pathB := b }, step := .thirdPath }) s

/-- A mismatch: counted, the source, and the audit entry of the channel (R213, R245). `odd`: the dissenting paths. -/
def mismatch (rd : Reading) (odd : Nat) (quarantined : Bool) (s : State) : State :=
  let ch := channelNo s rd.short
  let s := raise 55 (ch + 256 * b2n quarantined) (statCv 1 (onImg (fun m => { m with crit := setAt m.crit 10 0 }) s))
  if ch < 96 then audit ch 5 0 (frameCounter rd.frame + 2 ^ 32 * b2n quarantined) odd s else s

/-- FIRMWARE_PATH_RESULT (R213, R214): the firmware's block beside the one or two that LEDGER holds. Unequal blocks of a single path count and
raise CUSTODY_MISMATCH as R213 has it where no two of three are equal: R214 states the quarantine alone (DESIGN CHOICE, log 103). -/
def execFirmwarePathResult (slot : Nat) (alt : Option AltBlock) (s : State) : Out :=
  .next <|
    match itemAt s slot with
    | none => s
    | some i =>
      match i.reading, i.state with
      | some rd, .running _ =>
        if i.step != .thirdPath || !mayAppend s then s
        else
          let fw := alt.getD (resultBlock s rd)
          let go := fun (rd : Reading) (s : State) => parkItem slot .postWait (toLedger slot rd s)
          match rd.pathA, rd.pathB with
          | some a, some b =>
            if fw = a then go (takeBlock a rd) (mismatch rd 2 false (statCv 3 s))
            else if fw = b then go (takeBlock b rd) (mismatch rd 1 false (statCv 2 s))
            else go (noMajority rd) (mismatch rd 0 true (statCv 5 s))
          | some x, none | none, some x =>
            if fw = x then go { takeBlock x rd with single := true } (statCv 6 s)
            else go (noMajority rd) (mismatch rd 0 true (statCv 5 s))
          | none, none => toCalc slot s
      | _, _ => s

/-- A CALC island leaves service: what it returned or was computing is void (R213, R214). -/
def calcLost (b : Bool) (s : State) : State :=
  let back := fun r : Reading => { r with pathA := none, pathB := none, reason := 0, valFlags := 0 }
  onSch (fun c => { c with items := c.items.map (fun i =>
    match i.reading with
    | none => i
    | some r =>
      if i.step == .convWait && (r.onB == b || (channelOf s r.short).isSome) then { i with step := .validWait, reading := some (back r) }
      else if i.step == .thirdPath then
        { i with reading := some (if b then { r with pathB := none } else { r with pathA := none }) }
      else i) }) s

/-! ### Step 10 -/

/-- The content of a CMD_RESULT goes to the subject of its code (R178). -/
def passResult (rd : Reading) (s : State) : State :=
  let p := rd.plain
  if p.length < 4 then s
  else
    let cmd := u8 p 0
    let body := boundBody s rd.profile rd.pver
    if 0x20 ≤ cmd && cmd < 0x30 then valveResult rd.short body cmd (u8 p 1) (u16 p 2) s
    else if cmd = 1 then timeCheckAnswer rd.short (u16 p 2) (u8 p 1) (u48 p 4) body s
    else if (0x10 ≤ cmd && cmd < 0x20) || (0x30 ≤ cmd && cmd < 0x40) then campaignResult rd.short p s
    else s

/-- The record of an accepted frame by its TYPE and outcome (R182, R188, R211, R213). -/
def appendOutcome (rd : Reading) (e : MEntry) (s : State) : State :=
  match frameType rd.frame with
  | 1 =>
    match rd.reason with
    | 0 => postReading rd (postInOf s rd e) s
    | 1 => countFailure (voidReading rd s)
    | 2 => countFailure (holdReading rd e 1 false s)
    | 3 => holdReading rd e 3 false s
    | 5 => countFailure (statIk 48 (voidReading rd s))
    | 6 => voidReading rd s
    | _ => holdReading rd e 1 true s
  | 2 => passResult rd (postOther rd 1 s)
  | _ => postOther rd 2 s

/-- VAL_FLAG_k counts each failed check (R188); the bits that R203 and R211 set are no checks. -/
def countFlags (rd : Reading) (s : State) : State :=
  ((List.range 8).filter (bit rd.checks)).foldl (fun s k => statIk (61 + k) s) s

/-- POSTING_APPEND (R29 step 10, R157, R248, R456): LEDGER appends the record of an accepted frame, and the flow lock is released. -/
def execPostingAppend (slot : Nat) (s : State) : Out :=
  .next <|
    match itemAt s slot with
    | none => s
    | some i =>
      match i.reading with
      | none => s
      | some rd =>
        if i.step != .postWait || i.state != .parked || !mayAppend s || !poolHasRoom s 2 then s
        else
          match entryOf s rd.short with
          | none => pathOver slot s
          | some e =>
            let s := notePaths s
            let s := if frameType rd.frame = 1 then countFlags rd s else s
            replayDone rd (onItem slot (fun i => { i with step := .posted }) (releaseLock slot (appendOutcome rd e s)))

/-! ### Known-answer tests (R216) -/

/-- What the tests find: a CALC island that passes serves, one that fails is reset. What number the source of that reset carries is not
stated: a free value (log 43). -/
def katResult (passA passB : Bool) (s : State) : State :=
  let one := fun (b pass : Bool) (s : State) =>
    let n := if b then 7 else 6
    if !isUp s n then s
    else
      let s := onCv (fun c => if b then { c with okB := pass, katB := pass, failB := !pass } else { c with okA := pass, katA := pass, failA := !pass }) s
      if pass then s
      else useFree (startIslandReset n (Config.freeNat s.free % 4) (statCv 9 (calcLost b s)))
  let both := isUp s 6 && isUp s 7 && passA && passB
  let s := notePaths (one true passB (one false passA s))
  if both then onPair (fun p => { p with katAt := some s.now }) s else s

/-- The tests are due: 600 s after those before, 60 s on a standby, and at once where an island waits for a pass (R216, R399). -/
def katDue (s : State) : Nat :=
  if (isUp s 6 && !s.cv.okA) || (isUp s 7 && !s.cv.okB) then s.now
  else s.cv.katFrom + (if isStandby s then 60 else 600) * secNs

/-- KAT_RUN: CAPE makes the tests as class B work; what they find shows when the item runs (R153, R216). -/
def execKatRun (passA passB : Bool) (s : State) : Out :=
  .next <|
    if !isUp s 1 then s
    else
      let s := passTo (katDue s) s
      let s := onCv (fun c => { c with katFrom := s.now }) s
      let i := { blankItem 1 (Config.freeNat s.free % 8) 0 (Config.freeNat (s.free + 1) % 2 ^ 64) (Config.handler 2 % 256) with
        noFlow := true, task := .kat passA passB }
      createItem i { s with free := s.free + 2 }

/-! ### Dispatch (R155, R157, R158) -/

/-- What an item does on its core. A reading parks for the next island; background work is done; the firmware path and other work run until
they end. -/
def runStep (slot : Nat) (s : State) : State :=
  match itemAt s slot with
  | none => s
  | some i =>
    match i.reading, i.task with
    | none, .background k r => bgWork k r (onItem slot (fun j => { j with task := .plain }) s)
    | none, .kat a b => katResult a b (onItem slot (fun j => { j with task := .plain }) s)
    | none, _ => s
    | some rd, _ =>
      match i.step with
      | .lookup => stepLookup slot rd s
      | .authed => if frameType rd.frame = 1 then toCalc slot s else parkItem slot .postWait s
      | _ => s

/-- An item enters a core. -/
def startItem (i : Item) (c : Nat) (s : State) : State := runStep i.slot (runOn i c s)

def firstSlotted (l : List Item) : Option Item :=
  l.foldl (fun (b : Option Item) i => match b with
    | none => some i
    | some x => if i.since < x.since then some i else some x) none

/-- The slotted item that a core starts next: the one slotted first that may start now; class B borrows where nothing else runs (R160). -/
def nextSlotted (s : State) (c : Nat) : Option Item :=
  let can := fun b => firstSlotted ((slottedOn s c).filter (bMayStart s b))
  match can false with
  | some i => some i
  | none => if s.sch.set.borrow && (nextItem s).isNone then can true else none

/-- Into a local slot of a core. -/
def slotItem (i : Item) (c : Nat) (s : State) : State := onItem i.slot (fun j => { j with state := .slotted c, since := s.now }) (takeLock i s)

/-- A class B start that the budget holds, counted once in a window (R160, R167). -/
def countHeld (s : State) : State :=
  match idleCores s, heldByBudget s with
  | _ :: _, some i => statSch 6 (onItem i.slot (fun j => { j with deferred := true }) s)
  | _, _ => s

/-- The next of classes S and B: a slotted item of an idle core, else the best on an idle core, else the best into a local slot, else class
B on a core that would be idle. Which idle core or free slot it takes, the rules do not state: the lowest (DESIGN CHOICE, log 19). -/
def dispatchNext (s : State) : State :=
  match (idleCores s).findSome? (fun c => (nextSlotted s c).map (fun i => (c, i))) with
  | some (c, i) => startItem i c s
  | none =>
    match idleCores s, slotCores s, nextItem s, borrower s with
    | c :: _, _, some i, _ => startItem i c s
    | [], c :: _, some i, _ => slotItem i c s
    | c :: _, _, none, some i => startItem i c s
    | _, _, _, _ => countHeld s

/-- ITEM_DISPATCH (R155, R157 to R160): a ready class U item, or the holder of a lock that one waits for, before all others. -/
def execItemDispatch (s : State) : Out :=
  .next <|
    if !isUp s 9 then s
    else
      match bestUrgent s, coreForU s with
      | some i, some (c, _) => runStep i.slot (seizeCore i c s)
      | _, _ => dispatchNext s

/-- A key kill meets readings at REEF: their operation ends KEY_KILLED and the frames are stored (R118, R191). -/
def killReadings (s : State) : State :=
  (s.sch.items.filter (fun i => i.step == .authWait)).foldl (fun s i =>
    match i.reading with
    | some rd => if mayAppend s then storeKeyless i.slot rd s else s
    | none => s) s

/-- A class B item as CAPE makes it again (R165). -/
def madeAgain (i : Item) : Item :=
  { blankItem 1 i.prio i.space i.key i.handler with noFlow := i.noFlow, task := i.task }

/-- Every item in flight ends with a reset of ATOLL: readings are discarded, locks and counters freed. CAPE's class B items wait to be made
again (R157, R165). -/
def dropItems (s : State) : State :=
  let s := s.sch.items.foldl (fun s i => match i.reading with
    | some rd => if metaLink rd.meta16 = 7 && i.step != .posted then forgetOwed rd.frame s else s
    | none => s) s
  let s := (List.range 8).foldl (fun s n => onQueue n (fun q => { q with taken := [] }) s) s
  onSch (fun c =>
    { c with
      items := [], deps := [], locks := []
      asks := (c.items.filter (·.cls == 1)).map (fun i => { item := madeAgain i, count := 0 }) ++ c.asks.filter (fun w => w.item.task != .clockStep) }) s

end Sys2Proof.Machine
end

