-- ==== Sys2Proof/Machine/Intake.lean ====
section
/-! DEFINITION. The commands of intake and conversion: the quarantine (R193, R194), the limits and counters of intake (R195), virial tables
(R209, R215), and the conversion test and counters (R217, R218). -/
namespace Sys2Proof.Machine
open Sys2Proof

/-! ### Quarantine -/

/-- A quarantine entry as it is laid out: 64-byte header, then the frame's bytes padded to a multiple of 64 (R193). -/
def quarBytes (q : Quar) : Bytes :=
  let n := q.bytes.length
  padTo 64 (toLE 8 q.seq ++ toLE 8 q.id ++ toLE 4 (q.short % 2 ^ 20) ++ toLE 1 q.reason ++ toLE 1 (16 * q.link) ++ toLE 2 (q.valFlags % 256) ++
    toLE 8 q.arrival ++ toLE 4 q.counter ++ toLE 2 n) ++ padTo ((n + 63) / 64 * 64) q.bytes

/-- Whole entries that fit in a buffer of `room` bytes: the bytes, their number, and the SEQ of the first left out (0: none). -/
def quarFill : List Quar → Nat → Bytes → Nat → Bytes × Nat × Nat
  | [], _, acc, n => (acc, n, 0)
  | q :: r, room, acc, n =>
    let b := quarBytes q
    if acc.length + b.length ≤ room then quarFill r room (acc ++ b) (n + 1) else (acc, n, q.seq)

/-- QUAR_READ (R193): the entries that are durable, in SEQ order. -/
def execQuarRead (d : Nat) (s : State) : Out :=
  .next (hostCmd 0xB0 d (fun b => logChecks b 64) (fun x s =>
    let (out, n, next) := quarFill (s.db.quars.filter (fun q => u64 x.bytes 16 ≤ q.seq)) (u32 x.bytes 32) [] 0
    finishOk d (toLE 4 n ++ toLE 8 next) (if out.isEmpty then s else putOut d (u64 x.bytes 24) out s)) s)

/-- The reading of an entry as its release posts it: step 9 without validation, its VAL_FLAGS kept (R194). The profile copy and the
virial table are those in force at the release. -/
def releasedReading (s : State) (q : Quar) (p : Nat) (prof : Profile) : Reading :=
  let plain := q.bytes.drop 16
  let h := histOf s q.short
  let dt : Int := (rdTime plain : Int) - (h.map (·.time)).getD 0
  { newReading 8 { meta16 := q.meta16, bytes := q.bytes, meas := Meas.none } with
    short := q.short, profile := p, pver := prof.version, plain := plain, released := true, valFlags := q.valFlags
    values := (rdElems plain).map (·.value), incs := increments prof.body (rdElems plain) h dt
    vver := ((Tab.get s.db.virials (pfVirial prof.body)).map (·.version)).getD 0, cver := convNow s }

/-- The entry's reading is posted: with its increments, or as the registers stand where its conversion cannot be computed (R194, R211). -/
def postReleased (q : Quar) (e : MEntry) (rd : Reading) (s : State) : State :=
  let rd := takeBlock (resultBlock s rd) rd
  let custody := isCustody s rd
  let rd := { rd with valFlags := q.valFlags, single := custody && calcMissing s != 0 }
  if q.outOfRange || rd.reason != 0 then postAsIs rd (postInOf s rd e) s
  else
    let s1 := countConversion s rd s
    let s2 := if custody then statCv (if rd.single then 6 else 0) s1 else s1
    postReading rd (postInOf s rd e) s2

/-- Readings of a meter are under way. -/
def flowBusy (s : State) (id : Nat) : Bool := s.sch.items.any (fun i => i.reading.isSome && i.key == id)

/-- QUAR_RELEASE (R194): runs on the meter's flow, after the readings before it. -/
def execQuarRelease (d : Nat) (s : State) : Out :=
  .next (hostCmd 0xB1 d (fun _ => []) (fun x s => changing d (fun s =>
    match s.db.quars.find? (fun q => q.seq == u64 x.bytes 16) with
    | none => finish d 0x20 0 [] s
    | some q =>
      let remove := fun s => finishDurable d [] (appendGlobal 11 0 (.config (.quarRemove q.seq)) s)
      if bit (u8 x.bytes 24) 0 then remove s
      else if q.reason = 2 then finish d 0x22 0 [] s
      else if q.reason = 3 then finish d 0x21 0 [] s
      else
        match entryOf s q.short, profileFor s q.id with
        | some e, some (p, prof) =>
          if e.id != q.id || q.counter != (mstateOf s q.short).lastCounter then finish d 0x21 0 [] s
          else if flowBusy s q.id || (pickCalc s).isNone || !poolHasRoom s 2 then s
          else remove (postReleased q e (releasedReading s q p prof) s)
        | _, _ => finish d 0x21 0 [] s) s) s)

/-! ### Limits and counters of intake (R195) -/

/-- INTAKE_SET. -/
def execIntakeSet (d : Nat) (s : State) : Out :=
  .next (hostCmd 0xB3 d (fun _ => []) (fun x s =>
    let v : IntakeSet := { replayLimit := u16 x.bytes 16, valLimit := u16 x.bytes 18, nakHoldoff := u16 x.bytes 20 }
    if v.replayLimit = 0 || v.valLimit = 0 || !inRange v.nakHoldoff 1 3600 then finish d 0x23 0 [] s
    else finishOk d [] (saveOpt (fun o => { o with intake := v }) (onIk (fun i => { i with set := v }) s))) s)

/-- INTAKE_STATS. -/
def execIntakeStats (d : Nat) (s : State) : Out :=
  .next (statsCmd 0xB2 d 512 (fun s => s.ik.stats) (fun s => cntClear 0 (onIk (fun i => { i with stats := List.replicate 70 0 }) s))
    (fun _ => []) s)

/-! ### Conversion (R209, R215 to R218) -/

/-- The points of a table as loaded: T, then B. -/
def virialPoints (b : Bytes) : List (F64 × F64) :=
  (List.range (b.length / 16)).map (fun i => (BitVec.ofNat 64 (u64 b (16 * i)), BitVec.ofNat 64 (u64 b (16 * i + 8))))

/-- First fault of a table: T not finite or not above the one before, or B not finite (R209). -/
def virialFault (pts : List (F64 × F64)) : Option Nat :=
  (List.range pts.length).findSome? (fun i =>
    let p := pts.getD i (0, 0)
    if !fFinite p.1 || (0 < i && !fLt (pts.getD (i - 1) (0, 0)).1 p.1) then some (16 * i)
    else if !fFinite p.2 then some (16 * i + 8)
    else none)

/-- The copy before the last load is bound to a reading in flight (R215). -/
def oldVirialInUse (s : State) (t : Nat) : Bool :=
  match (Tab.get s.db.virials t).bind (·.old) with
  | none => false
  | some (v, _) =>
    s.sch.items.any (fun i => i.step != .lookup && i.step != .rebuildWait &&
      i.reading.any (fun r => r.vver == v && pfVirial (boundBody s r.profile r.pver) == t))

/-- A load of the table has been appended and does not act yet. -/
def virialComing (s : State) (t : Nat) : Bool :=
  (laterRecs s).any (fun r => match r.body with | .config (.virial k _) => k == t | _ => false)

/-- VIRIAL_SET: the new table serves readings that pass step 6 after the completion; a load waits while the copy that it replaces is still bound to a reading (R209, R215). -/
def execVirialSet (d : Nat) (s : State) : Out :=
  .next (hostCmd 0xB8 d (fun b => [(decide (u8 b 16 ≤ 15), 16), (inRange (u8 b 17) 2 32, 17), addrCheck b 24 16]) (fun x s => changing d (fun s =>
    let pts := virialPoints ((x.input.getD []).take (16 * u8 x.bytes 17))
    match virialFault pts with
    | some o => finish d 0x24 (0x8000 + o) [] s
    | none =>
      if oldVirialInUse s (u8 x.bytes 16) || virialComing s (u8 x.bytes 16) then s
      else finishDurable d [] (appendLater (.virial (u8 x.bytes 16) pts) s)) s) s)

/-- Faults of the input block of CONV_TEST, by offset; a fault is reported as R200 reports one of a profile body (log 44). -/
def testFaults (s : State) (b : Bytes) : List Nat :=
  checkFaults ([((Tab.get s.db.profiles (u16 b 0)).isSome, 0), (decide (u8 b 2 < 8), 2), (inRange (u8 b 3) 1 8, 3), (decide (u8 b 4 < 2), 4)] : List Check) ++
  (((List.range 3).map (· + 5)) ++ ((List.range 72).map (· + 184))).filter (fun k => u8 b k != 0)

/-- The output of one path (R217). A value that is too large to post is reported like one out of range (log 44). -/
def testOutput (c : Conversion) (res : List F64) : Bytes :=
  let bad := c.bad || c.big
  let f := fun (v : F64) => toLE 8 v.toNat
  padTo 128 ([BitVec.ofNat 8 (b2n bad), BitVec.ofNat 8 c.region] ++ List.replicate 6 0 ++
    (List.range 4).flatMap (fun q => toLE 8 (w64 (if bad then 0 else c.ns.getD q 0))) ++
    (List.range 4).flatMap (fun q => f ((if bad then res else c.residuals).getD q 0)) ++ f c.v ++ f c.h ++ f c.zf)

/-- CONV_TEST (R217): no validation, no posting. The block of every path that runs is that of the one computation. -/
def execConvTest (d : Nat) (s : State) : Out :=
  .next (hostCmd 0xB9 d (fun b => [addrCheck b 24 64]) (fun x s =>
    let b := x.input.getD []
    let paths := u8 b 2
    match (testFaults s b).min? with
    | some o => badParam d (0x8000 + o) s
    | none =>
      if (bit paths 0 && !calcServes s false) || (bit paths 1 && !calcServes s true) || (bit paths 2 && !isUp s 9) then finish d 0x25 0 [] s
      else
        let body := ((Tab.get s.db.profiles (u16 b 0)).map (·.body)).getD []
        let es := elemsAt b 8 (u8 b 3)
        let h : Option Hist := if bit (u8 b 4) 0 then none else some { time := 0, values := (List.range 8).map (fun i => i64 b (88 + 8 * i)) }
        let res := (List.range 4).map (fun q => BitVec.ofNat 64 (u64 b (152 + 8 * q)))
        let pts := ((Tab.get s.db.virials (pfVirial body)).map (·.points)).getD []
        let c := convert body es (increments body es h 0) h pts res
        let out := (List.range 3).flatMap (fun k => if bit paths k then testOutput c res else padTo 128 [2])
        let s := putOut d (u64 x.bytes 24 + 256) (padTo 768 out) s
        finishOk d (toLE 2 (convNow s) ++ toLE 1 (if bit paths 0 then paths else 0)) s) s)

/-- CONV_STATS. -/
def execConvStats (d : Nat) (s : State) : Out :=
  .next (statsCmd 0xBA d 64 (fun s => s.cv.stats) (fun s => cntClear 1 (onCv (fun c => { c with stats := List.replicate 10 0 }) s))
    (fun s => toLE 2 (convNow s)) s)

end Sys2Proof.Machine
end

