-- ==== Sys2Proof/Machine/Resets.lean ====
section
/-! DEFINITION. Resets (chapter 04), supply and temperature as reset sources (chapter 03), the reset of one island (R82 to R85, R507, R508,
R510), tamper sources and the kill sequence (R425 to R429). -/
namespace Sys2Proof.Config

/-- v_start in 0.1 V (R59: 10.4 V to 10.8 V). Log entry 6. -/
opaque vStart : Nat

end Sys2Proof.Config

namespace Sys2Proof.Machine
open Sys2Proof

/-! ### Sources (R78) -/

/-- Cause bit. -/
def srcBit : RstSrc → Nat
  | .holmPower => 0 | .holmWdt => 1 | .vinOn => 2 | .vinBo => 3 | .thermal => 4 | .kill => 5 | .resetN => 6 | .sysWdt => 7
  | .sysSw => 8 | .holdWake => 9

/-- Reach: 0 HOLM_COLD, 1 COLD, 2 WARM. -/
def srcReach : RstSrc → Nat
  | .holmPower | .holmWdt => 0
  | .vinOn | .vinBo | .thermal | .kill => 1
  | .resetN | .sysWdt | .sysSw | .holdWake => 2

/-- Sources that stay asserted until another command releases them; the others are instants (R86). -/
def srcLasts : RstSrc → Bool
  | .resetN | .vinBo => true
  | _ => false

/-- MAIN is on: CAPE has power. -/
def mainOn (s : State) : Bool := (islOf s 1).phase != .off

/-! ### What each reach clears (R80, R81) -/

/-- Islands 1 to 13 without power, or powered and held (R88). -/
def islandsOff (held : Bool) (l : List Isl) : List Isl :=
  l.zipIdx.map (fun p => if p.2 = 0 then p.1 else if held then { Isl.reset with phase := .held, grant := p.1.grant } else Isl.reset)

/-- Readings of LOG that stand in a buffer or in a batch not confirmed wait again (R121, R454). -/
def logBack (s : State) : State := redeliver (fun e => e.placed.isSome || e.batch.isSome) s

def Power.warm (p : Power) : Power :=
  { Power.reset with vin := p.vin, vinOk := p.vinOk, vbat := p.vbat, tj := p.tj, halved := p.halved, stopB := p.stopB }
def HostIf.warm (h : HostIf) : HostIf := { HostIf.reset with nextDesc := h.nextDesc, nextTag := h.nextTag }
def TableSt.warm (t : TableSt) : TableSt := { TableSt.reset with epoch := t.epoch, hashRoot := t.hashRoot, copyEpoch := t.copyEpoch }
/-- Records that were not programmed are lost; a commit in progress is cut and not completed (R507). -/
def Journal.warm (j : Journal) : Journal :=
  { Journal.reset with next := j.programmed + 1, flash := j.flash, programmed := j.programmed, durable := j.durable }
def Ledger.warm (l : Ledger) (t : Int) : Ledger :=
  { Ledger.reset with code := l.code, missing := l.missing, outStart := some (l.outStart.getD t) }
def Radio.warm (r : Radio) : Radio := { Radio.reset with air := r.air }
def Wired.warm (w : Wired) : Wired := { Wired.reset with term := w.term }
def Time.warm (t : Time) : Time :=
  { Time.reset with counter := rtcTime t, rtc := t.rtc, rtcNs := t.rtcNs, errSet := t.errSet, errAt := t.errAt, wasSet := t.wasSet }
def Arch.warm (a : Arch) : Arch := { Arch.reset with fwd := a.fwd.map (fun f => { f with msgId := none, sent := 0, holdTo := 0 }) }
def Pair.warm (p : Pair) : Pair := { Pair.reset with leaseRx := p.leaseRx, leaseRxAt := p.leaseRxAt, partnerKeys := p.partnerKeys }
def Keys.warm (k : Keys) : Keys :=
  { k with unlocked := false, cache := [], challenge := none, debug := false, fails := 0, msgs := [], stats := List.replicate 9 0, killing := false }
def Flash.warm (f : Flash) : Flash :=
  { f with mount := 0, queues := [[], [], []], running := none, cpAt := none, cpBytes := 0, cpJournal := 0, hostWrites := []
           stats := List.replicate 10 0 }
def Rec.warm (r : Rec) : Rec := { Rec.reset with slots := r.slots, generation := r.generation, lastHour := r.lastHour, gpioIn := r.gpioIn }

/-- Every request that an island has outstanding on a lane ends STRAIT_ABORT (R18). -/
def abortRequests (l : Lane) (s : State) : State := (List.range l.outstanding).foldl (fun s _ => emit (.strait l.dst l.src 0x100) s) s

/-- Everything but HOLM, flash and the pins is cleared (R80). -/
def warmClear (s : State) : State :=
  let s := if s.pair.gate then cutMedia s else s
  let s := (s.fab.lanes.filter (fun l => l.src == 0)).foldl (fun s l => abortRequests l s) s
  let s := logBack (abandonTransfers s)
  let held := s.rs.starting && s.rs.phase == 2
  { s with
    fab := Fab.reset, isl := islandsOff held s.isl, pw := s.pw.warm, host := s.host.warm, tbl := s.tbl.warm, sch := Sched.reset
    rs := { s.rs with recovery := false, optUnverified := false, optDefault := false, p2Again := false, mode := 0, phase := 0, starting := false, dramTrainCold := false }
    ik := Intake.reset, cv := s.cv.warm, db := Db.reset, jr := s.jr.warm, lg := s.lg.warm (rtcTime s.tm), plc := Plc.reset, rad := s.rad.warm
    wir := s.wir.warm, tm := s.tm.warm, arch := s.arch.warm, pair := s.pair.warm, keys := s.keys.warm, fl := s.fl.warm, tel := s.tel.warm }

/-- What HOLM_COLD clears beside it: HOLM itself, the lagoon under a new key, and the trials (R80, R97, R465). -/
def holmClear (s : State) : State :=
  let draw := (Config.trng s.free).toNat % 2 ^ 128
  useFree
    { s with
      rs := { s.rs with powerCycles := 0, opSeconds := 0, opNs := 0, bkp := List.replicate 8 0, lagoon := [], epCount := 0, attempts := List.replicate 14 0
                        episodes := [], epStart := 0, lagoonFormat := Config.freeNat s.free, lagoonDraw := draw, holmLost := true }
      tm := { s.tm with rtc := 0, rtcNs := 0, counter := 0, errSet := Time.reset.errSet, errAt := s.now, wasSet := false }
      keys := { s.keys with live := none, refs := 0, latch := 0, killed := 0, active := 0, pendSources := 0, pendState := 0, pendTime := 0
                            oweTamper := false, oweKill := false }
      wir := { s.wir with term := [false, false] }
      lg := { s.lg with outStart := some 0 }
      img := { s.img with types := s.img.types.map (fun t => if t.state = 1 then { t with running := t.confirmed, state := 0, deadline := none } else t) } }

/-! ### Episodes (R86 to R88, R97) -/

/-- A power cycle more; a count at its largest value stops (R80, R478). -/
def countPower (s : State) : State :=
  if s.rs.powerCycles < ctrMax then onRs (fun r => { r with powerCycles := r.powerCycles + 1 }) s
  else onTel (fun r => { r with countStuck := true }) s

/-- The first assertion of an episode clears what reach WARM clears, whatever its own reach. -/
def openEpisode (s : State) : State :=
  if s.rs.episode then s
  else
    let p2 := s.rs.starting && s.rs.phase == 2
    onRs (fun r => { r with episode := true, asserted := [], reach := 3, epCauses := 0, epStart := rtcTime s.tm, inP2 := p2 }) (warmClear s)

/-- RESET_CAUSE: HOLM_COLD leaves only its own bit (R85). A narrower source that joins the episode later adds its bit, by R80's row: whether
it may after HOLM_COLD is not stated (log 95). -/
def causeAfter (src : RstSrc) (old : Nat) : Nat := if srcReach src = 0 then setBit 0 (srcBit src) else setBit old (srcBit src)

/-- A source of reach WARM or wider is asserted: it begins an episode or joins the one that is open (R86, R87). -/
def assertSource (src : RstSrc) (s : State) : State :=
  let n := srcReach src
  let s := openEpisode s
  let s := if n = 0 then holmClear s else if n = 1 && 1 < s.rs.reach then countPower s else s
  let s := if n < 2 then { s with isl := islandsOff false s.isl } else s
  onRs (fun r =>
    { r with
      cause := causeAfter src r.cause, reach := min r.reach n, epCauses := setBit r.epCauses (srcBit src)
      asserted := if srcLasts src then r.asserted.filter (· != src) ++ [src] else r.asserted }) s

/-- A source is released. -/
def releaseSource (src : RstSrc) (s : State) : State := onRs (fun r => { r with asserted := r.asserted.filter (· != src) }) s

/-- MODE_0..2 are sampled as P2 begins, and CAPE is released (R46, R88, R89). -/
def beginP2 (s : State) : State :=
  onIsl 1 (fun i => { i with phase := .running, since := s.now }) (onRs (fun r => { r with phase := 2, phaseSince := s.now, mode := r.modeLevel }) s)

/-- Where start-up begins (R73, R86, R88). -/
def startPhase (s : State) : Nat :=
  if s.rs.reach = 2 && s.rs.inP2 then 2 else if s.rs.reach < 2 || !s.pw.vinOk || s.rs.thermalHold then 0 else 1

/-- RESET_EPISODE_END (R86, R97): the lagoon keeps the episode, and start-up begins. -/
def execResetEpisodeEnd (s : State) : Out :=
  .next <|
    if !s.rs.episode || !s.rs.asserted.isEmpty then s
    else
      let rec_ : EpisodeRec := { reach := s.rs.reach, causes := s.rs.epCauses, start := s.rs.epStart.toNat, ready := 0 }
      let hold := s.rs.thermalHold || bit s.rs.epCauses 4
      let s := onRs (fun r => { r with thermalHold := hold }) s
      let phase := startPhase s
      let s := onRs (fun r =>
        { r with
          episode := false, lastReach := r.reach, episodes := (rec_ :: r.episodes).take 16, epCount := r.epCount + 1, epCauses := 0
          starting := true, phase := phase, phaseSince := s.now, inP2 := false }) s
      let s := onPw (fun p => { p with p1Switch := 0, p1Since := s.now }) s
      if phase = 2 then beginP2 s else s

/-! ### Supply (R58, R59, R493) -/

/-- v_start, within its limits. -/
def vStart : Nat := min 108 (max 104 Config.vStart)

/-- The least time for which MAIN is held up from the warning (R59: t_holdup, 2.5 ms). -/
def holdUp : Nat := 2500000

/-- The commit of the warning still runs, or is owed. -/
def commitOwed (s : State) : Bool := s.pw.warned && s.pw.lastCommit && isUp s 3 && !s.fl.readOnly

/-- HOLM loses its supply, and with it its state and the latch of the terminations (R54, R58). -/
def holmOff (s : State) : State := onWir (fun w => { w with term := [false, false] }) (onIsl 0 (fun i => { i with phase := .off }) s)

/-- VIN_BO (R59): MAIN is switched off once the warning's commit is complete, or when the energy that holds MAIN up is spent. Without
VBAT, HOLM loses its state with VIN (R58). -/
def execVinBo (s : State) : Out :=
  .next <|
    if s.pw.vinOk && (s.pw.warned || s.rs.episode || s.rs.starting || s.pw.st == .hold) then
      let s := if commitOwed s then passTo (s.pw.warnAt + holdUp) s else s
      let s := assertSource .vinBo (onPw (fun p => { p with vinOk := false }) s)
      if s.pw.vbat then s else holmOff s
    else s

/-- VIN_ON (R78): the brown-out is released, and the return of VIN is asserted in the same episode. -/
def execVinOn (vin : Nat) (s : State) : Out :=
  .next <|
    if s.pw.vinOk || vin < vStart || !isUp s 0 then s
    else assertSource .vinOn (releaseSource .vinBo (onPw (fun p => { p with vin := vin, vinOk := true }) s))

/-- VBAT_LOST (R58, R493): with VIN absent HOLM loses its state. -/
def execVbatLost (s : State) : Out :=
  .next <|
    if s.pw.vinOk then onPw (fun p => { p with vbat := false }) s
    else holmOff (onPw (fun p => { p with vbat := false }) s)

/-- HOLM_POWER_ON (R78): supply returns to HOLM, from VIN where it is present, else from VBAT. -/
def execHolmPowerOn (vin : Nat) (s : State) : Out :=
  .next <|
    if isUp s 0 then s
    else
      let s := onPw (fun p => { p with vin := vin, vinOk := decide (vStart ≤ vin), vbat := p.vbat || vin == 0 }) s
      let s := onRs (fun r => { r with asserted := [] }) (onIsl 0 (fun i => { i with phase := .running, since := s.now }) s)
      assertSource .holmPower s

/-! ### Watchdogs, RESET_N, wake -/

/-- HOLM_WDT_EXPIRE (R78). -/
def execHolmWdtExpire (s : State) : Out := .next (if isUp s 0 then assertSource .holmWdt s else s)

/-- SYS_WDT_EXPIRE (R78): CAPE, released since the start, has not serviced it, be it stopped, held or failed. -/
def execSysWdtExpire (s : State) : Out := .next (if mainOn s && 2 ≤ s.rs.phase && !s.rs.episode then assertSource .sysWdt s else s)

/-- ISL_WDT_EXPIRE (R78, R87). -/
def execIslWdtExpire (island : Nat) (s : State) : Out := .next (startIslandReset island 1 s)

/-- The module is in HOLD with MAIN off. -/
def inHold (s : State) : Bool := s.pw.st == .hold && !mainOn s && !s.rs.episode

/-- RESET_N_ASSERT (R86). In HOLD it is also the wake source (R60, R78). -/
def execResetNAssert (s : State) : Out :=
  .next <|
    if !isUp s 0 then s
    else if inHold s then assertSource .holdWake (assertSource .resetN s)
    else assertSource .resetN s

/-- RESET_N_RELEASE (R86). -/
def execResetNRelease (s : State) : Out := .next (releaseSource .resetN s)

/-- HOLD_WAKE_ALARM (R60). -/
def execHoldWakeAlarm (s : State) : Out :=
  .next (match s.pw.holdWake with
    | some t => if inHold s then assertSource .holdWake (passTo t s) else s
    | none => s)

/-- MAIN goes off at the end of HOLD's entry (R60, R62): nothing but HOLM is powered. -/
def enterHold (s : State) : State :=
  let wake := s.pw.holdWake
  let out := s.lg.outStart
  onLg (fun l => { l with outStart := out }) (onPw (fun p => { p with st := .hold, holdWake := wake }) (warmClear s))

/-! ### Temperature (R72, R73) -/

/-- The commit of the 140 degree crossing is over, or cannot be made. -/
def hotDone (s : State) : Bool := !s.pw.lastCommit || !isUp s 3 || s.fl.readOnly

/-- THERMAL is asserted once that commit has completed. -/
def thermalDue (s : State) : State := if s.pw.hotOff && !s.rs.episode && hotDone s then assertSource .thermal s else s

/-- Raised while the event registers or CAPE's copy can take it. -/
def raiseHolm (n info : Nat) (s : State) : State := if isUp s 1 || isUp s 10 then raise n info s else s

/-- The 140 degree threshold is crossed upward. -/
def overHeat (s : State) : State :=
  let s := raiseHolm 41 2 s
  if s.rs.phase = 7 then commitNow (onPw (fun p => { p with hotOff := true }) s) else assertSource .thermal s

/-- THERMAL_SAMPLE (R72, R73). -/
def execThermalSample (tj : Int) (s : State) : Out :=
  .next <|
    if !isUp s 0 then s
    else
      let s := onPw (fun p => { p with tj := tj }) s
      let s :=
        if !s.pw.halved && 125 ≤ tj then raiseHolm 41 0 (onPw (fun p => { p with halved := true }) s)
        else if tj < 120 then onPw (fun p => { p with halved := false }) s else s
      let s :=
        if !s.pw.stopB && 130 ≤ tj then raiseHolm 41 1 (onPw (fun p => { p with stopB := true }) s)
        else if tj < 125 then onPw (fun p => { p with stopB := false }) s else s
      if s.pw.hotOff then thermalDue s
      else if tj < 140 || s.rs.episode || s.pw.st == .hold && !mainOn s then s
      else if s.rs.phase = 0 then onRs (fun r => { r with thermalHold := true }) s
      else thermalDue (overHeat s)

/-- GROUP_COMMIT_COMPLETE (R31, R72, R403): the last commit of the 140 degree crossing asserts THERMAL. -/
def execGroupCommitComplete (s : State) : Out := .next (thermalDue (groupCommitComplete s))

/-! ### What the reset of one island clears (R14, R18, R82) -/

/-- A lane of an island that is reset (R14, R18, R82): messages under way are discarded, but the straits to CAPE hold their words. -/
def resetLane (n : Nat) (l : Lane) : Lane :=
  if l.src = n then { l with words := [], outstanding := 0, held := [], req := false, ack := false }
  else if l.dst = n && n != 1 then { l with words := [], outstanding := 0, req := false, ack := false }
  else l

/-- Straits of an island: transfers in its buffers are discarded; requests outstanding with it end STRAIT_ABORT, each one (R18). -/
def resetLanes (n : Nat) (s : State) : State :=
  let hit := s.fab.lanes.filter (fun l => l.dst == n && n != 1)
  let s := onFab (fun f => { f with lanes := f.lanes.map (resetLane n) }) s
  hit.foldl (fun s l => abortRequests l s) s

/-- A CALC island is out of service until its known-answer test (R213, R216). -/
def clearCalc (b : Bool) (s : State) : State :=
  notePaths (onCv (fun c => if b then { c with okB := false, katB := false } else { c with okA := false, katA := false }) (calcLost b s))

/-- LEDGER samples no TARIFF inputs until a code is stable again (R240). -/
def clearLedger (s : State) : State :=
  onLg (fun l =>
    { l with sampled := false, outRest := none, codeOwed := none, outStart := some (l.outStart.getD (rtcTime s.tm)), lastCode := 0, period := 0, source := 0, changes := 0
             stats := List.replicate 6 0, prepayStats := List.replicate 7 0, balStats := List.replicate 7 0 }) s

/-- Host commands whose items ran on ATOLL end (R165). -/
def endItemDescs (s : State) : State :=
  let ds := s.sch.items.filterMap itemDesc ++ s.tm.steps.filterMap (·.desc)
  let s := onKeys (fun k => { k with msgs := k.msgs.filter (fun m => !ds.contains m.desc) }) s
  (ds.eraseDups).foldl (fun s d => if (descOf s d).any (fun x => x.stage == .started || x.stage == .waiting) then finish d 7 0 [] s else s) s

/-- ATOLL (R65, R165): its cores lose their power and their credits. -/
def clearAtoll (s : State) : State :=
  let s := dropItems (endItemDescs s)
  let s := onTm (fun t => { t with steps := [] }) s
  let s := onPw (fun p => { p with waiting := p.waiting.filter (fun q => q.island != 9) }) (onIsl 9 (fun i => { i with grant := min i.grant i.idle }) s)
  cntClear 13 (onSch (fun c =>
    { c with stats := List.replicate 8 0, sat := 0, used := 0, busyNow := [0, 0, 0], busy := [0, 0, 0], cores := List.replicate 24 Core.reset }) s)

/-- Descriptors that NET has fetched and not started are fetched again from SQ_HEAD as restored (R508). -/
def unfetch (s : State) : State :=
  let un := s.host.descs.filter (fun x => x.stage == .fetching || x.stage == .fetched)
  let ids := un.map (·.id)
  let s := un.foldl (fun s x =>
    if x.orphan then s
    else onRing x.ring (fun r => { r with sqHead := (r.sqHead + 2 ^ r.sqLog - 1) % 2 ^ r.sqLog, reserved := r.reserved - 1 }) s) s
  let s := dropDma (fun d => ids.any (fun k => dmaOfDesc k d)) s
  onHost (fun h => { h with descs := h.descs.filter (fun x => !ids.contains x.id) }) s

/-- Descriptors whose host access was in progress end STRAIT_ABORT (R508). -/
def cutDma (s : State) : State :=
  let ds := s.host.dma.filterMap (fun d => match d.use with
    | .input k | .output k => some k
    | .fetch _ | .deliver _ | .remoteRead .. => none)
  let s := onHost (fun h => { h with dma := [] }) s
  ds.eraseDups.foldl (fun s k =>
    match descOf s k with
    | none => s
    | some x =>
      if x.stage == .done then (if x.status = 0 then spoilWith 7 x s else s) else finish k 7 0 [] s)
    (onHost (fun h => { h with descs := h.descs.map (fun x => { x with writes := 0 }) }) s)

/-- Buffers that NET was filling complete ABORTED, and their readings wait again (R508). -/
def cutBufs (s : State) : State :=
  let bs := s.host.bufs.filter (fun b => 0 < b.records)
  bs.foldl (fun s b =>
    let s := redeliver (fun e => e.placed == some b.desc && e.batch.isNone) s
    finish b.desc 4 0 [] (onHost (fun h => { h with bufs := h.bufs.filter (fun x => x.desc != b.desc) }) s)) s

/-- Completion entries sent over Urrauf and not acknowledged are sent again after the release: none is lost (R508). -/
def keepEntries (s : State) : State :=
  let sent := s.arch.peers.flatMap (fun p => p.out.filterMap (fun o => match o.use with | .entry n => some (n, o.body) | _ => none))
  onHost (fun h => { h with owed := h.owed ++ sent }) s

/-- NET (R14, R508): no session, no link, no time base. -/
def clearNet (s : State) : State :=
  let s := keepEntries (cutBufs (cutDma (unfetch s)))
  let s := onHost (fun h => { h with link := .down, speed := 0, width := 0, l1Sub := 0, rings := h.rings.map (fun r => { r with zlr := false, zlrBack := false }) }) s
  let s := (s.arch.peers.map (·.member)).foldl (fun s m => closeSession m s) s
  let s := onArch (fun a =>
    { a with fwd := a.fwd.map (fun f => { f with msgId := none, holdTo := 0 }), owed := [], zlr := [], stats := List.replicate 10 0
             peers := a.peers.map (fun p => { p with out := [], fenced := [], retryAt := none }) }) s
  stopTimeBase (cntClear 8 (cntClear 9 (onTm (fun t => { t with stats := List.replicate 12 0 }) (onTel (fun r => { r with eth := Rec.reset.eth }) s))))

/-- PAIR (R14, R391): the gate closes and the lease lapses in hardware, but for a module that is no pair member. -/
def clearPair (s : State) : State :=
  if s.pair.cfg.isNone then s
  else
    let s := if holdsToken s then setPairState .fenced s else if s.pair.st == .standby then setPairState .waiting s else s
    cntClear 10 <| onPair (fun p =>
      { p with trained := false, isthmus := Peer.fresh p.isthmus.member 0, joined := false, takeover := none, leaseAt := none, renews := [], renewAt := none
               sync := false, waitAcks := [], owesRelease := false, stats := List.replicate 8 0 }) s

/-- PLC: its stations are learned again, but for an activation that waits for them (R463). -/
def clearPlc (s : State) : State :=
  let keep := s.img.act.any (fun a => a.type == 3)
  cntClear 5 <| onPlc (fun p =>
    { p with stations := if keep then p.stations else [], bcast := [], bcSeq := 0, drive := 0, driveEnd := 0, lag2 := 0, lag3 := 0, stats := Plc.reset.stats
             phases := p.phases.map (fun f => { PlcPhase.reset with set := f.set }) }) s

/-- RADIO. -/
def clearRadio (s : State) : State :=
  let keep := s.img.act.any (fun a => a.type == 4)
  cntClear 6 <| onRad (fun r =>
    { r with children := if keep then r.children else [], stats := Radio.reset.stats
             radios := r.radios.map (fun x => { RadioSt.reset with set := x.set, reg := x.reg, hopVersion := x.hopVersion }) }) s

/-- The logic and SRAM of island n are cleared (R80). -/
def clearIsland (n : Nat) (s : State) : State :=
  match n with
  | 1 => onTel (fun r => { r with copy := 0, copyDetail := List.replicate 32 (0, 0), window := [], loading := false, flushDue := false }) (thaw s)
  | 2 => cntClear 11 (onKeys (fun k => { k with cache := [], challenge := none, stats := List.replicate 9 0 }) s)
  | 3 => cntClear 12 (onFl (fun f => { f with stats := List.replicate 10 0 }) s)
  | 4 => dropTx 1 id (dropTx 0 id ((List.range 8).foldl (fun s q => flushQueue q s) s))
  | 5 => onTbl (fun t => { t with ovfReload := true, ovfReset := true }) s
  | 6 => clearCalc false s
  | 7 => clearCalc true s
  | 8 => clearLedger s
  | 9 => clearAtoll s
  | 10 => clearNet s
  | 11 => clearPair s
  | 12 => clearPlc s
  | 13 => clearRadio s
  | _ => s

/-- A transmission of the island that is reset ends within 2 µs (R45). -/
def cutIsland (n : Nat) (s : State) : State :=
  if !s.pair.gate then s
  else if n = 12 then emit (.cut 0) s else if n = 13 then emit (.cut 1) s else if n = 4 then emit (.cut 2) s else s

/-- The reset of island n is asserted (R82 step 4). -/
def assertIsland (n : Nat) (s : State) : State :=
  let s := onIsl n (fun i => { i with phase := .inReset, since := s.now }) (abandonReceiving s)
  clearIsland n (discardAnswers n (resetLanes n (cutIsland n s)))

/-- The island still owes a response to a request it took (R82). -/
def owesResponse (n : Nat) (s : State) : Bool := s.fab.lanes.any (fun l => l.dst == n && n != 1 && 0 < l.outstanding)

/-- IDLE_ACK (R82 step 2, R507): an island answers when it has completed what it began: no request is open, MEM has no commit in progress,
REEF applies no key message. -/
def execIdleAck (island : Nat) (s : State) : Out :=
  .next <|
    if (islOf s island).phase != .idleReq || (island == 3 && s.jr.commit.isSome) || (island == 2 && !s.keys.msgs.isEmpty) ||
        owesResponse island s then s
    else assertIsland island s

/-- Descriptors whose command an island serves, and that do not wait for durability or for an activation. -/
def servedDescs (n : Nat) (s : State) : List Nat :=
  let durable := s.jr.waits.filterMap (fun w => match w.2 with | .complete d .. => some d | _ => none)
  (s.host.descs.filter (fun x =>
    servedBy (opcodeOf x) == n && (x.stage == .started || x.stage == .waiting) && !durable.contains x.id && !s.img.act.any (fun a => a.desc == x.id))).map (·.id)

/-- IDLE_TMO_EXPIRE (R82, R507): every outstanding request ends STRAIT_ABORT, and a commit in progress is cut. -/
def execIdleTmoExpire (island : Nat) (s : State) : Out :=
  .next <|
    let i := islOf s island
    if i.phase != .idleReq then s
    else
      let s := passTo (i.since + i.tmoNow * 1000) s
      let s := (servedDescs island s).foldl (fun s d => finish d 7 0 [] s) s
      let s := if island = 2 then
          (s.keys.msgs.map (·.desc)).foldl (fun s d => finish d 7 0 [] s) (onKeys (fun k => { k with msgs := [] }) s)
        else s
      let s := if island = 3 then onJr (fun j => { j with commit := none, cut := j.commit <|> j.cut }) s else s
      assertIsland island s

/-- RESET_HOLD_END (R82 step 5): at least 2 µs of reset, then the PLL starts. -/
def execResetHoldEnd (island : Nat) (s : State) : Out :=
  .next <|
    let i := islOf s island
    if i.phase == .inReset then
      let s := passTo (i.since + 2000) s
      onIsl island (fun i => { i with phase := .locking, since := s.now }) s
    else s

/-! ### Release (R83 to R85) -/

/-- The PCIe endpoint starts link training at the later of the end of P2 and the release of PERST_N (R90, R105). -/
def trainLink (s : State) : State :=
  if isUp s 10 && 2 < s.rs.phase && !s.rs.perst && !remoteHosted s then onHost (fun h => { h with link := .training }) s else s

/-- NET runs again: its time base, its sessions, its PCIe endpoint (R82, R90, R350). -/
def releaseNet (s : State) : State := trainLink ((if inService s then openSessions else id) (startTimeBase s))

/-- CAPE makes the items of stored frames again, where the meter's key is installed (R165, R192). -/
def resumeStored (s : State) : State :=
  if keyless s || isStandby s then s
  else (s.db.quars.filter (fun q => q.reason == 2 && (currentKey s q.short q.id).isSome)).foldl (fun s q => replayStored q.short s) s

/-- ATOLL runs again with a flow-hash key drawn anew, and the creators that wait make their items (R157, R165). -/
def releaseAtoll (s : State) : State :=
  resumeStored <| retryAsks (setCores (useFree (onSch (fun c => { c with flowDraw := (Config.trng s.free).toNat, window := s.now }) s)))

/-- An island is released: what that sets going. -/
def releaseIsland (n : Nat) (s : State) : State :=
  let s := onIsl n (fun i => { i with phase := .running, since := s.now, byReset := false }) s
  match n with
  | 1 => releaseHeldXfers (notePaths s)
  | 3 => soundDrain (notePaths s)
  | 8 => retariff s
  | 9 => releaseAtoll s
  | 10 => if 2 < s.rs.phase then deliverAll (releaseNet s) else s
  | _ => notePaths s

/-- The phase of start-up at whose end an island is released (R89). -/
def releasedAt (n : Nat) : Nat := if n = 1 then 1 else if n = 10 then 2 else if n = 2 then 3 else if n = 3 then 4 else if n ≤ 9 then 5 else 6

/-- PLL_LOCK_HELD (R82 steps 6 and 7, R83, R464, R508). During start-up an island waits for the end of its phase (R89). -/
def execPllLockHeld (island : Nat) (s : State) : Out :=
  .next <|
    let i := islOf s island
    if i.phase != .locking then s
    else if s.rs.starting && s.rs.phase ≤ releasedAt island then onIsl island (fun i => { i with phase := .held, since := s.now }) s
    else
      let s := releaseIsland island s
      if i.byReset then raise 58 (island + 16 * i.srcNo) (noteTrialReset island s) else s

/-- An island's clock in MHz (R14): CAPE runs at 50 MHz in EBB, ATOLL at 400 MHz while halved (R60, R72). -/
def islandMhz (s : State) (n : Nat) : Nat :=
  if n = 1 && s.pw.st == .ebb then 50
  else if n = 9 && s.pw.halved then 400
  else [0, 400, 500, 800, 400, 400, 600, 600, 500, 800, 250, 250, 200, 100].getD n 400

/-- 64 cycles of that clock in ns (R83). -/
def lockCycles (s : State) (n : Nat) : Nat := 64000 / islandMhz s n

/-- A third lock failure in a row: the island is marked failed and switched off (R83, R67: its requests go). -/
def markFailed (n : Nat) (s : State) : State :=
  let s := onIsl n (fun i => { i with phase := .failed, since := s.now, grant := 0, idle := 0 }) s
  let s := onPw (fun p => { p with waiting := p.waiting.filter (fun q => q.island != n) }) s
  let s := if n = 11 then clearPair s else s
  notePaths (giveUp .diagnosis (raise 59 n s))

/-- PLL_LOCK_FAIL (R83): lock does not come, or goes within 64 cycles after release. -/
def execPllLockFail (island : Nat) (s : State) : Out :=
  .next <|
    let i := islOf s island
    let early := i.phase == .running && s.now ≤ i.since + lockCycles s island
    if island = 0 || 13 < island || !(i.phase == .locking || (i.phase == .held && s.rs.starting) || early) then s
    else
      let s := if early then clearIsland island (resetLanes island s) else s
      let s := onIsl island (fun i => { i with lockFails := i.lockFails + 1 }) s
      if 3 ≤ (islOf s island).lockFails then markFailed island s
      else onIsl island (fun i => { i with phase := .retryWait, since := s.now }) s

/-- LOCK_RETRY_EXPIRE (R83): t_retry is 1 ms. During start-up the island waits again for the end of its phase. -/
def execLockRetryExpire (island : Nat) (s : State) : Out :=
  .next <|
    let i := islOf s island
    if i.phase == .retryWait then
      let s := passTo (i.since + msNs) s
      onIsl island (fun i => { i with phase := if s.rs.starting && s.rs.phase ≤ releasedAt island then .held else .locking, since := s.now }) s
    else s

/-- PLL_LOCK_LOST (R83): later than 64 cycles after release it is a new island reset. What number its source carries is not stated: a free
value (log 43). -/
def execPllLockLost (island : Nat) (s : State) : Out :=
  .next <|
    if (islOf s island).phase == .running then
      let s := passTo ((islOf s island).since + lockCycles s island + 1) s
      useFree (startIslandReset island (Config.freeNat s.free % 4) s)
    else s

/-- ISL_CTRL.RESET (R84, R85): a failed island starts a new count; another is reset at reach ISLAND. -/
def hostReset (n : Nat) (s : State) : State :=
  if n = 0 || 13 < n || s.rs.episode then s
  else if (islOf s n).phase == .failed then
    let g := idleGrantOf s n
    onIsl n (fun i => { i with phase := .inReset, since := s.now, lockFails := 0, byReset := true, srcNo := 0, grant := g, idle := g }) s
  else startIslandReset n 0 s

/-! ### Tamper and kill (R425 to R429) -/

def responseOf (k : Keys) (n : Nat) : Nat := (k.live.getD TamperCfg.reset).response.getD n 0
def levelOf (k : Keys) (n : Nat) : Nat := if n < 4 then (k.live.getD TamperCfg.reset).level.getD n 0 else 1

/-- TAMPER is raised in P7, or owed until it (R427). -/
def raiseTamper (s : State) : State :=
  if inService s then raise 32 s.keys.latch s else onKeys (fun k => { k with oweTamper := true }) s

/-- The pending-kill record (R429): TIME is that of the first detection. -/
def recordKill (sources st : Nat) (s : State) : State :=
  let t := stampOf (rtcTime s.tm)
  onKeys (fun k => { k with pendSources := k.pendSources ||| sources, pendState := st, pendTime := if k.pendState = 0 then t else k.pendTime }) s

/-- Commands whose operation in REEF a kill ends: key messages, and image and campaign commands that hash or sign (R118, R428). -/
def killDescs (s : State) : List Nat :=
  (s.host.descs.filter (fun x => servedBy (opcodeOf x) == 2 && (x.stage == .started || x.stage == .waiting))).map (·.id)

/-- Steps 1 to 3 of R428: keys gone, token given up, the slot Dead. The commit of step 4 starts at once. -/
def startKill (sources : Nat) (s : State) : State :=
  let ds := (killDescs s ++ s.keys.msgs.map (·.desc)).eraseDups
  let s := recordKill sources 3 s
  let s := onKeys (fun k => { k with unlocked := false, cache := [], msgs := [], challenge := none, killing := true }) s
  let s := giveUp .kill (killReadings (ds.foldl (fun s d => finish d 9 0 [] s) s))
  let n := (currentSlot s.keys).getD 0
  commitNow (onKeys (fun k => { k with slots := modAt k.slots n (fun _ => RootSlot.gone) }) s)

/-- A source whose response is kill (R428, R429). -/
def killSource (sources : Nat) (s : State) : State :=
  if s.keys.killing then onKeys (fun k => { k with pendSources := k.pendSources ||| sources }) s
  else if !mainOn s || s.rs.phase < 3 || s.rs.episode then recordKill sources 1 s
  else if s.keys.unlocked && s.keys.st == 1 then startKill sources s
  else s

/-- An active source: latched, and its response (R427). -/
def tamperDetected (n : Nat) (s : State) : State :=
  let s := onKeys (fun k => { k with latch := setBit k.latch n }) s
  let r := responseOf s.keys n
  if s.keys.live.isNone then recordKill (2 ^ n) 2 s
  else if r = 0 then s
  else
    let s := raiseTamper (ebbWake s)
    let s := if r = 2 then killSource (2 ^ n) s else s
    if inHold s then assertSource .holdWake s else s

/-- Sources 6 and 8 are watched in RUN, TRIM and EBB (R425). -/
def watched (s : State) (n : Nat) : Bool :=
  if n = 9 || 9 < n then false
  else if n = 6 || n = 8 then s.pw.st == .run || s.pw.st == .trim || s.pw.st == .ebb
  else true

/-- TAMPER_SOURCE_ACTIVE (R425 to R429): the condition of a source has held for FILTER ms, or has ended. With LEVEL 0 or 3 `on` is the
input's new level; with LEVEL 3 a change is an instant. -/
def execTamperSourceActive (source : Nat) (on : Bool) (s : State) : Out :=
  .next <|
    if !isUp s 0 || !watched s source then s
    else
      let lv := levelOf s.keys source
      let high := on != (lv == 1)
      let s := if source < 4 then onKeys (fun k => { k with levels := if high then setBit k.levels source else clrBit k.levels source }) s else s
      if lv = 0 then s
      else if lv = 3 then
        if bit s.keys.refs source == on then s
        else tamperDetected source (onKeys (fun k => { k with refs := if on then setBit k.refs source else clrBit k.refs source }) s)
      else
        let act := on
        if !act then onKeys (fun k => { k with active := clrBit k.active source }) s
        else if bit s.keys.active source then s
        else tamperDetected source (onKeys (fun k => { k with active := setBit k.active source }) s)

/-- KILL_SEQUENCE_DONE (R428 step 5): the commit is complete, the record is cleared. -/
def execKillSequenceDone (s : State) : Out :=
  .next <|
    if !s.keys.killing || (s.pw.lastCommit && isUp s 3 && !s.fl.readOnly) then s
    else
      let s := onKeys (fun k =>
        { k with killed := k.pendSources, killTime := k.pendTime, pendSources := 0, pendState := 0, pendTime := 0, killing := false
                 oweKill := true, oweTamper := true }) s
      assertSource .kill s

end Sys2Proof.Machine
end

