-- ==== Sys2Proof/Machine/Startup.lean ====
section
/-! DEFINITION. The start-up phases P0 to P7 (R69, R73, R85, R88 to R95): options, a pending kill, the mount of the flash (R441 to R443),
replay (R241), and the end of P6 (R61). -/
namespace Sys2Proof.Machine
open Sys2Proof

/-- No island that the module cannot do without is marked failed (R85). -/
def essentialOk (s : State) : Bool :=
  [1, 2, 3, 4, 5, 8, 9, 10].all (fun n => (islOf s n).phase != .failed) && [6, 7].any (fun n => (islOf s n).phase != .failed)

/-- A phase runs, and nothing holds the module in it (R85). -/
def inPhase (n : Nat) (s : State) : Bool := s.rs.starting && s.rs.phase == n && isUp s 0 && essentialOk s
def nextPhase (n : Nat) (s : State) : State := onRs (fun r => { r with phase := n, phaseSince := s.now }) s

/-- An island's release at the end of its phase. -/
def releaseHeld (n : Nat) (s : State) : State :=
  if (islOf s n).phase == .held then noteTrialReset n (onIsl n (fun i => { i with phase := .running, since := s.now }) s) else s

/-- Islands that must run before a phase may end (R85). -/
def readyToRun (s : State) (l : List Nat) : Bool := l.all (fun n => (islOf s n).phase == .held || isUp s n)

/-! ### P0 and P1 -/

/-- PHASE_P0_END (R73, R89). -/
def execPhaseP0End (s : State) : Out :=
  .next <|
    if !inPhase 0 s || !s.pw.vinOk || (s.rs.thermalHold && 115 < s.pw.tj) then s
    else onPw (fun p => { p with p1Switch := 0, p1Since := s.now }) (onRs (fun r => { r with thermalHold := false }) (nextPhase 1 s))

/-- P1_POWER_SWITCH (R69). -/
def execP1PowerSwitch (s : State) : Out :=
  .next <|
    let n := s.pw.p1Switch + 1
    if !inPhase 1 s || 13 < n then s
    else
      let s := if 1 < n then passTo (s.pw.p1Since + 200000) s else s
      let g := idleGrantOf s n
      onIsl n (fun _ => { Isl.reset with phase := .held, since := s.now, grant := g, idle := g }) (onPw (fun p => { p with p1Switch := n, p1Since := s.now }) s)

/-- PHASE_P1_END (R89). -/
def execPhaseP1End (s : State) : Out :=
  .next <|
    if !inPhase 1 s || s.pw.p1Switch < 13 || (islOf s 1).phase != .held then s
    else noteTrialReset 1 (beginP2 s)

/-! ### P2: options (R91, R92, R94, R95) -/

/-- What P2 of a first pass finds: no copy marked invalid. -/
def TwoBank.trust {α : Type} (t : TwoBank α) : TwoBank α :=
  { t with bank0 := { t.bank0 with bad := false }, bank1 := { t.bank1 with bad := false } }

/-- OPT_STATUS bits of a record, without MAC. -/
def bankBits {α : Type} (t : TwoBank α) : Nat :=
  b2n (t.bank0.current t.type).isSome + 2 * b2n (t.bank1.current t.type).isSome + 4 * b2n (t.sel == some true)
def bankSeq {α : Type} (t : TwoBank α) : Nat := (t.selected.map (·.seq)).getD 0

/-- OPT_STATUS and OPT_SEQ. -/
def noteBanks (s : State) : State :=
  onTel (fun r =>
    { r with
      optStatus := bankBits s.optStore + 16 * bankBits s.keys.counter + 256 * bankBits s.pairStore
      optSeq := [bankSeq s.optStore, bankSeq s.keys.counter, bankSeq s.pairStore] }) s

/-- The selected copies. -/
def loadStores (s : State) : State :=
  let s := if s.rs.p2Again then s
    else { s with optStore := s.optStore.trust, pairStore := s.pairStore.trust, keys := { s.keys with counter := s.keys.counter.trust } }
  let o := s.optStore.selected.map (·.body)
  noteBanks { s with
    opt := o.getD Opt.reset
    pair := { s.pair with cfg := s.pairStore.selected.map (·.body) }
    rs := { s.rs with optDefault := o.isNone } }

/-- The settings of the store in force at once, before any link runs. -/
def startOpt (s : State) : State :=
  let s := loadOpt s
  let o := s.opt
  let s := onSch (fun c => { c with set := o.sched, nextSet := none }) s
  let s := onPlc (fun p => { p with phases := p.phases.map (fun f => { f with set := o.plc }) }) s
  let s := takeRadioSet 1 (takeRadioSet 0 s)
  let s := onArch (fun a => { a with member := o.member.toNat, role := roleNo o.role }) s
  onPair (fun p => { p with isthmus := Peer.fresh o.member.toNat 0 }) s

/-- A start from the recovery image powers CAPE, REEF, MEM and NET only (R458). -/
def recoveryPower (s : State) : State :=
  if s.rs.recovery then
    { s with isl := s.isl.zipIdx.map (fun p => if [0, 1, 2, 3, 10].contains p.2 then p.1 else { Isl.reset with phase := .switchedOff }) }
  else s

/-- The end of P2 for a pending-kill record that no live copy could judge (R429), and references after HOLM_COLD (R426). -/
def judgePending (s : State) : State :=
  let s := if s.rs.holmLost then
      onKeys (fun k => { k with refs := (List.range 4).foldl (fun v n => if levelOf k n = 3 then (if bit k.levels n then setBit v n else clrBit v n) else v) k.refs }) s
    else s
  if s.keys.pendState != 2 then s
  else if (List.range 10).any (fun n => bit s.keys.pendSources n && responseOf s.keys n == 2) then onKeys (fun k => { k with pendState := 1 }) s
  else onKeys (fun k => { k with pendState := 0, pendSources := 0, pendTime := 0 }) s

/-- The last episode was a wake from HOLD (R104). -/
def wokeFromHold (s : State) : Bool := (s.rs.episodes.head?.map (fun e => bit e.causes 9)).getD false

/-- NET's PCIe function is released, and with it the time base (R89, R104, R350). -/
def releasePcie (s : State) : State :=
  if isUp s 10 then s
  else
    let s := startTimeBase (releaseHeld 10 s)
    trainLink (if wokeFromHold s then onHost (fun h => { h with wakeN := true }) s else s)

/-- PHASE_P2_END (R89). -/
def execPhaseP2End (s : State) : Out :=
  .next <|
    if !inPhase 2 s || !isUp s 1 || !readyToRun s [10] then s
    else
      let s := onRs (fun r => { r with recovery := !bit r.mode 2 }) s
      releasePcie (nextPhase 3 (judgePending (recoveryPower (startOpt (loadStores s)))))

/-! ### P3: a pending kill, the root, and the MACs -/

/-- The current slot is programmed Dead where the module is Commissioned (R429). -/
def deadAtStart (s : State) : State :=
  if keyStateOf s = 1 then
    let n := (currentSlot s.keys).getD 0
    onKeys (fun k => { k with slots := modAt k.slots n (fun _ => RootSlot.gone) }) s
  else s

/-- A kill at a start: the slot, and what is owed at P7 (R428). A record in STATE 3 is of a kill that had begun: its slot may be Dead
already, and its sources are those of the last kill. -/
def killAtStart (sources time : Nat) (s : State) : State :=
  if keyStateOf s = 1 || s.keys.pendState = 3 then
    onKeys (fun k => { k with killed := sources, killTime := time, oweKill := true, oweTamper := true }) (deadAtStart s)
  else s

/-- The pending-kill record is executed and cleared. -/
def executePending (s : State) : State :=
  if s.keys.pendState = 1 || s.keys.pendState = 3 then
    onKeys (fun k => { k with pendState := 0, pendSources := 0, pendTime := 0 }) (killAtStart s.keys.pendSources s.keys.pendTime s)
  else s

/-- HOLM_LOST and its response (R79, R425). -/
def judgeLoss (s : State) : State :=
  if !s.rs.holmLost then s
  else
    let s := onKeys (fun k => { k with latch := setBit k.latch 9 }) s
    let r := responseOf s.keys 9
    let s := if r = 0 then s else onKeys (fun k => { k with oweTamper := true }) s
    if r = 2 then killAtStart (2 ^ 9) (stampOf (rtcTime s.tm)) s else s

/-- Slot 0 is Fresh: the root secret is drawn (R410). REEF unlocks where the current slot is Live. -/
def unlockReef (s : State) : State :=
  let s := if currentSlot s.keys == some 0 && !(s.keys.slots.getD 0 RootSlot.fresh).valid then drawRoot 0 s else s
  onKeys (fun k => { k with unlocked := (rootSecret k).isSome }) s

/-- The selected copy of a record carries a MAC that REEF makes now. -/
def macGood {α : Type} (root : Option Nat) (t : TwoBank α) : Bool := t.selected.all (fun p => p.macRoot == root)
/-- The selected copy is marked invalid (R94). -/
def markBad {α : Type} (t : TwoBank α) : TwoBank α :=
  match t.sel with
  | some true => { t with bank1 := { t.bank1 with bad := true } }
  | some false => { t with bank0 := { t.bank0 with bad := true } }
  | none => t
def checkMac {α : Type} (root : Option Nat) (t : TwoBank α) : TwoBank α := if macGood root t then t else markBad t

/-- Every MAC of the selected copies verifies. -/
def macsGood (s : State) : Bool :=
  let r := macRootNow s
  macGood r s.optStore && macGood r s.keys.counter && macGood r s.pairStore

/-- A copy is invalid: P2 runs again with the new selection (R94). -/
def p2Restart (s : State) : State :=
  let r := macRootNow s
  let s := { s with optStore := checkMac r s.optStore, pairStore := checkMac r s.pairStore, keys := { s.keys with counter := checkMac r s.keys.counter } }
  beginP2 (onRs (fun r => { r with p2Again := true }) s)

/-- The update counter as the record gives it, or as its loss sets it (R417). -/
def loadCounter (s : State) : State :=
  match s.keys.counter.selected with
  | some p => onImg (fun i => { i with floors := if p.body.floors.isEmpty then i.floors else p.body.floors }) (onKeys (fun k => { k with c := p.body.c, k := p.body.k }) s)
  | none => if s.keys.unlocked then lostCounter s else s

/-- PHASE_P3_END (R89, R94). -/
def execPhaseP3End (s : State) : Out :=
  .next <|
    if !inPhase 3 s || !readyToRun s [2] then s
    else
      let s := unlockReef (judgeLoss (executePending s))
      if s.keys.unlocked && !macsGood s then p2Restart s
      else
        let ok := fun {α : Type} (t : TwoBank α) => b2n (s.keys.unlocked && t.selected.isSome)
        let s := onTel (fun r => { r with optStatus := r.optStatus ||| (8 * ok s.optStore + 128 * ok s.keys.counter + 2048 * ok s.pairStore) }) s
        let s := onRs (fun r => { r with p2Again := false, optUnverified := !s.keys.unlocked && (s.optStore.selected.isSome || s.keys.counter.selected.isSome || s.pairStore.selected.isSome) }) s
        let s := loadCounter s
        nextPhase 4 (releaseHeld 2 (onKeys (fun k => { k with st := keyStateOf s }) s))

/-! ### P4: the mount (R441 to R443) and the counts (R478) -/

/-- Every block goes back erased; nothing is left in any namespace (R443). -/
def formatStore (s : State) : State :=
  let f := s.fl
  let bad := f.blocks.filter (fun b => b.st == .bad)
  let free := (List.range 4).map (fun d =>
    (f.free.getD d []) ++ (f.blocks.filter (fun b => b.st != .bad && b.die == d)).map (fun b => (b.num, b.erases + 1)))
  { s with
    fl := { f with formatted := true, blocks := bad, free := free, parity := [], roots := [], host := [], log := [], settled := 0, lostRec := none }
    jr := Journal.reset
    arch := { s.arch with fwd := [] }
    img := { s.img with staging := [], types := s.img.types.zipIdx.map (fun p => if p.2 = 6 then p.1 else { p.1 with slotA := none, slotB := none }) }
    tel := { s.tel with slots := [] } }

/-- MOUNT after a first format is stated nowhere: a free value (log 5). -/
def firstFormat (s : State) : State :=
  let v := Config.freeNat s.free % 4
  onRs (fun r => { r with flashNoHistory := true }) (onFl (fun f => { f with mount := v }) (useFree (formatStore s)))

/-- The mount: from a root, by full scan, or formatted. -/
def mountStore (s : State) : State :=
  if !s.fl.formatted then firstFormat s
  else if s.fl.roots.any (·.good) then onFl (fun f => { f with mount := 1 }) s
  else
    let s := statFl 7 s
    if s.fl.roots.isEmpty then raise 38 6 (onFl (fun f => { f with mount := 3 }) (formatStore s))
    else raise 38 5 (onFl (fun f => { f with mount := 2 }) s)

/-- The newest valid record of the recorder (R478). -/
def newestRecord (s : State) : Option RecRec :=
  (s.tel.slots.map (·.2)).foldl (fun (b : Option RecRec) r => match b with
    | none => some r
    | some q => if q.opSeconds < r.opSeconds || (q.opSeconds == r.opSeconds && q.generation < r.generation) then some r else some q) none

/-- The counts after HOLM_COLD. -/
def restoreCounts (first : Bool) (s : State) : State :=
  if !s.rs.holmLost then s
  else
    let s := onRs (fun r => { r with holmLost := false }) s
    match newestRecord s with
    | none => onTel (fun r => { r with lastHour := s.rs.opSeconds / 3600, countLost := r.countLost || !first }) s
    | some q =>
      let ops := s.rs.opSeconds + q.opSeconds
      let stuck := 2 ^ 40 ≤ ops || ctrMax ≤ q.powerCycles
      let s := onRs (fun r => { r with opSeconds := min (2 ^ 40 - 1) ops, powerCycles := min ctrMax (q.powerCycles + 1) }) s
      onTel (fun r => { r with lastHour := s.rs.opSeconds / 3600, countStuck := r.countStuck || stuck }) s

/-- CAPE loads each channel from its newest record (R477). -/
def loadRecorder (s : State) : State :=
  let newest := fun ch : Nat => ((s.tel.slots.map (·.2)).filter (fun r => r.channel == ch)).foldl (fun (b : Option RecRec) r => match b with
    | none => some r
    | some q => if q.opSeconds < r.opSeconds || (q.opSeconds == r.opSeconds && q.generation < r.generation) then some r else some q) none
  onTel (fun t => { t with generation := ((newestRecord s).map (·.generation)).getD 0, live := (List.range 30).map (fun ch => ((newest ch).map (·.data)).getD RecCh.empty) }) s

/-- PHASE_P4_END (R89, R441, R477, R478). -/
def execPhaseP4End (s : State) : Out :=
  .next <|
    if !inPhase 4 s || !readyToRun s [3] then s
    else
      let first := !s.fl.formatted
      let s := loadRecorder (restoreCounts first (mountStore s))
      nextPhase 5 (releaseHeld 3 (onRs (fun r => { r with dramTrainCold := true }) s))

/-! ### P5: the structures of the image, and replay (R241, R442) -/

/-- Wired counters gain 65,536 at every start (R344). -/
def bumpPolls (db : Db) : Db := { db with polls := db.polls.map (fun p => (p.1, { p.2 with counter := min ctrMax (p.2.counter + 65536) })) }

/-- Meters whose removal is durable give up their short index (R143). -/
def purgeAll (db : Db) : Db := (db.purging.map (·.1)).foldl (fun db k => purgeDone k db) db

/-- What durability of records not yet seen durable releases at the start: readings enter the backlog, crossing counts the option store. -/
def replayDurable (old : Nat) (s : State) : State :=
  (s.jr.flash.filter (fun r => old < r.seq)).foldl (fun s r =>
    match r.body with
    | .posting p => appendLog r.seq p s
    | .calCross cal count _ _ => saveOpt (fun o => { o with counts := setAt o.counts cal count }) s
    | _ => s) s

/-- Sweeps that had not reached every meter go on (R235). -/
def resumeSweeps (s : State) : State :=
  let l : List (Nat × Nat × Int) := s.db.crossings.zipIdx.filterMap (fun p =>
    let w : Nat × Nat × Int := (p.2, p.1.1, p.1.2.1)
    if 0 < w.2.1 && (ledgerMeters s).any (fun k => closeDue s k w.1 w.2.1 w.2.2) then some w else none)
  onLg (fun g => { g with sweeps := l }) s

/-- The hash key of a keyless module is drawn at each start (R137). -/
def drawHash (s : State) : State :=
  if s.keys.unlocked then s else useFree (onTbl (fun t => { t with hashRoot := (Config.trng s.free).toNat }) s)

/-- The table's copy is invalid: entries are made from the identities alone, so every route is learned again (R137). The homes and the
retired marks stand with the identities: the rules do not say where else (DESIGN CHOICE, log 101). -/
def withoutCopy (now : Nat) (db : Db) : Db :=
  { db with entries := db.entries.map (fun p =>
      (p.1, { p.2 with link := 15, altLink := 15, route := 0, quality := 0, altQuality := -128, lastHeard := now, switches := 0, linkHeard := 0
                       stale := false, pinned := false })) }

/-- The frame stored last for each identity, from the entries of the keyless quarantine (R191). -/
def reloadKeyless (s : State) : State :=
  onIk (fun i => { i with keylessLast := (s.db.quars.filter (fun q => q.reason == 2)).foldl (fun l q => (q.id, q.bytes) :: l.filter (fun p => p.1 != q.id)) [] }) s

/-- The structures of LEDGER and LOOKUP are in DRAM. -/
def loadStructures (s : State) : State :=
  let old := s.jr.durable
  let s := tornJournal s
  let db := bumpPolls (purgeAll (replayed s))
  let db := if tableCopyGood s then db else withoutCopy (s.rs.opSeconds % 2 ^ 32) db
  let s := onTbl (fun t => { t with epoch := t.copyEpoch }) s
  let s := { s with db := db, jr := { s.jr with durable := s.jr.programmed } }
  let s := onLg (fun l => { l with folds := s.jr.flash.filter (fun r => db.folded < r.seq && (match r.body with | .posting _ => true | _ => false)) }) s
  resumeSweeps (rebuildTable (drawHash (replayDurable old (reloadKeyless s))))

/-- A start from the recovery image loads nothing of the ledger (R458). -/
def startLedger (s : State) : State :=
  if s.rs.recovery then s
  else
    let v := runningConv s
    let s := onCv (fun c => { c with verA := v, verB := v, okA := !c.failA, okB := !c.failB }) (loadStructures s)
    onTm (fun t => { t with validSeen := clockValid s }) s

/-- PHASE_P5_END (R85, R89). -/
def execPhaseP5End (s : State) : Out :=
  .next <|
    let core := [4, 5, 8, 9]
    let settled := [6, 7].all (fun n => (islOf s n).phase == .held || isUp s n || (islOf s n).phase == .failed)
    if !inPhase 5 s || !isUp s 3 then s
    else if s.rs.recovery then nextPhase 6 s
    else if !readyToRun s core || !settled then s
    else
      let s := (List.range 6).foldl (fun s k => releaseHeld (4 + k) s) (startLedger s)
      nextPhase 6 (releaseAtoll s)

/-! ### P6 and P7 -/

/-- R61: an island without work is switched off. -/
def switchOff (n : Nat) (s : State) : State :=
  if (islOf s n).phase == .failed then s else onIsl n (fun i => { Isl.reset with phase := .switchedOff, idleTmo := i.idleTmo }) s

def switchIdle (s : State) : State :=
  let s := if s.opt.plc.phases = 0 then switchOff 12 s else s
  let s := if s.opt.radio.any (·.enable) then s else switchOff 13 s
  if s.pair.cfg.isNone then switchOff 11 s else s

/-- STATE of a start: Waiting for a pair member, else Unpaired with the gate open (R61, R393, R394). -/
def startPair (s : State) : State :=
  let st : PairState := if s.pair.cfg.isSome then .waiting else .unpaired
  onPair (fun p => { p with st := st, gate := gateIn st, leaseTx := leaseIn st }) s

/-- The restore windows of R298 and R333 begin. -/
def startRestore (s : State) : State :=
  let span := fun (spread count : Nat) => s.now + (if spread = 0 then (count + 3) / 4 else spread) * secNs
  let s := onPlc (fun p => { p with phases := p.phases.zipIdx.map (fun f =>
    { f.1 with restoreEnd := some (span f.1.set.restore (p.stations.filter (fun t => t.phase == f.2)).length) }) }) s
  onRad (fun r => { r with radios := r.radios.zipIdx.map (fun x =>
    { x.1 with restoreEnd := some (span x.1.set.restore (r.children.filter (fun c => c.radio == x.2)).length) }) }) s

/-- TAMPER and KEY_KILL that the module owes at its P7 (R427, R428). -/
def raiseOwed (s : State) : State :=
  let kill := s.keys.oweKill
  let tamper := s.keys.oweTamper
  let s := onKeys (fun k => { k with oweKill := false, oweTamper := false }) s
  let s := if kill then raise 33 s.keys.killed s else s
  if tamper then raise 32 s.keys.latch s else s

/-- The lagoon's episode gets its READY time (R97). -/
def noteReady (s : State) : State :=
  onRs (fun r => { r with episodes := match r.episodes with
    | e :: l => { e with ready := (rtcTime s.tm).toNat } :: l
    | [] => [] }) s

/-- P7 begins: service, the Urrauf sessions, the deliveries that wait. -/
def enterService (s : State) : State :=
  let s := onRs (fun r => { r with phase := 7, phaseSince := s.now, starting := false }) s
  let s := onPw (fun p => { p with st := .run, before := .run }) s
  let s := onTel (fun t => { t with bgSince := List.replicate 11 s.now }) s
  let s := setCores (onSch (fun c => { c with window := s.now }) s)
  let s := if s.rs.recovery then s else noteReady s
  deliverAll (openSessions (raiseOwed (startRestore s)))

/-- PHASE_P6_END (R61, R89, R90). -/
def execPhaseP6End (s : State) : Out :=
  .next <|
    let settled := [11, 12, 13].all (fun n => (islOf s n).phase == .held || isUp s n || (islOf s n).phase == .failed)
    if !inPhase 6 s || !isUp s 10 then s
    else if s.rs.recovery then enterService (startPair s)
    else if !settled then s
    else
      let s := [11, 12, 13].foldl (fun s n => releaseHeld n s) s
      enterService (startPair (switchIdle s))

end Sys2Proof.Machine
end

