-- ==== Sys2Proof/Machine/Rings.lean ====
section
/-! DEFINITION. Chapter 05: the PCIe link and PERST_N, ring pairs from enable to stop, doorbells, the fetch of descriptors, completion
entries and their notification, fences, MSI-X, events, and the commands 0x00 to 0x03; and the lagoon commands of chapter 04. -/
namespace Sys2Proof.Machine
open Sys2Proof

/-! ### The link and PERST_N (R90, R100, R103, R104, R127) -/

/-- PCIE_LINK_UP: training reaches L0, or a link in L1 returns to it. -/
def execPcieLinkUp (speed width : Nat) (s : State) : Out :=
  .next <|
    if !isUp s 10 || remoteHosted s || s.rs.perst || !inRange speed 1 3 || !inRange width 1 2 then s
    else if s.host.link == .training || s.host.link == .l1 then
      deliverAll (flushPending (onHost (fun h => { h with link := .l0, speed := speed, width := width, l1Sub := 0, wakeN := false }) s))
    else s

/-- The substate of L1 (R100). -/
def substateOf : LinkDown → Nat
  | .training | .l1 => 0
  | .l11 => 1
  | .l12 => 2

/-- PCIE_LINK_DOWN: L0 is left for L1, L1.1 or L1.2 (R100), or for training. -/
def execPcieLinkDown (dest : LinkDown) (s : State) : Out :=
  .next <|
    if s.host.link == .l0 && dest != .training then onHost (fun h => { h with link := .l1, l1Sub := substateOf dest }) s
    else if s.host.link == .l0 || s.host.link == .l1 then onHost (fun h => { h with link := .training, speed := 0, width := 0, l1Sub := 0 }) s
    else s

/-- A started descriptor that still waits for its host buffer. -/
def awaitsInput (x : Desc) : Bool := (inputOf x.bytes).isSome && x.input.isNone && (reservedFaults x.bytes).isEmpty

/-- A descriptor that goes on inside the module when the PCIe function is reset (R103). -/
def runsOn (bufs : List Nat) (x : Desc) : Bool := (x.stage == .started || x.stage == .waiting) && !bufs.contains x.id && !awaitsInput x

/-- The reset of the PCIe function: the HOST block returns to its reset values. Device details go with it; CAPE's copy and LOCKED
stay (R103, R472, R483). -/
def resetFunction (s : State) : State :=
  let s := logBack s
  let bufs := s.host.bufs.map (·.desc)
  let keep := (s.host.descs.filter (runsOn bufs)).map (fun x => { x with orphan := true, mute := true })
  let s := onHost (fun h => { h.warm with descs := keep, wakeN := h.wakeN }) s
  onTel (fun r => { r with detail := List.replicate 32 (0, 0) }) s

/-- PERST_N_ASSERT (R43, R103). A remote-hosted module has no PCIe function (R105); a reset of NET absorbs it (R87). -/
def execPerstNAssert (s : State) : Out :=
  .next <|
    let s := onRs (fun r => { r with perst := true }) s
    if remoteHosted s || !isUp s 10 then s else resetFunction s

/-- PERST_N_RELEASE (R90). -/
def execPerstNRelease (s : State) : Out :=
  .next (if s.rs.perst then trainLink (onRs (fun r => { r with perst := false }) s) else s)

/-! ### Enable and disable (R107 to R110) -/

/-- The two rings of a pair share host memory. -/
def ringsOverlap (r : Ring) : Bool :=
  let a := r.base.toNat * 4096
  let b := r.cbase.toNat * 4096
  decide (a < b + 32 * 2 ^ r.cqLog) && decide (b < a + 64 * 2 ^ r.sqLog)

/-- What an enable sets (R108). -/
def Ring.enabled (r : Ring) : Ring :=
  { r with
    enable := true, state := .enabled, error := 0, sqHead := 0, sqTail := 0, cqHead := 0, cqIndex := 0, phase := true, reserved := 0
    unnotified := 0, coalSince := none, failed := false, zlr := false, zlrBack := false, batch := 1, confirmed := 0 }

/-- ENABLE is set: from Disabled only. -/
def enableRing (n : Nat) (s : State) : State :=
  if 32 ≤ n || (ringOf s n).state != .disabled then s
  else
    let s := onRing n Ring.enabled s
    if ringsOverlap (ringOf s n) then ringError n 4 s else s

/-- ENABLE is cleared: descriptors not started and open delivery buffers end ABORTED (R109); from Error nothing more happens (R110). -/
def disableRing (n : Nat) (s : State) : State :=
  match (ringOf s n).state with
  | .enabled =>
    let bufs := (s.host.bufs.filter (fun b => b.ring == n)).map (·.desc)
    let idle := ((ringDescs s n).filter (fun x => x.stage == .fetched)).map (·.id)
    let s := dropBufs n (onRing n (fun r => { r with enable := false, state := .stopping }) s)
    (idle ++ bufs).foldl (fun s d => finish d 4 0 [] s) s
  | .error => onRing n (fun r => { r with enable := false }) s
  | _ => s

/-- RING_ENABLE. -/
def execRingEnable (ring : Nat) (s : State) : Out := .next (if isUp s 10 then enableRing ring s else s)

/-- RING_DISABLE. -/
def execRingDisable (ring : Nat) (s : State) : Out := .next (if isUp s 10 then disableRing ring s else s)

/-- RING_STOP_DONE: the last started descriptor has finished (R109, R110). Batches not confirmed are delivered again (R121). -/
def execRingStopDone (ring : Nat) (s : State) : Out :=
  .next <|
    let r := ringOf s ring
    if (r.state == .stopping || r.state == .error && !r.enable) && !ringHolds s ring then
      deliverAll (redeliver (fun e => e.batch.any (fun b => b.2 == ring)) (onRing ring (fun r => { r with state := .disabled }) s))
    else s

/-! ### Doorbells (R111, R112, R128) -/

/-- A doorbell reaches a ring pair that takes it: none that is Disabled or Stopping. -/
def takesDoorbell (r : Ring) : Bool := r.state == .enabled || r.state == .error

/-- SQ_TAIL of a ring pair is written; a read returns the index written last, in range or not. A doorbell wakes the module from EBB (R60). -/
def sqDoorbell (ring v : Nat) (s : State) : State :=
  let s := ebbWake s
  let r := ringOf s ring
  let k := v % 65536
  if !takesDoorbell r then s
  else
    let s := onRing ring (fun r => { r with sqTail := k }) s
    if 2 ^ r.sqLog ≤ k then ringError ring 1 s else s

/-- CQ_HEAD of a ring pair is written. -/
def cqDoorbell (ring v : Nat) (s : State) : State :=
  let s := ebbWake s
  let r := ringOf s ring
  let k := v % 65536
  if !takesDoorbell r then s
  else
    let s := onRing ring (fun r => { r with cqHead := k }) s
    if 2 ^ r.cqLog ≤ k then ringError ring 1 s
    else if !s.host.evt.getLsbD ring && k != r.cqIndex then raise ring 0 s else s

/-- DOORBELL_SQ_TAIL. -/
def execDoorbellSqTail (ring : Nat) (v : BitVec 32) (s : State) : Out :=
  .next (if isUp s 10 && ring < 32 then sqDoorbell ring v.toNat s else s)

/-- DOORBELL_CQ_HEAD. -/
def execDoorbellCqHead (ring : Nat) (v : BitVec 32) (s : State) : Out :=
  .next (if isUp s 10 && ring < 32 then cqDoorbell ring v.toNat s else s)

/-! ### Fetch (R90, R113, R114) -/

/-- Host command items found no slot: NET fetches no descriptor until one is free (R161). -/
def slotsShort (s : State) : Bool := isUp s 9 && s.sch.asks.any (fun q => q.item.desc.isSome)

/-- A ring pair has a descriptor waiting and a completion slot for it. -/
def fetchable (s : State) (n : Nat) : Bool :=
  let r := ringOf s n
  !slotsShort s && r.state == .enabled && r.sqHead != r.sqTail && 0 < freeSlots r

/-- One descriptor is fetched; its completion slot is reserved. -/
def fetchOne (n : Nat) (s : State) : State :=
  if !fetchable s n then s
  else
    let r := ringOf s n
    let d := s.host.nextDesc
    let x : Desc :=
      { id := d, ring := n, slot := r.sqHead, bytes := [], stage := .fetching, input := none, status := 0, detail := 0, result := []
        writes := 0, orphan := false, mute := false, undo := .none }
    let s := onHost (fun h => { h with descs := h.descs ++ [x], nextDesc := d + 1 }) s
    let s := onRing n (fun r => { r with sqHead := (r.sqHead + 1) % 2 ^ r.sqLog, reserved := r.reserved + 1 }) s
    dmaRead (.fetch d) (r.base.toNat * 4096 + 64 * r.sqHead) 64 s

/-- The module fetches: P7, SETUP_DONE, and a host that can be reached (R90, R129). -/
def mayFetch (s : State) : Bool := isUp s 10 && inService s && s.host.setupDone && hostReach s

/-- DESCRIPTOR_FETCH: the next ring pair in round robin, up to eight descriptors. -/
def execDescriptorFetch (s : State) : Out :=
  .next <|
    if !mayFetch s then s
    else
      match ((List.range 32).map (fun k => (s.host.rr + 1 + k) % 32)).find? (fetchable s) with
      | none => s
      | some n => (List.range 8).foldl (fun s _ => fetchOne n s) (onHost (fun h => { h with rr := n }) s)

/-! ### Accesses to host memory that end (R110, R118, R120) -/

/-- A descriptor's own 64 bytes have arrived. -/
def descArrived (d : Nat) (b : Bytes) (s : State) : State :=
  match descOf s d with
  | none => s
  | some x =>
    let s := onDesc d (fun x => { x with bytes := b, stage := .fetched }) s
    if (ringOf s x.ring).state == .enabled then startRing x.ring s else finish d 4 0 [] s

/-- A batch number and those after it move one back in a ring pair (R120). -/
def lessBatch (n b : Nat) : Nat := if n < b then b - 1 else b

/-- A completed delivery buffer turns out to have failed before its entry was written: its readings wait again, and the batch count does not
advance, so the buffers completed after it take the numbers before theirs (R120). -/
def failBatch (x : Desc) (s : State) : State :=
  let n := u64 x.result 0
  let s := redeliver (fun e => e.placed == some x.id) s
  let s := onFl (fun f =>
    { f with log := modWhere (fun e => e.batch.any (fun b => b.2 == x.ring)) (fun e =>
      { e with batch := e.batch.map (fun b => (lessBatch n b.1, b.2)) }) f.log }) s
  let s := onHost (fun h =>
    let later := fun y : Desc => y.ring == x.ring && y.stage == .done && opcodeOf y == 1 && y.status == 0
    { h with descs := h.descs.map (fun y =>
        if later y then { y with result := toLE 8 (lessBatch n (u64 y.result 0)) ++ y.result.drop 8 } else y) }) s
  spoilWith 6 x (onRing x.ring (fun r => { r with batch := lessBatch n r.batch }) s)

/-- A write of a descriptor's buffer failed (R118). -/
def writeFailed (deliver : Bool) (d : Nat) (s : State) : State :=
  match descOf s d with
  | none => s
  | some x =>
    if x.stage == .done then (if x.status != 0 then s else if deliver then failBatch x s else spoilWith 6 x s)
    else if deliver then failBuf d s
    else finish d 6 0 [] s

/-- A piece of a write of a descriptor's buffer has been acknowledged, or given up: it is outstanding no longer (R106). -/
def writeAcked (d : Nat) (s : State) : State := onDesc d (fun x => { x with writes := x.writes - 1 }) s

/-- A write ends with an error. Over Urrauf the pieces of one write end one by one, so the access stays with its descriptor. -/
def writeEnded (deliver : Bool) (d : Nat) (a : Dma) (s : State) : State :=
  let s := if remoteHosted s then writeAcked d s else dropDma (fun x => x.tag == a.tag) s
  writeFailed deliver d s

/-- One access of the module's own ring pairs ends. -/
def ringDma (a : Dma) (e : DmaEnd) (s : State) : State :=
  let gone := dropDma (fun x => x.tag == a.tag)
  match a.use, e with
  | .fetch d, .data b => if b.length = 64 then descArrived d b (gone s) else s
  | .fetch d, _ => (match descOf s d with | some x => ringError x.ring 2 (gone s) | none => gone s)
  | .input d, .data b => if b.length = a.len then onDesc d (fun x => { x with input := some b }) (gone s) else s
  | .input d, _ => finish d 6 0 [] (gone s)
  | .output d, .data _ => writeAcked d s
  | .output d, _ => writeEnded false d a s
  | .deliver d, .data _ => writeAcked d s
  | .deliver d, _ => writeEnded true d a s
  | .remoteRead .., _ => s

/-! ### Completion entries (R108, R114, R116, R128) -/

/-- The 32 bytes of a completion entry. -/
def completionEntry (x : Desc) (r : Ring) : Bytes :=
  slice x.bytes 8 8 ++ toLE 2 x.slot ++ toLE 2 r.sqHead ++ toLE 1 x.status ++ toLE 1 (opcodeOf x) ++ toLE 2 x.detail ++
    slice x.result 0 15 ++ toLE 1 (b2n r.phase)

/-- The ring pair after an entry: the next index, PHASE turned at the end of a pass, one slot less reserved. -/
def Ring.wrote (now : Nat) (r : Ring) : Ring :=
  let k := (r.cqIndex + 1) % 2 ^ r.cqLog
  { r with
    cqIndex := k, phase := if k = 0 then !r.phase else r.phase, reserved := r.reserved - 1, unnotified := r.unnotified + 1
    coalSince := some (r.coalSince.getD now) }

/-- A notification is due after an entry. -/
def notifyDue (x : Desc) (r : Ring) : Bool := bit (u8 x.bytes 1) 2 || decide (r.coalCount ≤ r.unnotified) || r.coalTime == 0

/-- The entry of a descriptor that has ended may be written now: it ended first, and over Urrauf its writes are acknowledged (R106). -/
def entryDue (s : State) (x : Desc) : Bool :=
  let r := ringOf s x.ring
  isUp s 10 && hostReach s && (r.state == .enabled || r.state == .stopping) &&
    (((ringDescs s x.ring).find? (fun y => y.stage == .done)).map (·.id)) == some x.id && (!remoteHosted s || x.writes == 0)

/-- An island that was switched off for want of work is powered: an idle grant, and release as after an island reset (R61, R82, R83). That
the grant is given at once is the model's choice (DESIGN CHOICE, log 98). -/
def powerIsland (n : Nat) (s : State) : State :=
  if (islOf s n).phase != .switchedOff then s
  else
    let g := idleGrantOf s n
    onIsl n (fun i => { i with phase := .locking, since := s.now, grant := g, idle := g }) s

/-- PLC and RADIO are powered again where the settings now give them work (R61); a configuration image that carries the settings counts as
the command (DEDUCED, log 98). -/
def powerAgain (s : State) : State :=
  let s := if s.opt.plc.phases = 0 || (islOf s 12).phase != .switchedOff then s
    else powerIsland 12 (onPlc (fun p => { p with phases := p.phases.map (fun f => { f with set := s.opt.plc }) }) s)
  if s.opt.radio.all (fun r => !r.enable) || (islOf s 13).phase != .switchedOff then s
  else powerIsland 13 (takeRadioSet 1 (takeRadioSet 0 s))

/-- HOLD is entered when the completion of POWER_SET has been written: the recorder is flushed first (R62, R477). -/
def afterEntry (x : Desc) (s : State) : State :=
  if opcodeOf x = 0x40 && x.status = 0 && s.pw.st == .hold then
    let s := thaw s
    enterHold (if mayFlush s then flushRecorder s else s)
  else if x.status = 0 && [0x50, 0x54, 0xA3].contains (opcodeOf x) then powerAgain s
  else s

/-- COMPLETION_WRITE. -/
def execCompletionWrite (d : Nat) (dmaOk : Bool) (s : State) : Out :=
  .next <|
    match descOf s d with
    | none => s
    | some x =>
      let n := x.ring
      let r := ringOf s n
      if !entryDue s x then s
      else if !dmaOk then ringError n 3 s
      else
        let s := writeOut (r.cbase.toNat * 4096 + 32 * r.cqIndex) (completionEntry x r) false (.entry n) s
        let s := onRing n (Ring.wrote s.now) (dropDma (dmaOfDesc d) (dropDesc d s))
        let s := if notifyDue x (ringOf s n) then notifyRing n s else s
        afterEntry x (startRing n s)

/-- COAL_TIME_EXPIRE. -/
def execCoalTimeExpire (ring : Nat) (s : State) : Out :=
  .next <|
    let r := ringOf s ring
    match r.coalSince with
    | some t => if isUp s 10 && 0 < r.unnotified then notifyRing ring (passTo (t + 1000 * r.coalTime) s) else s
    | none => s

/-! ### Fences (R124, R125) -/

/-- FENCE_ZLR_RETURN. -/
def execFenceZlrReturn (ring : Nat) (s : State) : Out :=
  .next <|
    let r := ringOf s ring
    if isUp s 10 && r.zlr && !r.zlrBack then startRing ring (onRing ring (fun r => { r with zlrBack := true }) s) else s

/-- FENCE_ZLR_TIMEOUT: the fenced descriptor does not start; it counts as failed for the next fence. -/
def execFenceZlrTimeout (ring : Nat) (s : State) : Out :=
  .next <|
    let r := ringOf s ring
    if isUp s 10 && r.zlr && !r.zlrBack then
      match (ringDescs s ring).find? (fun x => x.stage == .fetched) with
      | none => s
      | some x => startRing ring (finish x.id 6 0 [] (onRing ring (fun r => { r with failed := false, zlr := false }) s))
    else s

/-! ### MSI-X and events (R126, R127, R471) -/

/-- MSIX_VECTOR_UNMASK: a write of Mask, Function Mask or MSI-X Enable; what was held pending is sent. -/
def execMsixVectorUnmask (w : MsixWrite) (s : State) : Out :=
  .next <|
    if !isUp s 10 || remoteHosted s then s
    else
      flushPending (onHost (fun h =>
        match w with
        | .vector n masked => if 64 ≤ n then h else { h with msixMask := if masked then h.msixMask ||| (1#64 <<< n) else h.msixMask &&& ~~~(1#64 <<< n) }
        | .functionMask on => { h with msixFmask := on }
        | .enable on => { h with msixEnable := on }) s)

/-- The host clears source n: bit, COUNT and INFO; and CAPE's copy, but not before SETUP_DONE (R129 step 4, R472, log 89). -/
def clearSource (n : Nat) (s : State) : State :=
  let s := onHost (fun h => { h with evt := h.evt &&& ~~~(1#64 <<< n) }) s
  if n < 32 then s
  else
    let s := onTel (fun r => { r with detail := setAt r.detail (n - 32) (0, 0) }) s
    if s.host.setupDone then
      onTel (fun r => { r with copy := r.copy &&& ~~~(1#32 <<< (n - 32)), copyDetail := setAt r.copyDetail (n - 32) (0, 0) }) s
    else s

/-- EVT_STATUS_CLEAR. -/
def execEvtStatusClear (half : Nat) (v : BitVec 32) (s : State) : Out :=
  .next <|
    if isUp s 10 && half < 2 then
      (List.range 32).foldl (fun s k => if v.getLsbD k then clearSource (32 * half + k) s else s) s
    else s

/-! ### Commands 0x00 to 0x03 -/

/-- NOP. -/
def execNop (d : Nat) (s : State) : Out := .next (hostCmd 0x00 d (fun _ => []) (fun _ s => finishOk d [] s) s)

/-- DELIVER_BUF. In a ring pair that is stopping the buffer ends ABORTED with zero records (R109). -/
def execDeliverBuf (d : Nat) (s : State) : Out :=
  .next (hostCmd 0x01 d (fun b => [bufLenCheck b 16, addrCheck b 24 64]) (fun x s =>
    if (ringOf s x.ring).state != .enabled then finish d 4 0 [] s
    else
      let b : DelBuf := { desc := d, ring := x.ring, addr := u64 x.bytes 24, len := u32 x.bytes 16, records := 0, first := none }
      deliverAll (holdDesc d (onHost (fun h => { h with bufs := h.bufs ++ [b] }) s))) s)

/-- DELIVER_FLUSH_EXPIRE. -/
def execDeliverFlushExpire (ring : Nat) (s : State) : Out :=
  .next <|
    match s.host.bufs.find? (fun b => b.ring == ring && b.first.isSome) with
    | some b => if isUp s 10 then closeBuf b (passTo (b.first.getD 0 + (ringOf s ring).flush * 100000) s) else s
    | none => s

/-- The partner hears which readings are confirmed (R405). -/
def tellConfirmed (seqs : List Nat) (s : State) : State :=
  if seqs.isEmpty then s else isthmusSend 0x85 (toBE 2 seqs.length ++ List.replicate 6 0 ++ seqs.flatMap (toBE 8)) s

/-- DELIVER_CONFIRM. -/
def execDeliverConfirm (d : Nat) (s : State) : Out :=
  .next (hostCmd 0x02 d (fun _ => []) (fun x s =>
    let n := x.ring
    let k := u64 x.bytes 16
    let r := ringOf s n
    if r.batch ≤ k then badParam d 16 s
    else if k ≤ r.confirmed then finishOk d [] s
    else
      let now := fun e : LogEntry => e.batch.any (fun b => b.2 == n && b.1 ≤ k)
      let seqs := ((s.fl.log.filter now).map (·.seq)).eraseDups
      let s := settleLog now (onRing n (fun r => { r with confirmed := k }) s)
      finishOk d [] (tellConfirmed seqs s)) s)

/-- Checks of STEER_SET (R122). -/
def steerChecks (b : Bytes) : List Check := [(u16 b 16 ≤ 1023, 16), (u16 b 18 ≤ 1023 && u16 b 16 ≤ u16 b 18, 18)]

/-- STEER_SET. -/
def execSteerSet (d : Nat) (s : State) : Out :=
  .next (hostCmd 0x03 d steerChecks (fun x s =>
    let first := u16 x.bytes 16
    let steer := (List.range (u16 x.bytes 18 + 1 - first)).foldl (fun t k => Tab.set t (first + k) (u8 x.bytes 20 % 32)) s.host.steer
    deliverAll (finishOk d [] (onHost (fun h => { h with steer := steer }) s))) s)

/-! ### The host part of the lagoon (R98) -/

/-- OFFSET and LENGTH: multiples of 16 within 0x400 to 0xFFF. -/
def lagoonChecks (b : Bytes) : List Check :=
  [(u16 b 16 % 16 == 0 && inRange (u16 b 16) 0x400 0xFF0, 16),
   (u16 b 18 % 16 == 0 && inRange (u16 b 18) 16 (0x1000 - u16 b 16), 18)]

/-- The module's part of the lagoon, 0x000 to 0x3FF (R97). The widths within an entry are the model's (DESIGN CHOICE, log 100). -/
def lagoonModule (s : State) : Bytes :=
  let r := s.rs
  let episode := fun e : EpisodeRec => toLE 2 e.reach ++ toLE 2 e.causes ++ toLE 6 e.start ++ toLE 6 e.ready
  padTo 64 (toLE 8 r.lagoonFormat ++ toLE 8 r.epCount ++ toLE 8 s.keys.pendSources ++ toLE 8 s.keys.pendTime ++ r.attempts.flatMap (toLE 1)) ++
    padTo 960 ((r.episodes.take 16).flatMap episode)

/-- The 16 bytes of unit k. -/
def lagoonUnit (s : State) (k : Nat) : Bytes :=
  if k < 64 then slice (lagoonModule s) (16 * k) 16 else memReadAll s.rs.lagoon (16 * k) 16

/-- A unit as HOLM holds it: scrambled under the key drawn at HOLM_COLD, a codeword of R23. -/
def lagoonStored (s : State) (k : Nat) : BitVec 144 :=
  let w := BitVec.ofNat 128 (leNat (lagoonUnit s k)) ^^^ Config.scramble s.rs.lagoonDraw k
  Config.checkSymbols w ++ w

/-- LAGOON_READ. -/
def execLagoonRead (d : Nat) (s : State) : Out :=
  .next (hostCmd 0x41 d lagoonChecks (fun x s =>
    let data := memReadAll s.rs.lagoon (u16 x.bytes 16) (u16 x.bytes 18)
    finishOk d [] (putOut d (u64 x.bytes 24) data s)) s)

/-- LAGOON_WRITE: by whole units of 16 bytes. -/
def execLagoonWrite (d : Nat) (s : State) : Out :=
  .next (hostCmd 0x42 d lagoonChecks (fun x s =>
    let data := x.input.getD []
    finishOk d [] (onRs (fun r => { r with lagoon := memWriteAll r.lagoon (u16 x.bytes 16) data }) s)) s)

end Sys2Proof.Machine
end

