-- ==== Sys2Proof/Machine/Registers.lean ====
section
/-! DEFINITION. Chapter 23 and the register tables of every chapter: what each register of BAR0, BAR2 and BAR4 reads as, and what a write of
it does. The commands whose rows stand for one register, and REGISTER_WRITE for any. -/
namespace Sys2Proof.Machine
open Sys2Proof

/-! ### Identity (R408, R489) -/

/-- HW_ID: type 0x6144, die revision 0x01, module revision 0x01. -/
def hwId : Nat := 0x61440101

/-- A double word of the PCIe configuration header (R489), where the manual gives its identifiers; their places are those of PCIe (log 8).
The Revision ID is HW_ID.DIE_REV. -/
def configHeader (off : Nat) : Option Nat :=
  match off with
  | 0x00 => some 0x61441F3E
  | 0x08 => some (0x0B400000 + hwId / 256 % 256)
  | 0x2C => some 0x61441F3E
  | _ => none

/-! ### What registers read as -/

/-- The sum of single bits of a list of conditions, the first in bit lo. -/
def bitsFrom (lo : Nat) (l : List Bool) : Nat := (l.zipIdx.map (fun p => b2n p.1 * 2 ^ (lo + p.2))).sum

/-- The first register number at an offset of an array, where the offset is in it. -/
def indexIn (off base step count : Nat) : Option Nat :=
  if base ≤ off && off < base + step * count && (off - base) % step == 0 then some ((off - base) / step) else none

/-- RESET_CAUSE. -/
def readCause (s : State) : Nat := s.rs.cause % 1024 + 1024 * (s.rs.lastReach % 4)

/-- POWER_STATUS. -/
def readPower (s : State) : Nat :=
  let st := match s.pw.st with
    | .trim => 1
    | .ebb => 2
    | _ => 0
  st * 2 ^ 29 + bitsFrom 16 ((List.range 13).map (fun k => s.pw.waiting.any (fun q => q.island == k + 1))) + 256 * min 255 (granted s) +
    (clampInt 0 255 (s.pw.tj + 64)).toNat

/-- HOLM block. -/
def readHolm (s : State) (off : Nat) : Nat :=
  match off with
  | 0x00 => leNat (slice (unitBytes s) 0 4)
  | 0x04 => leNat (slice (unitBytes s) 4 4)
  | 0x08 => leNat (slice (unitBytes s) 8 4)
  | 0x0C => hwId
  | 0x10 => readCause s
  | 0x14 => bitsFrom 16 ((List.range 14).map (fun n => (islOf s n).phase == .failed))
  | 0x1C => 256 * s.tel.islPeriod + s.tel.sysPeriod
  | 0x20 => 65536 * s.keys.killed + s.keys.latch
  | 0x24 => s.keys.active
  | 0x28 => readPower s
  | 0x2C => s.pw.cap
  | 0x30 => bitsFrom 1 ((List.range 13).map (fun n => isUp s (n + 1) || (islOf s (n + 1)).phase == .idleReq)) + b2n s.tel.refOk
  | _ =>
    match indexIn off 0x40 4 8, indexIn off 0x84 4 13 with
    | some k, _ => (s.rs.bkp.getD k 0).toNat
    | _, some k => (islOf s (k + 1)).idleTmo
    | _, _ => 0

/-- COLD_FLAGS (R99). Bits 4 and 5 are recomputed in P4: before its end they read zero. -/
def readCold (s : State) : Nat :=
  bitsFrom 0 [s.rs.servoCold, s.plc.tmCold != 0, s.db.nodes.any (fun p => p.2.learning), s.db.mstate.any (fun p => p.2.noHistory),
    s.rs.flashNoHistory && 5 ≤ s.rs.phase, s.rs.dramTrainCold && 5 ≤ s.rs.phase]

/-- START_STATUS. -/
def readStart (s : State) : Nat :=
  2 ^ 21 * (s.rs.mode % 8) + bitsFrom 18 [s.rs.optUnverified, s.rs.optDefault, s.rs.recovery] + s.rs.phase

/-- GPIO_CTRL.IN: the level of each contact, the driven level where it is driven. -/
def gpioLevel (s : State) : Nat :=
  ((List.range 8).map (fun k => 2 ^ k * b2n (if bit s.tel.gpioOe k then bit s.tel.gpioOut k else bit s.tel.gpioIn k))).sum

/-- CAPE block. -/
def readCape (s : State) (off : Nat) : Nat :=
  match off with
  | 0x00 => readStart s
  | 0x04 => readCold s
  | 0x08 => s.tel.optStatus
  | 0x20 => s.tel.slewNew.toNat
  | 0x24 => 65536 * s.tel.gpioOe + 256 * s.tel.gpioOut + gpioLevel s
  | 0x80 => s.tel.cntSat
  | _ => ((indexIn off 0x10 4 3).map (fun k => s.tel.optSeq.getD k 0)).getD 0

/-- REEF block: KEY_STATUS. With every slot Dead, SLOT names the last. -/
def readReef (s : State) (off : Nat) : Nat :=
  if off = 0 then
    2 ^ 28 * (currentSlot s.keys).getD 3 + bitsFrom 24 (s.keys.slots.map (·.dead)) + 2 ^ 22 * (s.keys.st % 4) +
      bitsFrom 20 [s.opt.cert.isSome, s.keys.debug] + min 0x3FFF s.keys.cache.length
  else 0

/-- MEM block. -/
def readMem (s : State) (off : Nat) : Nat :=
  match off with
  | 0 => 2 ^ 30 * (s.fl.mount % 4) + bitsFrom 27 [s.rs.flashNoHistory, s.fl.running.isSome, s.fl.readOnly] + min 65535 (spareLeft s)
  | 4 => 2 ^ 24 * min 255 (poolPercent s) + min 65535 (wearUsed s)
  | _ => 0

/-- INTAKE block: QCOUNT_n and QCTRL_n. -/
def readIntake (s : State) (off : Nat) : Nat :=
  match indexIn off 0x100 16 8, indexIn off 0x104 16 8 with
  | some n, _ => 65536 * (queueOf s n).frames.length + wordsHeld n (queueOf s n)
  | _, some n => queueSize n
  | _, _ => 0

/-- LOOKUP block. -/
def readLookup (s : State) (off : Nat) : Nat :=
  match off with
  | 0 => 2 ^ 24 * s.tbl.epoch + 2 ^ 16 * (if s.tbl.ovfReset then 2 else s.tbl.state) + min 0x3FFF (ovfUsed s)
  | 4 => s.db.entries.length
  | _ => 0

/-- CALC_STATUS_A or CALC_STATUS_B. -/
def readCalc (s : State) (off : Nat) : Nat :=
  let b := 0x800 ≤ off
  let ok := if b then s.cv.okB else s.cv.okA
  let kat := if b then s.cv.katB else s.cv.katA
  let t := typeOf s 5
  if off % 0x800 = 0 then 65536 * (if b then s.cv.verB else s.cv.verA) + bitsFrom 1 [ok, kat, t.state == 1, t.running == 1] else 0

/-- LEDGER block: TARIFF_STATUS. -/
def readLedger (s : State) (off : Nat) : Nat :=
  if off = 0 then
    2 ^ 24 * (s.lg.period % 16) + 2 ^ 22 * (s.lg.source % 4) + 2 ^ 21 * b2n s.tm.validSeen + 2 ^ 16 * (s.lg.lastCode % 16) + min 65535 s.lg.changes
  else 0

/-- ATOLL block. -/
def readAtoll (s : State) (off : Nat) : Nat :=
  match off with
  | 0 => 2 ^ 24 * s.sch.sat + 2 ^ 17 * (s.sch.cores.filter (fun c => c.powered && !c.drained)).length + s.sch.items.length
  | 4 => 65536 * min 0x3FFF s.sch.locks.length + s.sch.deps.length
  | 8 => 65536 * sharePercent s (s.sch.busy.getD 1 0) + 256 * sharePercent s s.sch.busy.sum + sharePercent s (s.sch.busy.getD 0 0)
  | 12 => bitsFrom 0 (s.sch.cores.map (fun c => c.drained || !c.powered))
  | _ => 0

/-- ETH_STATUS: no link until NET is released in full (R102). -/
def readEth (s : State) : Nat :=
  if s.rs.phase < 7 then 0
  else (s.tel.eth.zipIdx.map (fun p => 256 ^ p.2 * (b2n p.1.1 + 2 * (p.1.2.1 % 4) + 8 * b2n p.1.2.2))).sum

/-- PCIE_STATUS. -/
def readPcie (s : State) : Nat :=
  bitsFrom 6 [s.host.link == .l0, remoteHosted s] + 4 * s.host.width + s.host.speed

/-- TIME_STATUS. -/
def readTime (s : State) : Nat :=
  2 ^ 28 * (s.tm.st % 4) + 2 ^ 26 * (s.tm.cfg.source % 4) +
    bitsFrom 22 [(leapPending s).isSome, masterOn s 0 || masterOn s 1, s.rs.servoCold, clockValid s] + min 0x3FFFFF (errUs s)

/-- Every member named as HOME is Up. -/
def homesUp (s : State) : Bool :=
  (s.db.entries.filter (fun p => !p.2.homeSelf && !p.2.retired)).all (fun p => ((peerOf s p.2.home).map (·.state)).getD 0 == 1)

/-- ARCH_STATUS: zero until NET is released in full (R102). -/
def readArch (s : State) : Nat :=
  if s.rs.phase < 7 then 0
  else
    2 ^ 30 * (s.arch.role % 4) + bitsFrom 28 [homesUp s, isDesignated s] +
      4096 * min 4095 (s.arch.peers.filter (fun p => p.state == 1)).length + s.arch.member % 4096

/-- NET block. -/
def readNet (s : State) (off : Nat) : Nat :=
  match off with
  | 0x000 => readEth s
  | 0x004 => readPcie s
  | 0x200 => readTime s
  | 0x204 => (s.tm.counter % 1000000000).toNat
  | 0x208 => s.tm.latched % 2 ^ 32
  | 0x20C => s.tm.latched / 2 ^ 32 % 65536
  | 0x300 => readArch s
  | _ =>
    match indexIn off 0x210 4 3, indexIn off 0x220 4 3 with
    | some k, _ => (latOf s 0 k).toNat
    | _, some k => (latOf s 1 k).toNat
    | _, _ => 0

/-- PAIR block. -/
def readPair (s : State) (off : Nat) : Nat :=
  match off with
  | 0 => 2 ^ 29 * pairNo s.pair.st + bitsFrom 23 [positionB s, eligible s.pair.partner, s.pair.sync, isthmusUp s, s.pair.leaseRx, s.pair.gate] +
      min 65535 (pairLag s)
  | 4 => s.pair.health % 512
  | 8 => s.pair.partner % 512
  | _ => 0

/-- PLC block. -/
def readPlc (s : State) (off : Nat) : Nat :=
  match off with
  | 0 => 2 ^ 24 * (phaseAt s 0).set.band + bitsFrom 22 [s.pw.st == .ebb, !s.pair.gate] +
      bitsFrom 19 ((List.range 3).map (fun n => (phaseAt s n).beaconing)) + 256 * min 1024 s.plc.stations.length +
      16 * (phaseAt s 2).cls + 4 * (phaseAt s 1).cls + (phaseAt s 0).cls
  | 0x1C => 65536 * (s.plc.lag3 % 65536) + s.plc.lag2 % 65536
  | _ =>
    match indexIn off 0x10 4 3 with
    | some n => 65536 * min 65535 (linePeriod s n) + 256 * min 255 (phaseAt s n).noise + min 255 (phaseAt s n).imped
    | none => 0

/-- RADIO block. DWELL_MS: air time charged to the channel in the window of its dwell limit (R317). -/
def readRadio (s : State) (off : Nat) : Nat :=
  if off = 0 then
    bitsFrom 26 [radioEnabled s 0, radioEnabled s 1, s.pw.st == .ebb, !s.pair.gate] + 4096 * min 2048 s.rad.children.length +
      (s.rad.children.filter (·.silent)).length
  else
    match indexIn off 0x10 4 2 with
    | some n =>
      let x := radioAt s n
      let ms := usedUs s (nowUs s) (regNow s n).dwellWindow (fun a => a.channels.contains x.channel) / 1000
      2 ^ 24 * x.channel + 65536 * x.mode + min 65535 ms
    | none => 0

def ringStateNo : RingState → Nat
  | .disabled => 0
  | .enabled => 1
  | .stopping => 2
  | .error => 3

/-- A ring group (R107). -/
def readRing (r : Ring) (off : Nat) : Nat :=
  match off with
  | 0x00 => r.base.toNat * 4096 % 2 ^ 32
  | 0x04 => r.base.toNat / 2 ^ 20
  | 0x08 => r.cbase.toNat * 4096 % 2 ^ 32
  | 0x0C => r.cbase.toNat / 2 ^ 20
  | 0x10 => 256 * r.cqLog + r.sqLog
  | 0x14 => 256 * r.flush + 32 * r.prio + 16 * b2n r.delivery + b2n r.enable
  | 0x18 => 2 ^ 24 * ringStateNo r.state + 65536 * r.error + r.sqHead
  | 0x1C => 65536 * r.coalTime + r.coalCount
  | _ => 0

/-- HOST block. -/
def readHost (s : State) (off : Nat) : Nat :=
  if off < 0x800 then readRing (ringOf s (off / 64)) (off % 64)
  else if off = 0x800 then s.host.evt.toNat % 2 ^ 32
  else if off = 0x804 then s.host.evt.toNat / 2 ^ 32
  else if off = 0xC00 then bitsFrom 0 [s.host.setupDone, s.tel.locked]
  else
    match indexIn off 0x900 4 64, indexIn off 0xA00 4 32 with
    | some n, _ => 128 * b2n (s.host.evtEnable.getLsbD n) + s.host.evtVector.getD n n
    | _, some n => 65536 * (s.tel.detail.getD n (0, 0)).1 + (s.tel.detail.getD n (0, 0)).2
    | _, _ => 0

/-- Recorder block: the cursor, the status, and the window, which reads all ones while it loads (R480). -/
def readRecorder (s : State) (off : Nat) : Nat :=
  let t := s.tel
  match off with
  | 0 => bitsFrom 15 [t.liveSel, t.autoInc] + t.index % 512
  | 4 => bitsFrom 16 [t.loading, t.frozen, t.countLost, t.countStuck] + t.generation
  | _ => if 0x100 ≤ off && off < 0x200 then (if t.loading then 0xFFFFFFFF else leNat (slice t.window (off - 0x100) 4)) else 0

/-- DEBUG block (R430, R488). -/
def readDebug (s : State) (off : Nat) : Nat :=
  if off = 0 then bitsFrom 3 [decide (3 ≤ s.keys.fails)] + 2 * (s.keys.fails % 4) + b2n s.keys.debug
  else if !s.keys.debug then 0
  else if off = 0x10 then s.tel.itemSel
  else ((indexIn off 0x20 4 8).map (fun k => leNat (slice s.tel.itemCopy (4 * k) 4))).getD 0

/-- The island that serves an offset of BAR0 (R101, R102). -/
def blockIsland (off : Nat) : Nat :=
  match off / 0x1000 with
  | 6 => if off % 0x1000 < 0x800 then 6 else 7
  | n => if n < 6 then n else [8, 9, 10, 11, 12, 13, 10, 1, 1].getD (n - 7) 10

/-- A register of BAR0 (R482): an offset that no table assigns reads as zero. -/
def readBlock (s : State) (off : Nat) : Nat :=
  let o := off % 0x1000
  match off / 0x1000 with
  | 0 => readHolm s o
  | 1 => readCape s o
  | 2 => readReef s o
  | 3 => readMem s o
  | 4 => readIntake s o
  | 5 => readLookup s o
  | 6 => readCalc s o
  | 7 => readLedger s o
  | 8 => readAtoll s o
  | 9 => readNet s o
  | 10 => readPair s o
  | 11 => readPlc s o
  | 12 => readRadio s o
  | 13 => readHost s o
  | 14 => readRecorder s o
  | _ => readDebug s o

/-- A doorbell page (R111). -/
def readDoorbell (s : State) (off : Nat) : Nat :=
  let r := ringOf s (off / 0x1000)
  if off % 0x1000 = 0 then r.sqTail else if off % 0x1000 = 4 then r.cqHead else 0

/-- The MSI-X structures of BAR4 (R101, R127). -/
def readMsix (s : State) (off : Nat) : Nat :=
  if off < 0x400 then
    let e := s.host.msixTable.getD (off / 16) (0, 0)
    match off % 16 with
    | 0 => e.1 % 2 ^ 32
    | 4 => e.1 / 2 ^ 32
    | 8 => e.2
    | _ => b2n (s.host.msixMask.getLsbD (off / 16))
  else if off = 0x1000 then s.host.msixPending.toNat % 2 ^ 32
  else if off = 0x1004 then s.host.msixPending.toNat / 2 ^ 32
  else 0

/-- What a read of a register returns; none: Unsupported Request (R102). A block whose island does not run reads all ones. -/
def readReg (s : State) (bar off : Nat) : Option Nat :=
  if off % 4 != 0 then none
  else
    match bar with
    | 0 => if 0x10000 ≤ off then none else some (if isUp s (blockIsland off) then readBlock s off % 2 ^ 32 else 0xFFFFFFFF)
    | 2 => if 0x20000 ≤ off then none else some (readDoorbell s off)
    | 4 => if 0x2000 ≤ off then none else some (readMsix s off)
    | _ => none

/-! ### Reads that change something -/

/-- The 32 bytes of a work item (R151). -/
def itemBytes (i : Item) : Bytes :=
  let ctr := fun (c : Option Nat) => toLE 2 (c.elim 0 (fun k => 0x8000 + k % 16384))
  toLE 8 i.key ++ toLE 1 (64 * i.cls + 8 * i.prio + 4 * b2n i.noFlow + i.space) ++ toLE 1 i.handler ++ ctr i.dep ++ ctr i.notify0 ++ ctr i.notify1 ++
    toLE 2 i.slot ++ toLE 2 i.deadline ++ toLE 4 i.arrival ++ toLE 8 i.data

/-- A read of DBG_ITEM_0 copies the item into the window (R488). -/
def copyItem (s : State) : State :=
  if !regOpen s 1 || !s.keys.debug then s
  else
    match s.sch.items.find? (fun i => i.slot == s.tel.itemSel) with
    | some i => onTel (fun t => { t with itemCopy := itemBytes i }) s
    | none => onTel (fun t => { t with itemCopy := List.replicate 32 0 }) s

/-- DBG_ITEM_0_READ. -/
def execDbgItem0Read (s : State) : Out := .next (copyItem s)

/-- The seconds are latched by a read of TIME_NOW_NS (16, registers). -/
def latchSeconds (s : State) : State := onTm (fun t => { t with latched := (t.counter / 1000000000 % 2 ^ 48).toNat }) s

/-- What a read of a register changes before it returns, and after. -/
def beforeRead (off : Nat) (s : State) : State :=
  if off = 0xF020 then copyItem s else if off = 0x9204 then latchSeconds s else s
def afterRead (off : Nat) (s : State) : State := if off = 0xE1FC then windowRead s else s

/-- One read of a register with its effects. -/
def regRead (bar off : Nat) (s : State) : Option Nat × State :=
  if bar != 0 then (readReg s bar off, s)
  else
    let s := beforeRead off s
    (readReg s bar off, afterRead off s)

/-! ### Writes -/

/-- A write of a locked field is dropped (R483). -/
def unlessLocked (f : State → State) (s : State) : State := if s.tel.locked then s else f s

/-- The source of a CAPE copy is raised again with its detail (R472). -/
def restoreSource (n : Nat) (s : State) : State :=
  if isUp s 1 && s.tel.copy.getLsbD n then
    setSource (32 + n) (onTel (fun t => { t with detail := setAt t.detail n (t.copyDetail.getD n (0, 0)) }) s)
  else s

/-- SETUP_DONE is written (R472, R483). -/
def setupDone (s : State) : State :=
  let s := onTel (fun t => { t with locked := true }) (onHost (fun h => { h with setupDone := true }) s)
  (List.range 32).foldl (fun s n => restoreSource n s) s

/-- SYS_RESET: 0xC0DE and nothing else (R78). -/
def sysReset (v : Nat) (s : State) : State := if v = 0xC0DE then assertSource .sysSw s else s

/-- ISL_CTRL.RESET: islands 1 to 13 (R84). -/
def islCtrl (v : Nat) (s : State) : State := (List.range 14).foldl (fun s n => if n != 0 && bit v n then hostReset n s else s) s

/-- RESET_CAUSE bits are W1C (R85). -/
def clearCause (v : Nat) (s : State) : State := onRs (fun r => { r with cause := andNot 10 r.cause (v % 1024) }) s

/-- HOLM block. -/
def writeHolm (off v : Nat) (s : State) : State :=
  match off with
  | 0x10 => clearCause v s
  | 0x14 => islCtrl v s
  | 0x18 => sysReset v s
  | 0x1C => unlessLocked (onTel (fun t => { t with islPeriod := min 1000 (max 10 (bits v 23 8)), sysPeriod := min 64 (max 1 (v % 128)) })) s
  | 0x20 => clearLatch (v % 1024) s
  | 0x2C => unlessLocked (onPw (fun p => { p with cap := min 160 (max 40 (v % 256)) })) s
  | _ =>
    match indexIn off 0x40 4 8, indexIn off 0x84 4 13 with
    | some k, _ => onRs (fun r => { r with bkp := setAt r.bkp k (BitVec.ofNat 32 v) }) s
    | _, some k => onIsl (k + 1) (fun i => { i with idleTmo := min 100000 (max 1 v) }) s
    | _, _ => s

/-- A slew step takes effect 1 µs after the write (R486). -/
def writeSlew (v : Nat) (s : State) : State :=
  onTel (fun t =>
    { t with slew := if t.slewAt ≤ s.now then t.slewNew else t.slew, slewNew := BitVec.ofNat 32 v, slewAt := s.now + 1000 }) s

/-- CAPE block. -/
def writeCape (off v : Nat) (s : State) : State :=
  match off with
  | 0x20 => writeSlew v s
  | 0x24 => onTel (fun t => { t with gpioOe := bits v 23 16, gpioOut := bits v 15 8 }) s
  | 0x80 => onTel (fun t => { t with cntSat := andNot 16 t.cntSat (v % 65536) }) s
  | _ => s

/-- RING_CTRL_n: KIND only while Disabled (R107); ENABLE starts or stops the pair. -/
def writeRingCtrl (n v : Nat) (s : State) : State :=
  let s := onRing n (fun r =>
    { r with flush := max 1 (bits v 15 8), prio := bits v 7 5, delivery := if r.state = .disabled then bit v 4 else r.delivery }) s
  if bit v 0 then enableRing n s else disableRing n s

def ringLog (v : Nat) : Nat := min 16 (max 6 v)

/-- A ring group (R107). -/
def writeRing (n off v : Nat) (s : State) : State :=
  let free := fun f : Ring → Ring => onRing n (fun r => if r.state = .disabled then f r else r) s
  match off with
  | 0x00 => free (fun r => { r with base := BitVec.ofNat 52 (r.base.toNat / 2 ^ 20 * 2 ^ 20 + v / 4096) })
  | 0x04 => free (fun r => { r with base := BitVec.ofNat 52 (v * 2 ^ 20 + r.base.toNat % 2 ^ 20) })
  | 0x08 => free (fun r => { r with cbase := BitVec.ofNat 52 (r.cbase.toNat / 2 ^ 20 * 2 ^ 20 + v / 4096) })
  | 0x0C => free (fun r => { r with cbase := BitVec.ofNat 52 (v * 2 ^ 20 + r.cbase.toNat % 2 ^ 20) })
  | 0x10 => free (fun r => { r with cqLog := ringLog (bits v 12 8), sqLog := ringLog (bits v 4 0) })
  | 0x14 => writeRingCtrl n v s
  | 0x1C => onRing n (fun r => { r with coalTime := v / 65536, coalCount := max 1 (v % 65536) }) s
  | _ => s

/-- W1C bits of a half of EVT_STATUS (R471). -/
def clearSources (half v : Nat) (s : State) : State :=
  (List.range 32).foldl (fun s k => if bit v k then clearSource (32 * half + k) s else s) s

/-- HOST block. -/
def writeHost (off v : Nat) (s : State) : State :=
  if off < 0x800 then writeRing (off / 64) (off % 64) v s
  else if off = 0x800 then clearSources 0 v s
  else if off = 0x804 then clearSources 1 v s
  else if off = 0xC00 then (if bit v 0 then setupDone s else s)
  else
    match indexIn off 0x900 4 64 with
    | some n => onHost (fun h =>
        { h with evtEnable := if bit v 7 then h.evtEnable ||| (1#64 <<< n) else h.evtEnable &&& ~~~(1#64 <<< n), evtVector := setAt h.evtVector n (v % 64) }) s
    | none => s

/-- PTP_LAT_p_s (LK). -/
def writeNet (off v : Nat) (s : State) : State :=
  let put := fun k : Nat => unlessLocked (onTm (fun t => { t with ptpLat := setAt t.ptpLat k (BitVec.ofNat 32 v) })) s
  match indexIn off 0x210 4 3, indexIn off 0x220 4 3 with
  | some k, _ => put k
  | _, some k => put (3 + k)
  | _, _ => s

/-- QCTRL_n.FLUSH. -/
def writeIntake (off v : Nat) (s : State) : State :=
  match indexIn off 0x104 16 8 with
  | some n => if bit v 31 then flushQueue n s else s
  | none => s

/-- Recorder block. -/
def writeRecorder (off v : Nat) (s : State) : State :=
  match off with
  | 0 => onTel (fun r => { r with autoInc := bit v 16, liveSel := bit v 15, index := v % 512, loading := true }) s
  | 4 => onTel (fun r => { r with countStuck := r.countStuck && !bit v 19, countLost := r.countLost && !bit v 18 }) s
  | _ => s

/-- DEBUG block: dropped while debug is locked (R488). -/
def writeDebug (off v : Nat) (s : State) : State :=
  if off = 0x10 && s.keys.debug then onTel (fun t => { t with itemSel := v % 65536 }) s else s

/-- A register of BAR0: a write to a register without writable fields, or to an offset that no table assigns, is dropped (R482). -/
def writeBlock (off v : Nat) (s : State) : State :=
  let o := off % 0x1000
  match off / 0x1000 with
  | 0 => writeHolm o v s
  | 1 => writeCape o v s
  | 4 => writeIntake o v s
  | 8 => if o = 0 then onSch (fun c => { c with sat := andNot 8 c.sat (v / 2 ^ 24) }) s else s
  | 9 => writeNet o v s
  | 13 => writeHost o v s
  | 14 => writeRecorder o v s
  | 15 => writeDebug o v s
  | _ => s

/-- A doorbell page: the index of either register (R111). -/
def ringDoorbell (off v : Nat) (s : State) : State :=
  if off % 0x1000 = 0 then sqDoorbell (off / 0x1000) v s else if off % 0x1000 = 4 then cqDoorbell (off / 0x1000) v s else s

/-- The MSI-X table (R127): a vector that is unmasked has its pending message sent. -/
def writeMsix (off v : Nat) (s : State) : State :=
  if 0x400 ≤ off then s
  else
    let n := off / 16
    let s := onHost (fun h =>
      match off % 16 with
      | 0 => { h with msixTable := modAt h.msixTable n (fun e => (e.1 / 2 ^ 32 * 2 ^ 32 + v / 4 * 4, e.2)) }
      | 4 => { h with msixTable := modAt h.msixTable n (fun e => (v * 2 ^ 32 + e.1 % 2 ^ 32, e.2)) }
      | 8 => { h with msixTable := modAt h.msixTable n (fun e => (e.1, v)) }
      | _ => { h with msixMask := if bit v 0 then h.msixMask ||| (1#64 <<< n) else h.msixMask &&& ~~~(1#64 <<< n) }) s
    flushPending s

/-- An access that the registers take (R102): aligned words, and in BAR4 aligned double words as well. -/
def accessOk (bar off size : Nat) : Bool :=
  (bar == 0 && off < 0x10000 || bar == 2 && off < 0x20000 || bar == 4 && off < 0x2000) && off % size == 0 &&
    (size == 4 || bar == 4 && size == 8)

/-- Unsupported Request is answered: Advanced Error Reporting notes it (R100, R102; its bit is PCIe's, log 99). -/
def answerUr (s : State) : State := if remoteHosted s then s else onHost (fun h => { h with aer := h.aer ||| 0x100000 }) s

/-- The host's writes of the configuration space that the manual names: Device Control and Device Control 2 (R100, R123, R124), and the error
status, whose bits a 1 clears. Their places are PCIe's, in capabilities at 0x40 and 0x100 (PRESUMED, log 99). -/
def writeConfig (off v : Nat) (s : State) : State :=
  match off with
  | 0x48 => onHost (fun h =>
      { h with maxPayload := if bits v 7 5 = 0 then 128 else 256, maxRead := 128 * 2 ^ min 2 (bits v 14 12), relaxOn := bit v 4 }) s
  | 0x68 => onHost (fun h => { h with complTmo := bits v 3 0 }) s
  | 0x104 => onHost (fun h => { h with aer := h.aer &&& ~~~(BitVec.ofNat 32 v) }) s
  | _ => s

/-- One word is written: dropped where the block's island does not run (R102, R485). -/
def writeWord (bar off v : Nat) (s : State) : State :=
  match bar with
  | 0 => if isUp s (blockIsland off) then writeBlock off v s else s
  | 2 => ringDoorbell off v s
  | _ => if remoteHosted s then s else writeMsix off v s

/-- A write of `size` bytes: of the configuration space, given as bar 6 (log 99), or of a register; any other access is answered with
Unsupported Request and dropped (R102). -/
def regWrite (bar off size v : Nat) (s : State) : State :=
  if !isUp s 10 then s
  else if bar = 6 then (if remoteHosted s then s else writeConfig off v s)
  else if !accessOk bar off size then answerUr s
  else
    let s := writeWord bar off (v % 2 ^ 32) s
    if size = 8 then writeWord bar (off + 4) (v / 2 ^ 32) s else s

/-! ### The rows -/

/-- REGISTER_WRITE (R482, R483, R485). -/
def execRegisterWrite (bar off : Nat) (v : RegData) (s : State) : Out := .next (regWrite bar off v.size v.value.toNat s)

/-- SETUP_DONE_WRITE. -/
def execSetupDoneWrite (s : State) : Out := .next (if isUp s 10 then setupDone s else s)

/-- SYS_RESET_WRITE. -/
def execSysResetWrite (v : BitVec 32) (s : State) : Out := .next (if regOpen s 0 then sysReset v.toNat s else s)

/-- ISL_CTRL_RESET. -/
def execIslCtrlReset (v : BitVec 32) (s : State) : Out := .next (if regOpen s 0 then islCtrl v.toNat s else s)

/-- RESET_CAUSE_CLEAR. -/
def execResetCauseClear (v : BitVec 32) (s : State) : Out := .next (if regOpen s 0 then clearCause v.toNat s else s)

/-- QCTRL_FLUSH (R173). -/
def execQctrlFlush (queue : Nat) (s : State) : Out := .next (if regOpen s 4 && queue < 8 then flushQueue queue s else s)

/-- ETH_LINK_CHANGE: ETH_STATUS follows the port's link (23), at 100 Mbit/s or lower in EBB (R60); Ethernet has not started before P6 (R102). -/
def execEthLinkChange (port : Nat) (up : Bool) (speed : Nat) (full : Bool) (s : State) : Out :=
  .next <|
    if isUp s 10 && 6 ≤ s.rs.phase && port < 2 && speed ≤ 2 then
      onTel (fun t => { t with eth := setAt t.eth port (if up then (true, ebbSpeed s.pw.st speed, full) else (false, 0, false)) }) s
    else s

/-- SLEW_CTRL_WRITE. -/
def execSlewCtrlWrite (v : BitVec 32) (s : State) : Out := .next (if regOpen s 1 then writeSlew v.toNat s else s)

end Sys2Proof.Machine
end

