-- ==== Sys2Proof/Machine/Arch.lean ====
section
/-! DEFINITION. The archipelago (chapter 17): the handshake and the timers of sessions, datagrams and their messages, forwarded readings,
remote hosting, time, tariff periods and the zone, joining and leaving, and the commands of class 0x70. -/
namespace Sys2Proof.Machine
open Sys2Proof

def tRekey : Nat := 86400 * secNs
def tUrrGive : Nat := 30 * secNs
def tFwdWait : Nat := 2 * secNs
def tBusy : Nat := 100 * msNs
def rtoMax : Nat := 1600
def seqLimit : Nat := 2 ^ 32 - 1

/-- The module's own member ID names the peer on the isthmus: every other peer carries another (R363, R388). -/
def isIsthmus (s : State) (m : Nat) : Bool := m == s.arch.member
def peerAt (s : State) (m : Nat) : Option Peer := linkPeer (isIsthmus s m) s m
def onPeerAt (m : Nat) (f : Peer → Peer) (s : State) : State := onLink (isIsthmus s m) m f s

/-- A session may be opened: the Urrauf engine is open, or the lane is (R363, R388). -/
def canOpen (s : State) (m : Nat) : Bool := if isIsthmus s m then laneOpen s else engineOpen s

/-! ### Messages that wait for their ACK or answer (R374) -/

def outOf (s : State) (m n : Nat) : Option OutMsg := (peerOf s m).bind (fun p => p.out.find? (fun o => o.msgId == n))
def dropOut (m n : Nat) (s : State) : State := onPeer m (fun p => { p with out := p.out.filter (fun o => o.msgId != n) }) s
def dmaOf (s : State) (tag : Nat) : Option Dma := s.host.dma.find? (fun a => a.tag == tag)
/-- The access of a tag ends. -/
def endDma (tag : Nat) (e : DmaEnd) (s : State) : State := match dmaOf s tag with | some a => ringDma a e s | none => s

/-- The round-trip time measured on a message sent once; how it is smoothed is not stated: a free value (R382). -/
def noteRtt (m : Nat) (o : OutMsg) (s : State) : State :=
  if o.first = o.last then useFree (onPeer m (fun p => { p with rtt := Config.freeNat s.free }) s) else s

/-- An ACK of one message. A read also waits for its answer, so it is kept without being sent again. -/
def takeAck (m : Nat) (s : State) (n : Nat) : State :=
  match outOf s m n with
  | none => s
  | some o =>
    let s := noteRtt m o s
    if o.type == 0x20 || o.type == 0x23 then onPeer m (fun p => { p with out := modWhere (fun x => x.msgId == n) (fun x => { x with ack := false }) p.out }) s
    else
      let s := dropOut m n s
      match o.type, o.use with
      | 0x22, .remoteReg d => finishOk d [] s
      | 0x25, .dma tag => endDma tag (.data []) s
      | 0x25, .entry n => startRing n s
      | _, _ => s

/-- A message is given up: what waits for it ends with an error. -/
def abandonMsg (m : Nat) (o : OutMsg) (s : State) : State :=
  match o.use with
  | .remoteReg d => finish d 0x22 0 [] (dropOut m o.msgId s)
  | .dma tag => endDma tag .timeout (dropOut m o.msgId s)
  | .entry n => ringError n 3 (dropOut m o.msgId s)
  | .stage d => finish d 0x0C 0 [] (dropOut m o.msgId (onImg (fun i => { i with stageTx := i.stageTx.filter (fun y => y.2.1 != d) }) s))
  | .plain | .forward .. => s

/-! ### Joining (R384, R385) -/

/-- JOIN_REQ, when the session toward the designated member is Up and none has been sent. -/
def sendJoin (s : State) : State :=
  let m := s.arch.set.designated
  if s.arch.join = 0 && !isDesignated s && sessionUp s (hopOf s m) then
    sendAcked m 0x03 .plain (toBE 12 s.keys.unitId.toNat ++ toBE 2 0x6144) (onArch (fun a => { a with join := 1, joinAt := s.now }) s)
  else s

/-- Completion entries that a reset of NET left unacknowledged go to the host again (R508). -/
def sendOwed (s : State) : State :=
  if !remoteHosted s || !hostReach s then s
  else s.host.owed.foldl (fun s p => sendAcked s.arch.set.remoteHost 0x25 (.entry p.1) p.2 s) (onHost (fun h => { h with owed := [] }) s)

/-- A session on Ethernet has come Up: the join, and what waited for the host. -/
def sessionCameUp (s : State) : State := deliverAll (sendOwed (sendJoin s))

/-- A JOIN_REQ. The peer's role stands in no message: whether it differs from the directory is a free value. -/
def onUrrJoinReq (m : Nat) (s : State) : State :=
  if !isDesignated s then s
  else
    let answer := fun (status n : Nat) => sendAcked m 0x04 .plain ([BitVec.ofNat 8 status, 0, 0, 0] ++ toBE 2 n)
    match dirOf s m with
    | none => answer 1 0 s
    | some _ =>
      if Config.freeBool s.free then answer 2 0 (useFree s)
      else
        let s := sendDirectory m s.arch.dir (answer 0 s.arch.dir.length (useFree s))
        if s.opt.zoneBuf.isEmpty then s else sendAcked m 0x32 .plain s.opt.zoneBuf s

def onUrrJoinAnswer (m : Nat) (body : Bytes) (s : State) : State :=
  if m != s.arch.set.designated then s
  else if u8 body 0 = 0 then onArch (fun a => { a with join := 2, joinLeft := beNat (slice body 4 2) }) s
  else closeSession (hopOf s m) (statArch 6 (onArch (fun a => { a with join := 3, joinAt := s.now }) s))

def entryOfBytes (b : Bytes) : DirEntry :=
  let w := beNat (slice b 0 2)
  { state := w / 2 ^ 14, role := w / 4096 % 4, member := w % 4096, address := beNat (slice b 2 16), port := beNat (slice b 18 2) }

def putEntry (e : DirEntry) (l : List DirEntry) : List DirEntry :=
  if l.any (fun x => x.member == e.member) then modWhere (fun x => x.member == e.member) (fun _ => e) l else l ++ [e]

/-- DIRECTORY; after the whole of it the member opens its other sessions (R385). -/
def onDirectory (m : Nat) (body : Bytes) (s : State) : State :=
  if m != s.arch.set.designated then s
  else
    let n := min (beNat (slice body 0 2)) 48
    let es := (chunks 24 (slice body 4 (24 * n))).map entryOfBytes
    let joining := s.arch.joinLeft != 0
    let s := onArch (fun a => { a with dir := es.foldl (fun l e => putEntry e l) a.dir, joinLeft := a.joinLeft - n }) s
    if joining && s.arch.joinLeft = 0 then openSessions s else s

/-! ### Forwarded readings (R376 to R378, R387) -/

def homeOf (s : State) (f : FwdFrame) : Nat := ((entryById s f.id).map (·.2.home)).getD 0
def windowOfHome (s : State) (home : Nat) : Nat := min s.arch.set.window (((peerOf s home).map (·.window)).getD s.arch.set.window)
def onWindow (home : Nat) (f : Nat → Nat) (s : State) : State :=
  onPeer home (fun p => { p with window := f (min p.window s.arch.set.window) }) s

/-- The frames that may go to a home: one of a meter at a time, its oldest; `n` is a frame's place in the backlog. -/
def fwdReady (s : State) (home : Nat) : List (FwdFrame × Nat) :=
  s.arch.fwd.zipIdx.filter (fun p =>
    homeOf s p.1 == home && p.1.msgId.isNone && decide (p.1.holdTo ≤ s.now) && !(s.arch.fwd.take p.2).any (fun g => g.id == p.1.id))

/-- A frame is sent as a new FWD_READING. While HOME is not Up nothing is forwarded to it (R387). -/
def sendForward (home n : Nat) (s : State) : State :=
  match s.arch.fwd[n]? with
  | none => s
  | some f =>
    if !engineOpen s || !sessionUp s (hopOf s home) then s
    else
      let s := onPeer home id s
      let k := ((peerOf s home).map (·.nextId)).getD 1
      let s := onArch (fun a => { a with fwd := modAt a.fwd n (fun f => { f with msgId := some k, sent := s.now, holdTo := 0 }) }) s
      statArch 7 (sendAcked home 0x10 (.forward f.id f.frame) (f.frame.meta16 ++ f.frame.bytes) s)

/-- FORWARD_SEND: the oldest by ARRIVAL, within the window. -/
def execForwardSend (home : Nat) (s : State) : Out :=
  .next <|
    let open_ := (s.arch.fwd.filter (fun f => f.msgId.isSome && homeOf s f == home)).length
    if windowOfHome s home ≤ open_ then s
    else
      let c := fwdReady s home
      match (c.map (fun p => metaArrival p.1.frame.meta16)).min? with
      | none => s
      | some t =>
        match c.find? (fun p => metaArrival p.1.frame.meta16 == t) with
        | none => s
        | some p => sendForward home p.2 s

def fwdIdx (s : State) (home msgId : Nat) : Option Nat := s.arch.fwd.findIdx? (fun f => f.msgId == some msgId && homeOf s f == home)

/-- FWD_WAIT_EXPIRE: a frame without DURABLE_ACK is sent again as a new message. -/
def execFwdWaitExpire (home msgId : Nat) (s : State) : Out :=
  .next <|
    match fwdIdx s home msgId with
    | none => s
    | some n =>
      if !engineOpen s then s
      else
        let s := passTo ((s.arch.fwd[n]?.map (·.sent)).getD 0 + tFwdWait) s
        let s := dropOut home msgId (onArch (fun a => { a with fwd := modAt a.fwd n (fun f => { f with msgId := none }) }) s)
        sendForward home n s

/-- FWD_BUSY_EXPIRE: t_busy after DISPOSITION 2 the meter's frame is sent again. -/
def execFwdBusyExpire (home meter : Nat) (s : State) : Out :=
  .next <|
    match s.arch.fwd.findIdx? (fun f => f.id == meter && f.msgId.isNone && f.holdTo != 0 && homeOf s f == home) with
    | none => s
    | some n => if engineOpen s then sendForward home n (passTo ((s.arch.fwd[n]?.map (·.holdTo)).getD 0) s) else s

/-- A frame leaves the backlog of LOG. -/
def releaseForward (n : Nat) (s : State) : State := reclaimPool (onArch (fun a => { a with fwd := a.fwd.eraseIdx n }) s)

/-- The ANSWER's status, where the module holds the meter's key. -/
def answerStatus (s : State) (short id : Nat) (f : Bytes) : Option Nat :=
  (currentKey s short id).bind (fun k => (openFrame (downKey k) f).map (fun p => u8 p 0))

/-- DISPOSITION 0: the measurements that a settled frame brought count for ACK, HELD and VOID (R277), where the status can be read; then
the ANSWER leaves on the link of the meter's route. -/
def answerForward (f : FwdFrame) (ans : Bytes) (s : State) : State :=
  match entryById s f.id with
  | none => s
  | some (k, _) =>
    let status := answerStatus s k f.id ans
    let m := f.frame.meta16
    let body := f.body
    let s := if status.all (· < 3) then applyMeas k (metaLink m) (u8 m 14) body f.frame.meas (learnFrame k body m s) else s
    match entryOf s k with
    | none => s
    | some e =>
      if e.link == 5 || e.link == 6 then wiredAnswer (e.link - 5) k (status.getD 0) (frameCounter f.frame.bytes) s
      else queueFrame e.link k f.id ans s

/-- DURABLE_ACK (R378). -/
def onDurableAck (m : Nat) (body : Bytes) (s : State) : State :=
  match fwdIdx s m (beNat (slice body 0 4)) with
  | none => s
  | some n =>
    match s.arch.fwd[n]? with
    | none => s
    | some f =>
      let s := dropOut m (beNat (slice body 0 4)) s
      match u8 body 4 with
      | 0 => onWindow m (fun w => min s.arch.set.window (w + 1)) (releaseForward n (answerForward f (slice body 8 (beNat (slice body 6 2))) s))
      | 1 => onWindow m (fun w => min s.arch.set.window (w + 1)) (releaseForward n s)
      | 2 =>
        let s := onArch (fun a => { a with fwd := modAt a.fwd n (fun f => { f with msgId := none, holdTo := s.now + tBusy }) }) s
        onWindow m (fun w => max 8 (w / 2)) (statArch 8 s)
      | _ => s

/-- FWD_READING (R377): into ingest queue 7 under a rewritten meta word, or DISPOSITION 2 at once. -/
def onFwdReading (m msgId : Nat) (body : Bytes) (s : State) : State :=
  let frame := body.drop 16
  let id := frameId frame
  let s := onArch (fun a => { a with owed := a.owed ++ [(id, frameCounter frame, m, msgId)] }) s
  let f : QFrame := { meta16 := metaWord frame.length 7 0x7F (metaArrival body) m (u8 body 14), bytes := frame, meas := Meas.none }
  if !isUp s 4 || queueSize 7 < wordsUsed (queueOf s 7) + ((queueOf s 7).coming.map frameWords).sum + frameWords f ||
      (freeSlot s (poolOf true 0)).isNone then
    refuseForward frame s
  else toQueue 7 f s

/-! ### Remote hosting (R379 to R381, R487) -/

def windowOf (s : State) (m : Nat) : Option RhostWin := s.arch.windows.find? (fun w => w.member == m)
def onWin (m : Nat) (f : RhostWin → RhostWin) (s : State) : State := onArch (fun a => { a with windows := modWhere (fun w => w.member == m) f a.windows }) s
def ringSpan : Nat := 0x10000
/-- An access of n bytes at A lies in the window, behind the event ring. -/
def inRhostWin (w : RhostWin) (a n : Nat) : Bool := ringSpan ≤ a && a + n ≤ w.size

def memAddr (body : Bytes) : Nat := beNat (slice body 0 8)
def memLen (body : Bytes) : Nat := beNat (slice body 8 2)

def answerRead (m msgId status : Nat) (data : Bytes) (s : State) : State :=
  sendAcked m 0x24 .plain (toBE 4 msgId ++ [BitVec.ofNat 8 status, 0, 0, 0] ++ data) s

def onMemRead (m msgId : Nat) (body : Bytes) (s : State) : State :=
  match windowOf s m with
  | none => answerRead m msgId 1 [] s
  | some w =>
    if inRhostWin w (memAddr body) (memLen body) && inRange (memLen body) 1 urrChunk then dmaRead (.remoteRead m msgId) (w.base + memAddr body) (memLen body) s
    else answerRead m msgId 1 [] s

/-- MEM_DATA: the next piece, or the whole of a read. -/
def onMemData (m : Nat) (body : Bytes) (s : State) : State :=
  let n := beNat (slice body 0 4)
  match ((outOf s m n).map (·.use) : Option MsgUse) with
  | some (.dma tag) =>
    let s := dropOut m n s
    match dmaOf s tag with
    | none => s
    | some a =>
      if u8 body 4 != 0 then ringDma a .unsupported s
      else
        let a := { a with got := a.got ++ body.drop 8 }
        if a.len ≤ a.got.length then ringDma a (.data a.got) s
        else remoteReadNext a (onHost (fun h => { h with dma := modWhere (fun x => x.tag == tag) (fun _ => a) h.dma }) s)
  | _ => s

/-- A MEM_WRITE that lies in its member's window. -/
def writeInWindow (s : State) (m : Nat) (body : Bytes) : Option RhostWin :=
  (windowOf s m).filter (fun w => inRhostWin w (memAddr body) (memLen body) && inRange (memLen body) 1 urrChunk && memLen body + 12 ≤ body.length)

/-- MEM_WRITE: the write, then a zero-length read behind it (R380). One outside the window fails: it is not acknowledged. -/
def onMemWrite (m msgId : Nat) (body : Bytes) (s : State) : State :=
  match writeInWindow s m body with
  | none => s
  | some w =>
    emit (.zeroReadFor m msgId) (emit (.hostWrite (w.base + memAddr body) (slice body 12 (memLen body)) false)
      (onArch (fun a => { a with zlr := a.zlr ++ [(m, msgId)] }) s))

/-- EVENT (R381): the next entry of the member's ring, where the host has made room; one entry stays empty. -/
def onEvent (m : Nat) (body : Bytes) (s : State) : State :=
  match windowOf s m with
  | none => s
  | some w =>
    let next := (w.prod + 1) % 4096
    if next = w.cons then statArch 9 s
    else
      let e := toLE 2 m ++ [BitVec.ofNat 8 (u8 body 0), 0] ++ toLE 8 (beNat (slice body 8 8)) ++ [0, 0, 0] ++ toLE 1 (b2n w.phase)
      let s := onWin m (fun w => { w with prod := next, phase := if next = 0 then !w.phase else w.phase }) s
      raise w.evtPair 0 (emit (.hostWrite (w.base + 16 * w.prod) e false) s)

/-- The member is this module's remote host (R379). -/
def fromHost (s : State) (m : Nat) : Bool := remoteHosted s && m == s.arch.set.remoteHost
def barOk (body : Bytes) : Bool := u8 body 0 == 0 || u8 body 0 == 2

/-- REG_READ: an address without a register reads as a free value. -/
def onRegRead (m msgId : Nat) (body : Bytes) (s : State) : State :=
  if !fromHost s m || !barOk body then s
  else
    let r := regRead (u8 body 0) (beNat (slice body 4 4)) s
    let s := r.2
    let v := r.1.getD (Config.freeNat s.free)
    sendAcked m 0x21 .plain (toBE 4 msgId ++ toBE 4 v) (if r.1.isNone then useFree s else s)

def onRegWrite (m : Nat) (body : Bytes) (s : State) : State :=
  if fromHost s m && barOk body then regWrite (u8 body 0) (beNat (slice body 4 4)) 4 (beNat (slice body 8 4)) s else s

def onRegValue (m : Nat) (body : Bytes) (s : State) : State :=
  let n := beNat (slice body 0 4)
  match ((outOf s m n).map (·.use) : Option MsgUse) with
  | some (.remoteReg d) => finishOk d (toLE 4 (beNat (slice body 4 4))) (dropOut m n s)
  | _ => s

/-! ### Time, tariff periods and the zone (R382 to R384) -/

/-- TIME is taken as a TIME_SET. -/
def onTime (m : Nat) (body : Bytes) (s : State) : State :=
  if m != s.arch.set.designated || s.tm.cfg.source != 0 || !s.arch.set.timeFollow || !timeRuns s || !bit (u8 body 14) 0 then s
  else
    let t := nsOfStamp (beNat (slice body 0 8))
    let rtt := ((peerOf s (hopOf s m)).map (·.rtt)).getD 0
    let err := (beNat (slice body 8 4) + (rtt + 1) / 2) * 1000
    let theta := s.tm.counter - t
    let s2 := onTm (fun k => { k with theta := theta }) s
    if isStep theta s then askStep { cause := 2, old := s.tm.counter, new := t, err := err, desc := none } s2
    else setErr err (onTm (fun k => { k with slewLeft := -theta * fracUnit }) s2)

/-- The instant of the last timeline entry. -/
def timelineHead (s : State) : Int := (s.db.timeline.head?.map (fun e => e.1)).getD 0

/-- The date of a change that TARIFF brings: its instant, or the last timeline entry's if that is later, where both clocks are valid; a
sender without a valid clock gives no instant. -/
def tariffDate (s : State) (instant : Nat) : Nat :=
  if clockValid s && instant != 0 then max (nsOfStamp instant).toNat (timelineHead s).toNat else s.tm.counter.toNat

/-- TARIFF. -/
def onTariff (m : Nat) (body : Bytes) (s : State) : State :=
  if m != s.arch.set.designated || !s.opt.follow then s
  else
    let no := beNat (slice body 2 2)
    let old := s.arch.bcast
    if old.any (fun b => b.1 == no) then
      retariff (onArch (fun a => { a with bcast := old.map (fun b => (b.1, b.2.1, s.now)), bcastOn := true }) s)
    else
      let s := onArch (fun a => { a with bcast := some (no, u8 body 0 % 16, s.now), bcastOn := true }) s
      if mayAppend s && s.lg.sampled then evaluateTariffAt false (tariffDate s (beNat (slice body 4 8))) s else s

/-- ZONE. -/
def onZone (m : Nat) (body : Bytes) (s : State) : State :=
  if m != s.arch.set.designated || !s.arch.set.zoneFollow || body.length != 528 || (zoneFault body).isSome then s else applyZone body s

/-- TIME_BROADCAST_DUE. -/
def execTimeBroadcastDue (s : State) : Out :=
  .next <|
    if !isDesignated s || !engineOpen s then s
    else
      let s := passTo (s.arch.timeAt + 16 * secNs) s
      let s := onArch (fun a => { a with timeAt := s.now }) s
      if !clockValid s then s
      else broadcast 0x30 (toBE 8 (stamp s) ++ toBE 4 (errUs s) ++ toBE 2 (ofInt 16 (utcOffset s)) ++ [1, 0]) s

/-- TARIFF_BROADCAST_DUE. -/
def execTariffBroadcastDue (s : State) : Out :=
  .next <|
    if !isDesignated s || !engineOpen s then s
    else
      let s := passTo (s.arch.tariffAt + 60 * secNs) s
      sendTariff (periodNow s.db.timeline) (timelineHead s).toNat s

/-- BCAST_HOLD_LAPSE: the next source of R226 governs. -/
def execBcastHoldLapse (s : State) : Out :=
  .next <|
    match s.arch.bcast with
    | some b =>
      if s.arch.bcastOn then
        retariff (onArch (fun a => { a with bcastOn := false }) (passTo (b.2.2 + s.arch.set.bcastHold * secNs) s))
      else s
    | none => s

/-! ### Messages received (R373 to R375) -/

/-- A message as a datagram carries it. -/
structure Msg where
  type : Nat
  flags : Nat
  hops : Nat
  src : Nat
  dst : Nat
  msgId : Nat
  body : Bytes
  deriving DecidableEq, Repr

def Msg.ackReq (x : Msg) : Bool := bit x.flags 0
def Msg.fence (x : Msg) : Bool := bit x.flags 1
def Msg.bcast (x : Msg) : Bool := bit x.flags 2

/-- The messages of a plaintext, each padded to a multiple of 4. -/
def parseMsgs : Nat → Bytes → List Msg
  | 0, _ => []
  | k + 1, b =>
    let n := beNat (slice b 6 2)
    if b.length < 12 || b.length < 12 + n then []
    else
      let w := beNat (slice b 2 2)
      { type := u8 b 0, flags := u8 b 1, hops := w / 4096, src := w % 4096, dst := beNat (slice b 4 2) % 4096, msgId := beNat (slice b 8 4),
        body := slice b 12 n } :: parseMsgs k (b.drop ((12 + n + 3) / 4 * 4))

/-- Types that are not reserved. -/
def knownTypes : List Nat :=
  [1, 2, 3, 4, 5, 6, 0x10, 0x11, 0x20, 0x21, 0x22, 0x23, 0x24, 0x25, 0x26, 0x30, 0x31, 0x32, 0x40, 0x41, 0x42]

/-- What a message does. -/
def process (x : Msg) (s : State) : State :=
  let m := x.src
  match x.type with
  | 0x01 => (chunks 4 (slice x.body 4 (4 * beNat (slice x.body 0 2)))).foldl (fun s b => takeAck m s (beNat b)) s
  | 0x03 => onUrrJoinReq m s
  | 0x04 => onUrrJoinAnswer m x.body s
  | 0x05 => onDirectory m x.body s
  | 0x06 => setPeerState m 2 s
  | 0x10 => onFwdReading m x.msgId x.body s
  | 0x11 => onDurableAck m x.body s
  | 0x20 => onRegRead m x.msgId x.body s
  | 0x21 => onRegValue m x.body s
  | 0x22 => onRegWrite m x.body s
  | 0x23 => onMemRead m x.msgId x.body s
  | 0x24 => onMemData m x.body s
  | 0x25 => onMemWrite m x.msgId x.body s
  | 0x26 => onEvent m x.body s
  | 0x30 => onTime m x.body s
  | 0x31 => onTariff m x.body s
  | 0x32 => onZone m x.body s
  | 0x40 => onStageHeader m x.body s
  | 0x41 => onStageData m x.body s
  | 0x42 => onStageResult m x.body s
  | _ => s

/-- A zone change waits while LEDGER cannot append: the message is not taken, and so not acknowledged. -/
def canProcess (s : State) (x : Msg) : Bool := x.type != 0x32 || mayAppend s

def sendAck (m n : Nat) (s : State) : State := sendMsg m 0x01 false false false .plain (toBE 2 1 ++ [0, 0] ++ toBE 4 n) s

/-- The ACK of a message received. A MEM_WRITE has its ACK once its zero-length read has returned (R380); one that failed has none. -/
def ackOf (x : Msg) (copy : Bool) (s : State) : State :=
  if !x.ackReq then s
  else if x.type = 0x25 then
    (if copy && (writeInWindow s x.src x.body).isSome && !s.arch.zlr.contains (x.src, x.msgId) then sendAck x.src x.msgId s else s)
  else sendAck x.src x.msgId s

/-- SRC's MSG_ID n has been processed; `seenTo` moves over what follows without a gap. -/
def seenUpTo : Nat → List Nat → Nat → Nat
  | 0, _, n => n
  | k + 1, l, n => if l.contains (n + 1) then seenUpTo k l (n + 1) else n

/-- MSG_IDs kept of each sender. -/
def seenSize : Nat := 4096
def markSeen (x : Msg) (s : State) : State :=
  onPeer x.src (fun p =>
    if x.bcast then { p with seenB := (x.msgId :: p.seenB).take seenSize }
    else
      let l := (x.msgId :: p.seen).take seenSize
      { p with seen := l, seenTo := seenUpTo seenSize l p.seenTo }) s

/-- Fenced messages whose turn has come (R375). -/
def drainFenced : Nat → Nat → State → State
  | 0, _, s => s
  | k + 1, m, s =>
    match (peerOf s m).bind (fun p => p.fenced.find? (fun f => decide (f.1 ≤ p.seenTo + 1))) with
    | none => s
    | some f =>
      let x : Msg := { type := f.2.1, flags := f.2.2.1, hops := 0, src := m, dst := s.arch.member, msgId := f.1, body := f.2.2.2 }
      let s := onPeer m (fun p => { p with fenced := p.fenced.filter (fun g => g.1 != f.1) }) s
      drainFenced k m (process x (markSeen x s))

/-- The first message ever taken from a SRC: those before it went to this module before it kept count. -/
def baseSeen (x : Msg) (p : Peer) : Peer :=
  if p.seen.isEmpty && p.fenced.isEmpty && p.seenTo = 0 then { p with seenTo := x.msgId - 1 } else p

/-- A message for this module. -/
def takeOwn (x : Msg) (s : State) : State :=
  let s := onPeer x.src (fun p => if x.bcast then p else baseSeen x p) s
  match peerOf s x.src with
  | none => s
  | some p =>
    if (if x.bcast then p.seenB else p.seen).contains x.msgId || p.fenced.any (fun f => f.1 == x.msgId) then ackOf x true s
    else if !knownTypes.contains x.type then statArch 3 (ackOf x false (markSeen x s))
    else if !canProcess s x then s
    else if x.fence && !x.bcast && p.seenTo + 1 < x.msgId then
      ackOf x false (onPeer x.src (fun p => { p with fenced := p.fenced ++ [(x.msgId, x.type, x.flags, x.body)] }) s)
    else drainFenced (p.fenced.length + 1) x.src (process x (ackOf x false (markSeen x s)))

/-- A message for another member is sealed again toward it, with HOPS incremented (R366). -/
def relay (x : Msg) (s : State) : State :=
  if x.hops = 3 then statArch 2 s
  else sendPlain (hopOf s x.dst) (messageBytes x.type x.flags (x.hops + 1) x.src x.dst x.msgId x.body) s

def takeMsg (s : State) (x : Msg) : State :=
  if x.src == s.arch.member then s
  else if x.bcast || x.dst == s.arch.member then takeOwn x s
  else relay x s

/-! ### Datagrams (R370 to R372) -/

/-- The session that a SESSION_ID names: a peer's, or the one replaced within the last 10 s. -/
def sessionFor (s : State) (rx : Nat) : Option (Nat × Session × Bool) :=
  s.arch.peers.findSome? (fun p =>
    match p.session with
    | none => none
    | some e =>
      if e.rxId = rx then some (p.member, e, false)
      else (p.old.filter (fun o => o.rxId == rx && decide (s.now < e.since + 10 * secNs))).map (fun o => (p.member, o, true)))

/-- A SEQ that R372 drops. -/
def isReplay (e : Session) (seq : Nat) : Bool := seq == 0 || seq + 1024 ≤ e.rxHigh || e.rxSet.contains seq

/-- The session after a datagram is accepted. -/
def Session.took (seq now : Nat) (e : Session) : Session :=
  let high := max e.rxHigh seq
  { e with rxHigh := high, rxSet := (seq :: e.rxSet).filter (fun q => high < q + 1024), rxAt := now }

/-- URR_DATAGRAM_RX. A message wakes the module from EBB (R60). -/
def execUrrDatagramRx (d : Bytes) (s : State) : Out :=
  .next <|
    if !engineOpen s || d.length < 16 || u8 d 0 != 0x10 then s
    else
      match sessionFor s (beNat (slice d 2 2)) with
      | none => s
      | some (m, e, old) =>
        let seq := beNat (slice d 4 8)
        let n := beNat (slice d 12 2)
        if isReplay e seq then statArch 0 s
        else
          match if d.length = 32 + n then gcmOpen e.rxKey (e.rxSalt ++ slice d 4 8) (d.take 16) (slice d 16 n) (slice d (16 + n) 16) else none with
          | none => statArch 1 s
          | some plain =>
            let f := Session.took seq s.now
            let s := onPeer m (fun p => if old then { p with old := p.old.map f } else { p with session := p.session.map f }) s
            (parseMsgs plain.length plain).foldl takeMsg (ebbWake s)

/-! ### Handshakes (R369, R370, R372) -/

/-- HELLO_RX. -/
def execHelloRx (h : Hello) (s : State) : Out := .next (answerHello h s)

/-- What follows a session that has come Up. -/
def afterUp (isthmus : Bool) (r : Bool × State) : State := if r.1 then (if isthmus then isthmusCameUp r.2 else sessionCameUp r.2) else r.2

/-- HELLO_REPLY_RX. -/
def execHelloReplyRx (h : Hello) (s : State) : Out :=
  .next (if (if h.isthmus then laneOpen s else engineOpen s) then afterUp h.isthmus (takeReply h s) else s)

/-- CONFIRM_RX. -/
def execConfirmRx (isthmus : Bool) (member sigR sigS : Nat) (s : State) : Out :=
  .next (if (if isthmus then laneOpen s else engineOpen s) then afterUp isthmus (takeConfirm isthmus member sigR sigS s) else s)

/-- A peer that this module may name: in the directory, or the designated member. -/
def knownPeer (s : State) (m : Nat) : Bool := isIsthmus s m || (dirOf s m).isSome || m == s.arch.set.designated

/-- A new handshake, where none is under way. -/
def rehandshake (m : Nat) (s : State) : State :=
  if !knownPeer s m || ((peerAt s m).bind (·.hs)).isSome then s else startHandshake (isIsthmus s m) m s

/-- URR_RESET_RX: a hint. No session is closed. -/
def execUrrResetRx (member : Nat) (s : State) : Out := .next (rehandshake member s)

/-- URR_HANDSHAKE_TIMEOUT: what has not completed is abandoned; its initiator tries again after t_ka. -/
def execUrrHandshakeTimeout (member : Nat) (s : State) : Out :=
  .next <|
    match peerAt s member with
    | none => s
    | some p =>
      match (p.hs.or p.resp).map (·.since) with
      | none => s
      | some t =>
        if !canOpen s member then s
        else
          let s := passTo (t + tUrrHs) s
          onPeerAt member (fun p =>
            if p.hs.isSome then { p with hs := none, retryAt := some (s.now + tKa) } else { p with resp := none }) s

/-- URR_REKEY: a session at its age or datagram limit. -/
def execUrrRekey (member : Nat) (s : State) : Out :=
  .next <|
    match (peerAt s member).bind (·.session) with
    | none => s
    | some e =>
      if !canOpen s member then s
      else if seqLimit ≤ e.txSeq || seqLimit ≤ e.rxHigh then rehandshake member s
      else rehandshake member (passTo (e.since + tRekey) s)

/-- URR_KEEPALIVE_DUE: KEEPALIVE on an idle session; a handshake that was abandoned is tried again. Messages of the isthmus keep its
session busy (R388). -/
def execUrrKeepaliveDue (member : Nat) (s : State) : Out :=
  .next <|
    match peerAt s member with
    | none => s
    | some p =>
      if !canOpen s member then s
      else
        match p.retryAt, p.session with
        | some t, _ => startHandshake (isIsthmus s member) member (passTo t s)
        | none, some e => if isIsthmus s member then s else sendMsg member 0x02 false false false .plain [] (passTo (e.txAt + tKa) s)
        | none, none => s

/-- URR_SESSION_DEAD; the loss of the isthmus is a command of its own (R393). -/
def execUrrSessionDead (member : Nat) (s : State) : Out :=
  .next <|
    if isIsthmus s member || !isUp s 10 then s
    else
      match (peerOf s member).bind (·.session) with
      | none => s
      | some e =>
        let s := closeSession member (passTo (e.rxAt + tDead) s)
        if knownPeer s member then onPeer member (fun p => { p with retryAt := some (s.now + tKa) }) s else s

/-- URR_RESEND. -/
def execUrrResend (member msgId : Nat) (s : State) : Out :=
  .next <|
    match outOf s member msgId with
    | none => s
    | some o =>
      if !o.ack || !engineOpen s || !sessionUp s (hopOf s member) then s
      else
        let s := passTo (o.last + o.rto * msNs) s
        let s := onPeer member (fun p =>
          { p with out := modWhere (fun x => x.msgId == msgId) (fun x => { x with last := s.now, rto := min rtoMax (2 * x.rto) }) p.out }) s
        statArch 4 (sendPlain (hopOf s member) (messageBytes o.type o.flags 0 s.arch.member member msgId o.body) s)

/-- URR_GIVE_UP: the session is closed and a new one opened. -/
def execUrrGiveUp (member msgId : Nat) (s : State) : Out :=
  .next <|
    match outOf s member msgId with
    | none => s
    | some o =>
      if !o.ack || !engineOpen s then s
      else
        let s := passTo (o.first + tUrrGive) s
        let s := onPeer member (fun p => { p with out := modWhere (fun x => x.msgId == msgId) (fun x => { x with first := s.now }) p.out }) s
        let s := abandonMsg member o s
        let hop := hopOf s member
        startHandshake false hop (closeSession hop s)

/-- URR_JOIN_RETRY: 60 s after a refusal. The session was kept closed, so the handshake comes first. -/
def execUrrJoinRetry (s : State) : Out :=
  .next <|
    if s.arch.join != 3 || !engineOpen s then s
    else
      let s := passTo (s.arch.joinAt + 60 * secNs) s
      let s := onArch (fun a => { a with join := 0 }) s
      let m := hopOf s s.arch.set.designated
      if sessionUp s m then sendJoin s else startHandshake false m s

/-- MEM_WRITE_ZLR_DONE: the ACK (R380). -/
def execMemWriteZlrDone (member msgId : Nat) (s : State) : Out :=
  .next <|
    if isUp s 10 && s.arch.zlr.contains (member, msgId) then
      sendAck member msgId (onArch (fun a => { a with zlr := a.zlr.erase (member, msgId) }) s)
    else s

/-! ### Commands of class 0x70 -/

def archOf (b : Bytes) : ArchSet :=
  { designated := u16 b 16, remoteHost := u16 b 18, port := u16 b 20, window := u16 b 22, bcastHold := u16 b 24, timeFollow := bit (u8 b 26) 0
    zoneFollow := bit (u8 b 26) 1, address := leNat (slice b 32 16) }

def archChecks (b : Bytes) : List Check :=
  [(u16 b 16 ≤ 4095, 16), (u16 b 18 ≤ 4095, 18), (inRange (u16 b 22) 8 1024, 22), (inRange (u16 b 24) 60 3600, 24)]

/-- The directory says that the member is no hub. -/
def isNoHub (s : State) (m : Nat) : Bool := (dirOf s m).any (fun e => e.role != 2)

/-- ARCH_SET. -/
def execArchSet (d : Nat) (s : State) : Out :=
  .next (hostCmd 0x70 d archChecks (fun x s =>
    let a := archOf x.bytes
    if isNoHub s a.designated || (remoteHosted s && isNoHub s a.remoteHost) || (a.designated == s.arch.member && s.arch.role == 1) then finish d 0x24 0 [] s
    else finishOk d (toLE 2 s.arch.member ++ toLE 1 s.arch.role) (saveOpt (fun o => { o with arch := a }) s)) s)

/-- A directory entry without a reserved value. -/
def entryGood (e : DirEntry) : Bool := e.state != 3 && (e.role == 1 || e.role == 2)

/-- ARCH_DIR_SET: the directory is replaced, and entries that are new or changed go to every member that is Up. -/
def execArchDirSet (d : Nat) (s : State) : Out :=
  .next (hostCmd 0x71 d (fun b => [(inRange (u16 b 16) 1 4096, 16), addrCheck b 24 16]) (fun x s =>
    let es := (chunks 24 (x.input.getD [])).map entryOfBytes
    if !isDesignated s then finish d 0x20 0 [] s
    else if !es.all entryGood then badParam d 24 s
    else
      let dir := es.foldl (fun l e => putEntry e l) []
      let new := dir.filter (fun e => !s.arch.dir.contains e)
      finishOk d [] (tellDirectory new (onArch (fun a => { a with dir := dir }) s))) s)

/-- Two bits per member ID. -/
def peersBytes (s : State) : Bytes :=
  let st := fun m : Nat => ((peerOf s m).map (·.state)).getD 0
  (List.range 1024).map (fun k => BitVec.ofNat 8 (st (4 * k) + 4 * st (4 * k + 1) + 16 * st (4 * k + 2) + 64 * st (4 * k + 3)))

/-- ARCH_PEERS. -/
def execArchPeers (d : Nat) (s : State) : Out :=
  .next (hostCmd 0x72 d (fun b => [addrCheck b 24 64]) (fun x s =>
    finishOk d (toLE 2 (s.arch.peers.filter (fun p => p.state == 1)).length) (putOut d (u64 x.bytes 24) (peersBytes s) s)) s)

/-- WIN_BASE and WIN_SIZE are in range, and the window overlaps no other member's. -/
def windowGood (s : State) (m base size : Nat) : Bool :=
  base % 4096 == 0 && inRange size 131072 (2 ^ 40) && base + size ≤ 2 ^ 64 &&
    s.arch.windows.all (fun w => w.member == m || decide (base + size ≤ w.base) || decide (w.base + w.size ≤ base))

/-- RHOST_SET. -/
def execRhostSet (d : Nat) (s : State) : Out :=
  .next (hostCmd 0x73 d (fun b => [(u16 b 16 ≤ 4095, 16), (u8 b 18 ≤ 31, 18)]) (fun x s =>
    let b := x.bytes
    let m := u16 b 16
    if (dirOf s m).isNone then finish d 0x21 0 [] s
    else if s.arch.role != 2 then finish d 0x24 0 [] s
    else if !windowGood s m (u64 b 24) (u64 b 32) then finish d 0x23 0 [] s
    else
      let w : RhostWin := { member := m, evtPair := u8 b 18, base := u64 b 24, size := u64 b 32, prod := 0, cons := 0, phase := true }
      finishOk d [] (onArch (fun a => { a with windows := a.windows.filter (fun v => v.member != m) ++ [w] }) s)) s)

/-- EVT_RING_CONS (R487). -/
def evtRingCons : Nat := 0x1FF008
def ringConsRead (s : State) : Nat := 65536 * s.arch.consMember + ((windowOf s s.arch.consMember).map (·.cons)).getD 0
def ringConsWrite (v : Nat) (s : State) : State :=
  let m := v / 65536 % 4096
  onWin m (fun w => { w with cons := v % 4096 }) (onArch (fun a => { a with consMember := m }) s)

/-- REMOTE_REG. -/
def execRemoteReg (d : Nat) (s : State) : Out :=
  .next (hostCmd 0x74 d (fun b => [(u16 b 16 ≤ 4095, 16), (u8 b 18 == 0 || u8 b 18 == 2, 18)]) (fun x s =>
    let b := x.bytes
    let m := u16 b 16
    let wr := bit (u8 b 19) 0
    if m == s.arch.member then
      (if u8 b 18 = 2 && u32 b 20 = evtRingCons && s.arch.role = 2 then
        (if wr then finishOk d [] (ringConsWrite (u32 b 24) s) else finishOk d (toLE 4 (ringConsRead s)) s)
       else badParam d 16 s)
    else if (dirOf s m).isNone then finish d 0x21 0 [] s
    else if s.opt.cert.isNone then finish d 0x25 0 [] s
    else if !sessionUp s (hopOf s m) then finish d 0x22 0 [] s
    else
      let at_ := toBE 1 (u8 b 18) ++ [0, 0, 0] ++ toBE 4 (u32 b 20)
      if wr then sendAcked m 0x22 (.remoteReg d) (at_ ++ toBE 4 (u32 b 24)) (holdDesc d s)
      else sendAcked m 0x20 (.remoteReg d) at_ (holdDesc d s)) s)

/-- ARCH_LEAVE: LEAVE to every member that is Up; then the sessions are closed, and what waited for them ends. -/
def execArchLeave (d : Nat) (s : State) : Out :=
  .next (hostCmd 0x75 d (fun _ => []) (fun _ s =>
    let s := (upMembers s).foldl (fun s m => sendAcked m 0x06 .plain [] s) s
    let s := s.arch.peers.foldl (fun s p => p.out.foldl (fun s o => abandonMsg p.member o s) s) s
    let s := (upMembers s).foldl (fun s m => closeSession m s) s
    finishOk d [] (onArch (fun a =>
      { a with join := 0, peers := a.peers.map (fun p => { p with out := [], hs := none, resp := none, retryAt := none }) }) s)) s)

/-- ARCH_STATS. -/
def execArchStats (d : Nat) (s : State) : Out :=
  .next (statsCmd 0x76 d 64 (·.arch.stats) (fun s => cntClear 9 (onArch (fun a => { a with stats := List.replicate 10 0 }) s)) (fun _ => []) s)

/-! ### HOST_DMA_COMPLETION (R118) -/

/-- Advanced Error Reporting notes a completion timeout and poisoned data; the bits are PCIe's (R100, R118, PRESUMED, log 99). -/
def noteError (e : DmaEnd) (s : State) : State :=
  match e with
  | .timeout => onHost (fun h => { h with aer := h.aer ||| 0x4000 }) s
  | .poisoned => onHost (fun h => { h with aer := h.aer ||| 0x1000 }) s
  | _ => s

/-- An access to host memory ends; one made for a remote-hosted member is answered with MEM_DATA. -/
def execHostDmaCompletion (tag : Nat) (e : DmaEnd) (s : State) : Out :=
  .next <|
    if !isUp s 10 then s
    else
      match dmaOf s tag with
      | none => s
      | some a =>
        match a.use with
        | .remoteRead m n =>
          let s := dropDma (fun x => x.tag == tag) s
          (match e with
           | .data b => if b.length = a.len then answerRead m n 0 b s else answerRead m n 1 [] s
           | _ => answerRead m n 1 [] s)
        | _ => if remoteHosted s then s else ringDma a e (noteError e s)

end Sys2Proof.Machine
end

