-- ==== Sys2Proof/Machine/Dispatch.lean ====
section
/-! DEFINITION. The dispatch: one arm per command, each one direct call of its meaning. -/
namespace Sys2Proof.Machine
open Sys2Proof

/-- The effect of a command on everything but the queue. -/
def exec (i : Instr) (s : State) : Host.Outcome State Fault Refusal :=
  match i with
  | .straitMessage x => Sys2Proof.Machine.execStraitMessage x s
  | .soundRequest x => Sys2Proof.Machine.execSoundRequest x s
  | .frameArrival queue aborted => Sys2Proof.Machine.execFrameArrival queue aborted s
  | .queuePoll queue err tagOk => Sys2Proof.Machine.execQueuePoll queue err tagOk s
  | .workItemCreate a => Sys2Proof.Machine.execWorkItemCreate a s
  | .itemDispatch => Sys2Proof.Machine.execItemDispatch s
  | .itemResume slot => Sys2Proof.Machine.execItemResume slot s
  | .itemEnd slot failed => Sys2Proof.Machine.execItemEnd slot failed s
  | .prioAgeTick slot => Sys2Proof.Machine.execPrioAgeTick slot s
  | .budgetWindow => Sys2Proof.Machine.execBudgetWindow s
  | .itemRunTimeout core => Sys2Proof.Machine.execItemRunTimeout core s
  | .coreDrain core => Sys2Proof.Machine.execCoreDrain core s
  | .coreDrained core => Sys2Proof.Machine.execCoreDrained core s
  | .authDone slot => Sys2Proof.Machine.execAuthDone slot s
  | .validationDone slot => Sys2Proof.Machine.execValidationDone slot s
  | .conversionDone slot altA altB => Sys2Proof.Machine.execConversionDone slot altA altB s
  | .firmwarePathResult slot alt => Sys2Proof.Machine.execFirmwarePathResult slot alt s
  | .postingAppend slot => Sys2Proof.Machine.execPostingAppend slot s
  | .groupCommitStart => Sys2Proof.Machine.execGroupCommitStart s
  | .groupCommitComplete => Sys2Proof.Machine.execGroupCommitComplete s
  | .balanceFold seq => Sys2Proof.Machine.execBalanceFold seq s
  | .balWaitExpire node => Sys2Proof.Machine.execBalWaitExpire node s
  | .replayWindowEnd => Sys2Proof.Machine.execReplayWindowEnd s
  | .vinWarn vin => Sys2Proof.Machine.execVinWarn vin s
  | .vinWarnClear vin => Sys2Proof.Machine.execVinWarnClear vin s
  | .vinBo => Sys2Proof.Machine.execVinBo s
  | .vinOn vin => Sys2Proof.Machine.execVinOn vin s
  | .vbatLost => Sys2Proof.Machine.execVbatLost s
  | .holmPowerOn vin => Sys2Proof.Machine.execHolmPowerOn vin s
  | .holmWdtExpire => Sys2Proof.Machine.execHolmWdtExpire s
  | .sysWdtExpire => Sys2Proof.Machine.execSysWdtExpire s
  | .islWdtExpire island => Sys2Proof.Machine.execIslWdtExpire island s
  | .resetNAssert => Sys2Proof.Machine.execResetNAssert s
  | .resetNRelease => Sys2Proof.Machine.execResetNRelease s
  | .resetEpisodeEnd => Sys2Proof.Machine.execResetEpisodeEnd s
  | .thermalSample tj => Sys2Proof.Machine.execThermalSample tj s
  | .admitRequest island cls credits => Sys2Proof.Machine.execAdmitRequest island cls credits s
  | .admitRelease island credits => Sys2Proof.Machine.execAdmitRelease island credits s
  | .admitTick => Sys2Proof.Machine.execAdmitTick s
  | .admitWaitExpire island => Sys2Proof.Machine.execAdmitWaitExpire island s
  | .powerSet d => Sys2Proof.Machine.execPowerSet d s
  | .holdWakeAlarm => Sys2Proof.Machine.execHoldWakeAlarm s
  | .idleAck island => Sys2Proof.Machine.execIdleAck island s
  | .idleTmoExpire island => Sys2Proof.Machine.execIdleTmoExpire island s
  | .resetHoldEnd island => Sys2Proof.Machine.execResetHoldEnd island s
  | .pllLockHeld island => Sys2Proof.Machine.execPllLockHeld island s
  | .pllLockFail island => Sys2Proof.Machine.execPllLockFail island s
  | .lockRetryExpire island => Sys2Proof.Machine.execLockRetryExpire island s
  | .p1PowerSwitch => Sys2Proof.Machine.execP1PowerSwitch s
  | .phaseP0End => Sys2Proof.Machine.execPhaseP0End s
  | .phaseP1End => Sys2Proof.Machine.execPhaseP1End s
  | .phaseP2End => Sys2Proof.Machine.execPhaseP2End s
  | .phaseP3End => Sys2Proof.Machine.execPhaseP3End s
  | .phaseP4End => Sys2Proof.Machine.execPhaseP4End s
  | .phaseP5End => Sys2Proof.Machine.execPhaseP5End s
  | .phaseP6End => Sys2Proof.Machine.execPhaseP6End s
  | .pcieLinkUp speed width => Sys2Proof.Machine.execPcieLinkUp speed width s
  | .perstNAssert => Sys2Proof.Machine.execPerstNAssert s
  | .perstNRelease => Sys2Proof.Machine.execPerstNRelease s
  | .lagoonRead d => Sys2Proof.Machine.execLagoonRead d s
  | .lagoonWrite d => Sys2Proof.Machine.execLagoonWrite d s
  | .registerWrite bar off v => Sys2Proof.Machine.execRegisterWrite bar off v s
  | .setupDoneWrite => Sys2Proof.Machine.execSetupDoneWrite s
  | .sysResetWrite v => Sys2Proof.Machine.execSysResetWrite v s
  | .islCtrlReset v => Sys2Proof.Machine.execIslCtrlReset v s
  | .resetCauseClear v => Sys2Proof.Machine.execResetCauseClear v s
  | .qctrlFlush queue => Sys2Proof.Machine.execQctrlFlush queue s
  | .ringEnable ring => Sys2Proof.Machine.execRingEnable ring s
  | .ringDisable ring => Sys2Proof.Machine.execRingDisable ring s
  | .ringStopDone ring => Sys2Proof.Machine.execRingStopDone ring s
  | .doorbellSqTail ring v => Sys2Proof.Machine.execDoorbellSqTail ring v s
  | .doorbellCqHead ring v => Sys2Proof.Machine.execDoorbellCqHead ring v s
  | .descriptorFetch => Sys2Proof.Machine.execDescriptorFetch s
  | .completionWrite d dmaOk => Sys2Proof.Machine.execCompletionWrite d dmaOk s
  | .coalTimeExpire ring => Sys2Proof.Machine.execCoalTimeExpire ring s
  | .msixVectorUnmask w => Sys2Proof.Machine.execMsixVectorUnmask w s
  | .evtStatusClear half v => Sys2Proof.Machine.execEvtStatusClear half v s
  | .fenceZlrReturn ring => Sys2Proof.Machine.execFenceZlrReturn ring s
  | .fenceZlrTimeout ring => Sys2Proof.Machine.execFenceZlrTimeout ring s
  | .nop d => Sys2Proof.Machine.execNop d s
  | .deliverBuf d => Sys2Proof.Machine.execDeliverBuf d s
  | .deliverFlushExpire ring => Sys2Proof.Machine.execDeliverFlushExpire ring s
  | .deliverConfirm d => Sys2Proof.Machine.execDeliverConfirm d s
  | .steerSet d => Sys2Proof.Machine.execSteerSet d s
  | .meterEnrol d => Sys2Proof.Machine.execMeterEnrol d s
  | .meterRemove d => Sys2Proof.Machine.execMeterRemove d s
  | .meterQuery d => Sys2Proof.Machine.execMeterQuery d s
  | .routePin d => Sys2Proof.Machine.execRoutePin d s
  | .profileSet d => Sys2Proof.Machine.execProfileSet d s
  | .prefixAdd d => Sys2Proof.Machine.execPrefixAdd d s
  | .prefixDel d => Sys2Proof.Machine.execPrefixDel d s
  | .tableReseed d => Sys2Proof.Machine.execTableReseed d s
  | .reseedShadowDone => Sys2Proof.Machine.execReseedShadowDone s
  | .tableSweep => Sys2Proof.Machine.execTableSweep s
  | .tableRebuildDone => Sys2Proof.Machine.execTableRebuildDone s
  | .bucketReloadDone slot => Sys2Proof.Machine.execBucketReloadDone slot s
  | .ovfStoreReloadDone => Sys2Proof.Machine.execOvfStoreReloadDone s
  | .schedSet d => Sys2Proof.Machine.execSchedSet d s
  | .schedStats d => Sys2Proof.Machine.execSchedStats d s
  | .schedSatClear v => Sys2Proof.Machine.execSchedSatClear v s
  | .quarRead d => Sys2Proof.Machine.execQuarRead d s
  | .quarRelease d => Sys2Proof.Machine.execQuarRelease d s
  | .intakeStats d => Sys2Proof.Machine.execIntakeStats d s
  | .intakeSet d => Sys2Proof.Machine.execIntakeSet d s
  | .virialSet d => Sys2Proof.Machine.execVirialSet d s
  | .convTest d => Sys2Proof.Machine.execConvTest d s
  | .convStats d => Sys2Proof.Machine.execConvStats d s
  | .katRun passA passB => Sys2Proof.Machine.execKatRun passA passB s
  | .tariffCodeStable code => Sys2Proof.Machine.execTariffCodeStable code s
  | .tariffOverrideExpire => Sys2Proof.Machine.execTariffOverrideExpire s
  | .calendarCross cal => Sys2Proof.Machine.execCalendarCross cal s
  | .billingSweep cal => Sys2Proof.Machine.execBillingSweep cal s
  | .tariffMapSet d => Sys2Proof.Machine.execTariffMapSet d s
  | .tariffOverride d => Sys2Proof.Machine.execTariffOverride d s
  | .tariffFollow d => Sys2Proof.Machine.execTariffFollow d s
  | .billCalSet d => Sys2Proof.Machine.execBillCalSet d s
  | .custodySet d => Sys2Proof.Machine.execCustodySet d s
  | .ledgerRead d => Sys2Proof.Machine.execLedgerRead d s
  | .profileRead d => Sys2Proof.Machine.execProfileRead d s
  | .auditRead d => Sys2Proof.Machine.execAuditRead d s
  | .ledgerSet d => Sys2Proof.Machine.execLedgerSet d s
  | .ledgerStats d => Sys2Proof.Machine.execLedgerStats d s
  | .friendlyEnd => Sys2Proof.Machine.execFriendlyEnd s
  | .valveRetry short => Sys2Proof.Machine.execValveRetry short s
  | .prepaySet d => Sys2Proof.Machine.execPrepaySet d s
  | .topup d => Sys2Proof.Machine.execTopup d s
  | .valveCmd d => Sys2Proof.Machine.execValveCmd d s
  | .friendlySet d => Sys2Proof.Machine.execFriendlySet d s
  | .prepayRead d => Sys2Proof.Machine.execPrepayRead d s
  | .prepayLogRead d => Sys2Proof.Machine.execPrepayLogRead d s
  | .prepayStats d => Sys2Proof.Machine.execPrepayStats d s
  | .nodeSet d => Sys2Proof.Machine.execNodeSet d s
  | .nodeMember d => Sys2Proof.Machine.execNodeMember d s
  | .nodeRead d => Sys2Proof.Machine.execNodeRead d s
  | .nodeRelearn d => Sys2Proof.Machine.execNodeRelearn d s
  | .balReportRead d => Sys2Proof.Machine.execBalReportRead d s
  | .indicatorRead d => Sys2Proof.Machine.execIndicatorRead d s
  | .indicatorClear d => Sys2Proof.Machine.execIndicatorClear d s
  | .balStats d => Sys2Proof.Machine.execBalStats d s
  | .beaconPeriodStart phase zcOffset => Sys2Proof.Machine.execBeaconPeriodStart phase zcOffset s
  | .plcFrameRx f => Sys2Proof.Machine.execPlcFrameRx f s
  | .plcDownlinkTx phase => Sys2Proof.Machine.execPlcDownlinkTx phase s
  | .loadClassMeasure phase noise imped period lag => Sys2Proof.Machine.execLoadClassMeasure phase noise imped period lag s
  | .toneMapSend tei => Sys2Proof.Machine.execToneMapSend tei s
  | .pbHoldExpire tei seq => Sys2Proof.Machine.execPbHoldExpire tei seq s
  | .plcSet d => Sys2Proof.Machine.execPlcSet d s
  | .plcStationRead d => Sys2Proof.Machine.execPlcStationRead d s
  | .plcTonemapReset d => Sys2Proof.Machine.execPlcTonemapReset d s
  | .plcStats d => Sys2Proof.Machine.execPlcStats d s
  | .radioSlotStart radio => Sys2Proof.Machine.execRadioSlotStart radio s
  | .radioFrameRx f => Sys2Proof.Machine.execRadioFrameRx f s
  | .childSilent short => Sys2Proof.Machine.execChildSilent short s
  | .radioSet d => Sys2Proof.Machine.execRadioSet d s
  | .radioProfileSet d => Sys2Proof.Machine.execRadioProfileSet d s
  | .radioChildRead d => Sys2Proof.Machine.execRadioChildRead d s
  | .radioStats d => Sys2Proof.Machine.execRadioStats d s
  | .wiredPollDue port address => Sys2Proof.Machine.execWiredPollDue port address s
  | .wiredResponse port r => Sys2Proof.Machine.execWiredResponse port r s
  | .wiredRespTimeout port => Sys2Proof.Machine.execWiredRespTimeout port s
  | .wiredSet d => Sys2Proof.Machine.execWiredSet d s
  | .wiredPollSet d => Sys2Proof.Machine.execWiredPollSet d s
  | .wiredPollRead d => Sys2Proof.Machine.execWiredPollRead d s
  | .wiredStats d => Sys2Proof.Machine.execWiredStats d s
  | .rtcSetTick => Sys2Proof.Machine.execRtcSetTick s
  | .ptpMessageRx port m => Sys2Proof.Machine.execPtpMessageRx port m s
  | .ptpTxDue port m => Sys2Proof.Machine.execPtpTxDue port m s
  | .ptpSourceLost => Sys2Proof.Machine.execPtpSourceLost s
  | .ppsEdge => Sys2Proof.Machine.execPpsEdge s
  | .ppsSourceLost => Sys2Proof.Machine.execPpsSourceLost s
  | .clockStepItem => Sys2Proof.Machine.execClockStepItem s
  | .leapSecond => Sys2Proof.Machine.execLeapSecond s
  | .clockValidChange => Sys2Proof.Machine.execClockValidChange s
  | .timeCheckDue tei => Sys2Proof.Machine.execTimeCheckDue tei s
  | .tpulseInstant output => Sys2Proof.Machine.execTpulseInstant output s
  | .timeCfg d => Sys2Proof.Machine.execTimeCfg d s
  | .timeSet d => Sys2Proof.Machine.execTimeSet d s
  | .timeZoneSet d => Sys2Proof.Machine.execTimeZoneSet d s
  | .tpulseSet d => Sys2Proof.Machine.execTpulseSet d s
  | .timeRead d => Sys2Proof.Machine.execTimeRead d s
  | .timeStats d => Sys2Proof.Machine.execTimeStats d s
  | .timeNowNsRead => Sys2Proof.Machine.execTimeNowNsRead s
  | .helloRx h => Sys2Proof.Machine.execHelloRx h s
  | .helloReplyRx h => Sys2Proof.Machine.execHelloReplyRx h s
  | .confirmRx isthmus member sigR sigS => Sys2Proof.Machine.execConfirmRx isthmus member sigR sigS s
  | .urrResetRx member => Sys2Proof.Machine.execUrrResetRx member s
  | .urrDatagramRx bytes => Sys2Proof.Machine.execUrrDatagramRx bytes s
  | .urrHandshakeTimeout member => Sys2Proof.Machine.execUrrHandshakeTimeout member s
  | .urrRekey member => Sys2Proof.Machine.execUrrRekey member s
  | .urrKeepaliveDue member => Sys2Proof.Machine.execUrrKeepaliveDue member s
  | .urrSessionDead member => Sys2Proof.Machine.execUrrSessionDead member s
  | .urrResend member msgId => Sys2Proof.Machine.execUrrResend member msgId s
  | .urrGiveUp member msgId => Sys2Proof.Machine.execUrrGiveUp member msgId s
  | .urrJoinRetry => Sys2Proof.Machine.execUrrJoinRetry s
  | .forwardSend home => Sys2Proof.Machine.execForwardSend home s
  | .fwdWaitExpire home msgId => Sys2Proof.Machine.execFwdWaitExpire home msgId s
  | .fwdBusyExpire home meter => Sys2Proof.Machine.execFwdBusyExpire home meter s
  | .memWriteZlrDone member msgId => Sys2Proof.Machine.execMemWriteZlrDone member msgId s
  | .timeBroadcastDue => Sys2Proof.Machine.execTimeBroadcastDue s
  | .tariffBroadcastDue => Sys2Proof.Machine.execTariffBroadcastDue s
  | .bcastHoldLapse => Sys2Proof.Machine.execBcastHoldLapse s
  | .archSet d => Sys2Proof.Machine.execArchSet d s
  | .archDirSet d => Sys2Proof.Machine.execArchDirSet d s
  | .archPeers d => Sys2Proof.Machine.execArchPeers d s
  | .rhostSet d => Sys2Proof.Machine.execRhostSet d s
  | .remoteReg d => Sys2Proof.Machine.execRemoteReg d s
  | .archLeave d => Sys2Proof.Machine.execArchLeave d s
  | .archStats d => Sys2Proof.Machine.execArchStats d s
  | .isthmusTrained => Sys2Proof.Machine.execIsthmusTrained s
  | .isthmusDown lane => Sys2Proof.Machine.execIsthmusDown lane s
  | .renewSend => Sys2Proof.Machine.execRenewSend s
  | .renewRx renewNo leaseCyc guardCyc lastSeq => Sys2Proof.Machine.execRenewRx renewNo leaseCyc guardCyc lastSeq s
  | .renewAckRx renewNo health => Sys2Proof.Machine.execRenewAckRx renewNo health s
  | .leaseExpire => Sys2Proof.Machine.execLeaseExpire s
  | .takeoverTimerExpire => Sys2Proof.Machine.execTakeoverTimerExpire s
  | .leaseRxChange level => Sys2Proof.Machine.execLeaseRxChange level s
  | .releaseRx lastSeq => Sys2Proof.Machine.execReleaseRx lastSeq s
  | .journalRx records => Sys2Proof.Machine.execJournalRx records s
  | .journalAckRx seq => Sys2Proof.Machine.execJournalAckRx seq s
  | .mirrorTmoExpire => Sys2Proof.Machine.execMirrorTmoExpire s
  | .confirmedRx seqs => Sys2Proof.Machine.execConfirmedRx seqs s
  | .catchupReqRx fromSeq => Sys2Proof.Machine.execCatchupReqRx fromSeq s
  | .pairSet d => Sys2Proof.Machine.execPairSet d s
  | .pairSwitch d => Sys2Proof.Machine.execPairSwitch d s
  | .pairForce d => Sys2Proof.Machine.execPairForce d s
  | .pairHealthRead d => Sys2Proof.Machine.execPairHealthRead d s
  | .pairStats d => Sys2Proof.Machine.execPairStats d s
  | .keyUpdate d => Sys2Proof.Machine.execKeyUpdate d s
  | .keyEntryApply d entry => Sys2Proof.Machine.execKeyEntryApply d entry s
  | .tamperSourceActive source on => Sys2Proof.Machine.execTamperSourceActive source on s
  | .killSequenceDone => Sys2Proof.Machine.execKillSequenceDone s
  | .keyStatusRead d => Sys2Proof.Machine.execKeyStatusRead d s
  | .deviceKeyRead d => Sys2Proof.Machine.execDeviceKeyRead d s
  | .tamperClear d => Sys2Proof.Machine.execTamperClear d s
  | .tamperLatchW1c v => Sys2Proof.Machine.execTamperLatchW1c v s
  | .debugChallenge d => Sys2Proof.Machine.execDebugChallenge d s
  | .debugUnlock d => Sys2Proof.Machine.execDebugUnlock d s
  | .debugLock d => Sys2Proof.Machine.execDebugLock d s
  | .keyStats d => Sys2Proof.Machine.execKeyStats d s
  | .challengeExpire => Sys2Proof.Machine.execChallengeExpire s
  | .jtagDbgChal => Sys2Proof.Machine.execJtagDbgChal s
  | .jtagDbgResp sigR sigS => Sys2Proof.Machine.execJtagDbgResp sigR sigS s
  | .jtagScan => Sys2Proof.Machine.execJtagScan s
  | .jtagBypass code => Sys2Proof.Machine.execJtagBypass code s
  | .checkpointStart => Sys2Proof.Machine.execCheckpointStart s
  | .checkpointDone => Sys2Proof.Machine.execCheckpointDone s
  | .flashPageProgram stream => Sys2Proof.Machine.execFlashPageProgram stream s
  | .collection die => Sys2Proof.Machine.execCollection die s
  | .programFail die block => Sys2Proof.Machine.execProgramFail die block s
  | .eraseFail die block => Sys2Proof.Machine.execEraseFail die block s
  | .dieFail die => Sys2Proof.Machine.execDieFail die s
  | .nandTempSample t => Sys2Proof.Machine.execNandTempSample t s
  | .poolReclaim => Sys2Proof.Machine.execPoolReclaim s
  | .hostnsSet d => Sys2Proof.Machine.execHostnsSet d s
  | .hostnsRead d corrected => Sys2Proof.Machine.execHostnsRead d corrected s
  | .hostnsWrite d => Sys2Proof.Machine.execHostnsWrite d s
  | .hostnsDiscard d => Sys2Proof.Machine.execHostnsDiscard d s
  | .flashHealthRead d => Sys2Proof.Machine.execFlashHealthRead d s
  | .flashCheckpoint d => Sys2Proof.Machine.execFlashCheckpoint d s
  | .flashStats d => Sys2Proof.Machine.execFlashStats d s
  | .imageBegin d => Sys2Proof.Machine.execImageBegin d s
  | .imageData d => Sys2Proof.Machine.execImageData d s
  | .imageEnd d => Sys2Proof.Machine.execImageEnd d s
  | .imageActivate d => Sys2Proof.Machine.execImageActivate d s
  | .activationGroupDone => Sys2Proof.Machine.execActivationGroupDone s
  | .imageRevert d => Sys2Proof.Machine.execImageRevert d s
  | .imageStatusRead d => Sys2Proof.Machine.execImageStatusRead d s
  | .trialWindowEnd type => Sys2Proof.Machine.execTrialWindowEnd type s
  | .imageConfirm type => Sys2Proof.Machine.execImageConfirm type s
  | .campaignStart d => Sys2Proof.Machine.execCampaignStart d s
  | .campaignQueryRound campaign => Sys2Proof.Machine.execCampaignQueryRound campaign s
  | .campaignStatus d => Sys2Proof.Machine.execCampaignStatus d s
  | .campaignCancel d => Sys2Proof.Machine.execCampaignCancel d s
  | .stageForward d => Sys2Proof.Machine.execStageForward d s
  | .stageFree d => Sys2Proof.Machine.execStageFree d s
  | .recorderSample channel v => Sys2Proof.Machine.execRecorderSample channel v s
  | .recorderFlushDue => Sys2Proof.Machine.execRecorderFlushDue s
  | .recorderThawDue => Sys2Proof.Machine.execRecorderThawDue s
  | .recCursorWrite v => Sys2Proof.Machine.execRecCursorWrite v s
  | .recWindowLoaded => Sys2Proof.Machine.execRecWindowLoaded s
  | .recWindowAutoInc => Sys2Proof.Machine.execRecWindowAutoInc s
  | .recStatusClear v => Sys2Proof.Machine.execRecStatusClear v s
  | .cntSatClear v => Sys2Proof.Machine.execCntSatClear v s
  | .bgActivityDispatch r => Sys2Proof.Machine.execBgActivityDispatch r s
  | .bgPeriodEnd activity => Sys2Proof.Machine.execBgPeriodEnd activity s
  | .dramRetrain => Sys2Proof.Machine.execDramRetrain s
  | .recorderRead d => Sys2Proof.Machine.execRecorderRead d s
  | .recorderFreeze d => Sys2Proof.Machine.execRecorderFreeze d s
  | .recorderThaw d => Sys2Proof.Machine.execRecorderThaw d s
  | .recorderFlush d => Sys2Proof.Machine.execRecorderFlush d s
  | .recorderExtReset d => Sys2Proof.Machine.execRecorderExtReset d s
  | .eccLogRead d => Sys2Proof.Machine.execEccLogRead d s
  | .eccStats d => Sys2Proof.Machine.execEccStats d s
  | .eccSet d => Sys2Proof.Machine.execEccSet d s
  | .bgStats d => Sys2Proof.Machine.execBgStats d s
  | .slewCtrlWrite v => Sys2Proof.Machine.execSlewCtrlWrite v s
  | .dbgItem0Read => Sys2Proof.Machine.execDbgItem0Read s
  | .pllLockLost island => Sys2Proof.Machine.execPllLockLost island s
  | .ethLinkChange port up speed full => Sys2Proof.Machine.execEthLinkChange port up speed full s
  | .pcieLinkDown dest => Sys2Proof.Machine.execPcieLinkDown dest s
  | .mainsZeroCrossing phase => Sys2Proof.Machine.execMainsZeroCrossing phase s
  | .plcSackTimeout tei => Sys2Proof.Machine.execPlcSackTimeout tei s
  | .radioPartnerFrameRx f => Sys2Proof.Machine.execRadioPartnerFrameRx f s
  | .catchupCheckpointRx n j seqs image => Sys2Proof.Machine.execCatchupCheckpointRx n j seqs image s
  | .hostDmaCompletion tag e => Sys2Proof.Machine.execHostDmaCompletion tag e s

end Sys2Proof.Machine
end

