-- ==== Sys2Proof/Safety.lean ====
section
/-! DEFINITION. The words that claims use: a ring command that runs and what it ends with, and what a command leaves as it was. -/
namespace Sys2Proof.Machine
open Sys2Proof

/-! ### Ring commands -/

/-- Descriptor d is held as x, started, with opcode op and no reserved bit set; NET and the island that serves the opcode run, and ATOLL where the
command is a work item (R165); the host buffer that the command reads has arrived; its ring pair's completions are not discarded and its data
are not withheld (R113 to R119). -/
abbrev Ready (op d : Nat) (s : State) (x : Desc) : Prop :=
  descOf s d = some x ∧ x.stage = .started ∧ opcodeOf x = op ∧ x.orphan = false ∧ reservedFaults x.bytes = [] ∧ isUp s 10 = true ∧
    (servedBy op = 0 ∨ isUp s (servedBy op) = true) ∧ (needsAtoll op = false ∨ isUp s 9 = true) ∧ x.mute = false ∧
    ((inputOf x.bytes).isSome = true → x.input.isSome = true)

/-- The work item of descriptor x has its turn: NET holds or makes it, and every older item of its flow has ended or released the flow
(R151, R152, R157). -/
abbrev InTurn (s : State) (x : Desc) : Prop := (itemOfDesc (ensureItem x s) x.id).any (flowTurn (ensureItem x s)) = true

/-- Descriptor d's command has ended with STATUS, DETAIL and RESULT; its completion entry is due (R116). -/
abbrev Done (d status detail : Nat) (result : Bytes) (t : State) : Prop :=
  (descOf t d).map (fun y => (y.stage, y.status, y.detail, y.result)) = some (.done, status, detail, result)

/-- Descriptor d's command waits for something other than the host. -/
abbrev Waits (d : Nat) (t : State) : Prop := (descOf t d).map (·.stage) = some .waiting

/-- Descriptor d's command will complete with status 0 and a result when the last record appended is durable (R31). -/
abbrev WaitsDurable (d : Nat) (result : Bytes) (t : State) : Prop :=
  Waits d t ∧ (t.jr.next - 1, DurAct.complete d 0 0 result) ∈ t.jr.waits

/-- The module has sent data to the host's memory for a descriptor of state s (R123), where the host stands at its own PCIe link, in pieces no
longer than the payload that the host allows (R100); a remote-hosted module (R383) sends the same bytes as messages. -/
abbrev PutOut (s : State) (addr : Nat) (data : Bytes) (t : State) : Prop :=
  remoteHosted s = false →
    ∀ p ∈ spans s.host.maxPayload addr data.length, Output.hostWrite p.1 (slice data (p.1 - addr) p.2) s.host.relaxOn ∈ t.out

/-- A command that reads a log has ended: the entries of SEQ from FROM_SEQ (byte 40) on, as many of `size` bytes as BUF_LEN (byte 32) takes, are
in the buffer (byte 24), and RESULT holds their number and the SEQ of the next. -/
abbrev LogRead (d size : Nat) (s : State) (b : Bytes) (entries : List (Nat × Bytes)) (t : State) : Prop :=
  let l := entries.filter (fun e => u64 b 40 ≤ e.1)
  let now := l.take (u32 b 32 / size)
  Done d 0 0 (toLE 4 now.length ++ toLE 8 (((l.drop (u32 b 32 / size)).head?.map (·.1)).getD 0)) t ∧ PutOut s (u64 b 24) (now.flatMap (·.2)) t

/-- The bit of event source n is set in EVT_STATUS (R126). -/
abbrev Raised (n : Nat) (t : State) : Prop := t.host.evt.getLsbD n = true

/-- The body of the last record appended to the journal (R247). -/
abbrev LastBody (b : JBody) (t : State) : Prop := (t.jr.open_.getLast?).map (·.body) = some b

/-- The opcode and the descriptor of a ring command (R117); none of every other command. -/
def ringOp (c : Instr) : Option (Nat × Nat) :=
  match c with
  | .nop d => some (0x00, d)
  | .deliverBuf d => some (0x01, d)
  | .deliverConfirm d => some (0x02, d)
  | .steerSet d => some (0x03, d)
  | .meterEnrol d => some (0x10, d)
  | .meterRemove d => some (0x11, d)
  | .meterQuery d => some (0x12, d)
  | .routePin d => some (0x13, d)
  | .profileSet d => some (0x14, d)
  | .prefixAdd d => some (0x15, d)
  | .prefixDel d => some (0x16, d)
  | .tableReseed d => some (0x17, d)
  | .tariffMapSet d => some (0x20, d)
  | .tariffOverride d => some (0x21, d)
  | .tariffFollow d => some (0x22, d)
  | .billCalSet d => some (0x23, d)
  | .custodySet d => some (0x24, d)
  | .ledgerRead d => some (0x25, d)
  | .profileRead d => some (0x26, d)
  | .auditRead d => some (0x27, d)
  | .ledgerSet d => some (0x28, d)
  | .ledgerStats d => some (0x29, d)
  | .prepaySet d => some (0x30, d)
  | .topup d => some (0x31, d)
  | .valveCmd d => some (0x32, d)
  | .friendlySet d => some (0x33, d)
  | .prepayRead d => some (0x34, d)
  | .prepayLogRead d => some (0x35, d)
  | .prepayStats d => some (0x36, d)
  | .nodeSet d => some (0x38, d)
  | .nodeMember d => some (0x39, d)
  | .nodeRead d => some (0x3A, d)
  | .nodeRelearn d => some (0x3B, d)
  | .balReportRead d => some (0x3C, d)
  | .indicatorRead d => some (0x3D, d)
  | .indicatorClear d => some (0x3E, d)
  | .balStats d => some (0x3F, d)
  | .powerSet d => some (0x40, d)
  | .lagoonRead d => some (0x41, d)
  | .lagoonWrite d => some (0x42, d)
  | .recorderRead d => some (0x43, d)
  | .recorderFreeze d => some (0x44, d)
  | .recorderThaw d => some (0x45, d)
  | .recorderFlush d => some (0x46, d)
  | .recorderExtReset d => some (0x47, d)
  | .eccLogRead d => some (0x48, d)
  | .eccStats d => some (0x49, d)
  | .eccSet d => some (0x4A, d)
  | .bgStats d => some (0x4B, d)
  | .schedSet d => some (0x4C, d)
  | .schedStats d => some (0x4D, d)
  | .plcSet d => some (0x50, d)
  | .plcStationRead d => some (0x51, d)
  | .plcTonemapReset d => some (0x52, d)
  | .plcStats d => some (0x53, d)
  | .radioSet d => some (0x54, d)
  | .radioProfileSet d => some (0x55, d)
  | .radioChildRead d => some (0x56, d)
  | .radioStats d => some (0x57, d)
  | .wiredSet d => some (0x58, d)
  | .wiredPollSet d => some (0x59, d)
  | .wiredPollRead d => some (0x5A, d)
  | .wiredStats d => some (0x5B, d)
  | .timeCfg d => some (0x60, d)
  | .timeSet d => some (0x61, d)
  | .timeZoneSet d => some (0x62, d)
  | .tpulseSet d => some (0x63, d)
  | .timeRead d => some (0x64, d)
  | .timeStats d => some (0x65, d)
  | .archSet d => some (0x70, d)
  | .archDirSet d => some (0x71, d)
  | .archPeers d => some (0x72, d)
  | .rhostSet d => some (0x73, d)
  | .remoteReg d => some (0x74, d)
  | .archLeave d => some (0x75, d)
  | .archStats d => some (0x76, d)
  | .pairSet d => some (0x78, d)
  | .pairSwitch d => some (0x79, d)
  | .pairForce d => some (0x7A, d)
  | .pairHealthRead d => some (0x7B, d)
  | .pairStats d => some (0x7C, d)
  | .keyUpdate d => some (0x80, d)
  | .keyStatusRead d => some (0x81, d)
  | .deviceKeyRead d => some (0x82, d)
  | .tamperClear d => some (0x83, d)
  | .debugChallenge d => some (0x84, d)
  | .debugUnlock d => some (0x85, d)
  | .debugLock d => some (0x86, d)
  | .keyStats d => some (0x87, d)
  | .hostnsSet d => some (0x90, d)
  | .hostnsRead d _ => some (0x91, d)
  | .hostnsWrite d => some (0x92, d)
  | .hostnsDiscard d => some (0x93, d)
  | .flashHealthRead d => some (0x94, d)
  | .flashCheckpoint d => some (0x95, d)
  | .flashStats d => some (0x96, d)
  | .imageBegin d => some (0xA0, d)
  | .imageData d => some (0xA1, d)
  | .imageEnd d => some (0xA2, d)
  | .imageActivate d => some (0xA3, d)
  | .imageRevert d => some (0xA4, d)
  | .imageStatusRead d => some (0xA5, d)
  | .campaignStart d => some (0xA6, d)
  | .campaignStatus d => some (0xA7, d)
  | .campaignCancel d => some (0xA8, d)
  | .stageForward d => some (0xA9, d)
  | .stageFree d => some (0xAA, d)
  | .quarRead d => some (0xB0, d)
  | .quarRelease d => some (0xB1, d)
  | .intakeStats d => some (0xB2, d)
  | .intakeSet d => some (0xB3, d)
  | .virialSet d => some (0xB8, d)
  | .convTest d => some (0xB9, d)
  | .convStats d => some (0xBA, d)
  | _ => none

/-! ### What holds in every state -/

/-- A root slot is Fresh, Live or Dead (R409). -/
def RootSlot.Legal (r : RootSlot) : Prop := r = RootSlot.fresh ∨ (r.valid = true ∧ r.dead = false) ∨ r = RootSlot.gone

/-- The bits of a slot that are 1 stay 1: they are one-time bits (R409). -/
def RootSlot.BlownTo (r q : RootSlot) : Prop :=
  r.secret &&& q.secret = r.secret ∧ (r.valid = true → q.valid = true) ∧ (r.dead = true → q.dead = true)

/-- The shape of a state that every step keeps: both addressed memories are in canonical form (R21, R97); there are 14 islands (R14), 32
ring pairs (R107), eight backup registers (R96) and four root slots, each Fresh, Live or Dead (R409); HWM has 1,024 bits (R409); the count
of operating seconds stops at its largest value (R478). -/
structure State.Inv (s : State) : Prop where
  dram : memWf s.fab.dram = true
  lagoon : memWf s.rs.lagoon = true
  islands : s.isl.length = 14
  rings : s.host.rings.length = 32
  backup : s.rs.bkp.length = 8
  slots : s.keys.slots.length = 4
  legal : ∀ r ∈ s.keys.slots, r.Legal
  hwm : s.keys.hwm ≤ 1024
  seconds : s.rs.opSeconds < 2 ^ 40

/-! ### What a command leaves as it was -/

/-- The parts of the state: every field of State stands in exactly one. -/
inductive Part where
  | pending      -- the queue of commands
  | free         -- the number of the next free value
  | out          -- what has left the module
  | now          -- the time line
  | lanes        -- strait lanes (R15 to R18)
  | sound        -- arbitration and answers of the sound (R19, R20)
  | dram         -- DRAM and its poison marks (R21, R27)
  | eccCounts    -- error counters (R24)
  | islands      -- the islands (R14, R82)
  | power        -- supply, admission, temperature (chapter 03)
  | resets       -- RESET_CAUSE and the open episode (R85, R86)
  | startUp      -- the start-up phases and the sampled contacts (R89, R46)
  | counts       -- power cycles and operating seconds (R478)
  | backup       -- BKP_n (R96)
  | lagoon       -- the lagoon (R97)
  | episodes     -- the record of resets (R97)
  | coldFlags    -- COLD_FLAGS held as such (R99)
  | link         -- the PCIe link and WAKE_N (R90, R104)
  | setup        -- SETUP_DONE and its lock (R483)
  | rings        -- the ring pairs (R107)
  | descs        -- the descriptors held (R113)
  | dma          -- accesses to host memory under way (R118)
  | steer        -- steering (R122)
  | bufs         -- delivery buffers lent (R120)
  | events       -- EVT_STATUS, routes, details and CAPE copy (R126, R471, R472)
  | msix         -- the MSI-X structures (R127)
  | table        -- the live meter table (chapter 06)
  | sched        -- the scheduler (chapter 07)
  | queues       -- the ingest queues (R168)
  | intake       -- counters, limits and windows of INTAKE (R185, R189, R195)
  | conv         -- the CALC islands (chapter 09)
  | meters       -- entries and meter state
  | meterKeys    -- the wrapped meter keys
  | stdRecs      -- standard ledger records
  | custody      -- custody channels, minutes and audit entries
  | closes       -- snapshots and crossings (R224, R234)
  | tariffLog    -- the tariff timeline and the outages
  | valves       -- valves and the prepayment log
  | balance      -- nodes, memberships and reports
  | indicators   -- indicator records and fingerprints
  | polls        -- results of wired polls
  | profiles     -- profiles, prefixes and virial tables
  | quarantine   -- quarantined frames
  | journal      -- the journal (R31, R247)
  | tariff       -- the tariff inputs and the period in force (R225, R226)
  | ledgerWork   -- sweeps, outage, postings to fold
  | ledgerStats  -- LEDGER_STATS, PREPAY_STATS, BAL_STATS
  | plc          -- the power-line link
  | radio        -- the radio link
  | wired        -- the wired ports
  | time         -- the time base
  | arch         -- the archipelago
  | pair         -- the pair
  | pairStore    -- the two-bank pair configuration
  | fuses        -- UNIT_ID and the image key
  | roots        -- ROOT_SLOT_n and HWM (R409)
  | counter      -- the update counter (R416)
  | keyState     -- the state of REEF and its cache (R411, R414)
  | tamper       -- the tamper monitor and the pending kill (R425 to R429)
  | unlock       -- debug unlock and JTAG (R430, R490)
  | keyStats     -- KEY_STATS
  | blocks       -- the flash store
  | checkpoint   -- checkpoints (R439, R440)
  | hostns       -- HOSTNS (R434)
  | backlog      -- the delivery backlog of LOG (R453)
  | flashStats   -- flash counters
  | images       -- images and staging
  | campaigns    -- campaigns
  | health       -- health criteria of a trial (R466)
  | recorder     -- the recorder (R475 to R479)
  | recCursor    -- the window on the recorder (R480)
  | cntSat       -- CNT_SAT (R473)
  | eccLog       -- ECC_LOG (R474)
  | background   -- background activities (R481)
  | boardRegs    -- WDT_CTRL, SLEW_CTRL, GPIO_CTRL
  | optStatus    -- OPT_STATUS and OPT_SEQ_n
  | ethLinks     -- ETH_STATUS, REF_OK
  | dbgItem      -- DBG_ITEM (R488)
  | options      -- the options in force
  | optStore     -- the two-bank option store (R91)
  deriving DecidableEq, Repr

/-- t holds a part as s does. -/
def Part.same (p : Part) (s t : State) : Prop :=
  match p with
  | .pending => t.pending = s.pending
  | .free => t.free = s.free
  | .out => t.out = s.out
  | .now => t.now = s.now
  | .lanes => t.fab.lanes = s.fab.lanes
  | .sound => t.fab.weights = s.fab.weights ∧ t.fab.rrPort = s.fab.rrPort ∧ t.fab.rrLeft = s.fab.rrLeft ∧ t.fab.answers = s.fab.answers ∧
      t.fab.soundWait = s.fab.soundWait
  | .dram => t.fab.dram = s.fab.dram ∧ t.fab.poison = s.fab.poison
  | .eccCounts => t.fab.corrected = s.fab.corrected ∧ t.fab.uncorrected = s.fab.uncorrected ∧ t.fab.eccLimit = s.fab.eccLimit
  | .islands => t.isl = s.isl
  | .power => t.pw = s.pw
  | .resets => t.rs.cause = s.rs.cause ∧ t.rs.lastReach = s.rs.lastReach ∧ t.rs.episode = s.rs.episode ∧ t.rs.asserted = s.rs.asserted ∧
      t.rs.reach = s.rs.reach ∧ t.rs.epCauses = s.rs.epCauses ∧ t.rs.epStart = s.rs.epStart ∧ t.rs.inP2 = s.rs.inP2
  | .startUp => t.rs.phase = s.rs.phase ∧ t.rs.starting = s.rs.starting ∧ t.rs.phaseSince = s.rs.phaseSince ∧ t.rs.thermalHold = s.rs.thermalHold ∧
      t.rs.perst = s.rs.perst ∧ t.rs.modeLevel = s.rs.modeLevel ∧ t.rs.mode = s.rs.mode ∧ t.rs.recovery = s.rs.recovery ∧
      t.rs.optUnverified = s.rs.optUnverified ∧ t.rs.optDefault = s.rs.optDefault ∧ t.rs.p2Again = s.rs.p2Again
  | .counts => t.rs.powerCycles = s.rs.powerCycles ∧ t.rs.opSeconds = s.rs.opSeconds ∧ t.rs.opNs = s.rs.opNs
  | .backup => t.rs.bkp = s.rs.bkp
  | .lagoon => t.rs.lagoon = s.rs.lagoon ∧ t.rs.lagoonDraw = s.rs.lagoonDraw ∧ t.rs.lagoonFormat = s.rs.lagoonFormat
  | .episodes => t.rs.epCount = s.rs.epCount ∧ t.rs.attempts = s.rs.attempts ∧ t.rs.episodes = s.rs.episodes ∧ t.rs.holmLost = s.rs.holmLost
  | .coldFlags => t.rs.servoCold = s.rs.servoCold ∧ t.rs.flashNoHistory = s.rs.flashNoHistory ∧ t.rs.dramTrainCold = s.rs.dramTrainCold
  | .link => t.host.link = s.host.link ∧ t.host.l1Sub = s.host.l1Sub ∧ t.host.maxPayload = s.host.maxPayload ∧ t.host.maxRead = s.host.maxRead ∧
      t.host.relaxOn = s.host.relaxOn ∧ t.host.complTmo = s.host.complTmo ∧ t.host.aer = s.host.aer ∧ t.host.speed = s.host.speed ∧
      t.host.width = s.host.width ∧ t.host.wakeN = s.host.wakeN
  | .setup => t.host.setupDone = s.host.setupDone ∧ t.tel.locked = s.tel.locked
  | .rings => t.host.rings = s.host.rings ∧ t.host.rr = s.host.rr
  | .descs => t.host.descs = s.host.descs ∧ t.host.nextDesc = s.host.nextDesc
  | .dma => t.host.dma = s.host.dma ∧ t.host.nextTag = s.host.nextTag ∧ t.host.owed = s.host.owed
  | .steer => t.host.steer = s.host.steer
  | .bufs => t.host.bufs = s.host.bufs
  | .events => t.host.evt = s.host.evt ∧ t.host.evtEnable = s.host.evtEnable ∧ t.host.evtVector = s.host.evtVector ∧ t.tel.detail = s.tel.detail ∧
      t.tel.copy = s.tel.copy ∧ t.tel.copyDetail = s.tel.copyDetail
  | .msix => t.host.msixMask = s.host.msixMask ∧ t.host.msixFmask = s.host.msixFmask ∧ t.host.msixEnable = s.host.msixEnable ∧
      t.host.msixTable = s.host.msixTable ∧ t.host.msixPending = s.host.msixPending
  | .table => t.tbl = s.tbl
  | .sched => t.sch = s.sch
  | .queues => t.ik.queues = s.ik.queues ∧ t.ik.keylessLast = s.ik.keylessLast
  | .intake => t.ik.stats = s.ik.stats ∧ t.ik.set = s.ik.set ∧ t.ik.replayWindow = s.ik.replayWindow ∧ t.ik.replayCount = s.ik.replayCount ∧
      t.ik.replayRaised = s.ik.replayRaised ∧ t.ik.valCount = s.ik.valCount ∧ t.ik.valRaised = s.ik.valRaised ∧ t.ik.nakAt = s.ik.nakAt
  | .conv => t.cv = s.cv
  | .meters => t.db.entries = s.db.entries ∧ t.db.purging = s.db.purging ∧ t.db.mstate = s.db.mstate ∧ t.db.enrolled = s.db.enrolled
  | .meterKeys => t.db.keys = s.db.keys
  | .stdRecs => t.db.std = s.db.std
  | .custody => t.db.cust = s.db.cust ∧ t.db.minutes = s.db.minutes ∧ t.db.audits = s.db.audits
  | .closes => t.db.snaps = s.db.snaps ∧ t.db.crossings = s.db.crossings
  | .tariffLog => t.db.timeline = s.db.timeline ∧ t.db.inputPeriod = s.db.inputPeriod ∧ t.db.outages = s.db.outages
  | .valves => t.db.valves = s.db.valves ∧ t.db.plog = s.db.plog
  | .balance => t.db.nodes = s.db.nodes ∧ t.db.memb = s.db.memb ∧ t.db.reports = s.db.reports ∧ t.db.folded = s.db.folded
  | .indicators => t.db.inds = s.db.inds ∧ t.db.fps = s.db.fps
  | .polls => t.db.polls = s.db.polls
  | .profiles => t.db.profiles = s.db.profiles ∧ t.db.pfxs = s.db.pfxs ∧ t.db.virials = s.db.virials
  | .quarantine => t.db.quars = s.db.quars
  | .journal => t.jr = s.jr ∧ t.db.applied = s.db.applied
  | .tariff => t.lg.code = s.lg.code ∧ t.lg.sampled = s.lg.sampled ∧ t.lg.lastCode = s.lg.lastCode ∧ t.lg.map = s.lg.map ∧
      t.lg.nextMap = s.lg.nextMap ∧ t.lg.ovr = s.lg.ovr ∧ t.lg.period = s.lg.period ∧ t.lg.source = s.lg.source ∧ t.lg.changes = s.lg.changes ∧
      t.lg.codeOwed = s.lg.codeOwed
  | .ledgerWork => t.lg.sweeps = s.lg.sweeps ∧ t.lg.outStart = s.lg.outStart ∧ t.lg.missing = s.lg.missing ∧ t.lg.folds = s.lg.folds ∧
      t.lg.posted = s.lg.posted ∧ t.lg.outRest = s.lg.outRest ∧ t.lg.rebuild = s.lg.rebuild
  | .ledgerStats => t.lg.stats = s.lg.stats ∧ t.lg.prepayStats = s.lg.prepayStats ∧ t.lg.balStats = s.lg.balStats
  | .plc => t.plc = s.plc
  | .radio => t.rad = s.rad
  | .wired => t.wir = s.wir
  | .time => t.tm = s.tm
  | .arch => t.arch = s.arch
  | .pair => t.pair = s.pair
  | .pairStore => t.pairStore = s.pairStore
  | .fuses => t.keys.unitId = s.keys.unitId ∧ t.keys.imageKey = s.keys.imageKey
  | .roots => t.keys.slots = s.keys.slots ∧ t.keys.hwm = s.keys.hwm
  | .counter => t.keys.counter = s.keys.counter ∧ t.keys.c = s.keys.c ∧ t.keys.k = s.keys.k
  | .keyState => t.keys.st = s.keys.st ∧ t.keys.unlocked = s.keys.unlocked ∧ t.keys.cache = s.keys.cache ∧ t.keys.msgs = s.keys.msgs
  | .tamper => t.keys.live = s.keys.live ∧ t.keys.refs = s.keys.refs ∧ t.keys.levels = s.keys.levels ∧ t.keys.latch = s.keys.latch ∧
      t.keys.killed = s.keys.killed ∧ t.keys.active = s.keys.active ∧ t.keys.pendSources = s.keys.pendSources ∧
      t.keys.pendState = s.keys.pendState ∧ t.keys.pendTime = s.keys.pendTime ∧ t.keys.killTime = s.keys.killTime ∧
      t.keys.killing = s.keys.killing ∧ t.keys.oweTamper = s.keys.oweTamper ∧ t.keys.oweKill = s.keys.oweKill
  | .unlock => t.keys.challenge = s.keys.challenge ∧ t.keys.debug = s.keys.debug ∧ t.keys.fails = s.keys.fails ∧ t.keys.jtagIr = s.keys.jtagIr
  | .keyStats => t.keys.stats = s.keys.stats
  | .blocks => t.fl.mount = s.fl.mount ∧ t.fl.readOnly = s.fl.readOnly ∧ t.fl.formatted = s.fl.formatted ∧ t.fl.blocks = s.fl.blocks ∧
      t.fl.fresh = s.fl.fresh ∧ t.fl.free = s.fl.free ∧ t.fl.queues = s.fl.queues ∧ t.fl.seq = s.fl.seq ∧ t.fl.deadDies = s.fl.deadDies ∧
      t.fl.grown = s.fl.grown ∧ t.fl.parity = s.fl.parity ∧ t.fl.spareMark = s.fl.spareMark
  | .checkpoint => t.fl.running = s.fl.running ∧ t.fl.lastN = s.fl.lastN ∧ t.fl.cpAt = s.fl.cpAt ∧ t.fl.cpBytes = s.fl.cpBytes ∧
      t.fl.cpJournal = s.fl.cpJournal ∧ t.fl.roots = s.fl.roots ∧ t.fl.lostRec = s.fl.lostRec
  | .hostns => t.fl.hostMiB = s.fl.hostMiB ∧ t.fl.hostWrites = s.fl.hostWrites ∧ t.fl.host = s.fl.host
  | .backlog => t.fl.log = s.fl.log ∧ t.fl.settled = s.fl.settled ∧ t.fl.backlogArmed = s.fl.backlogArmed ∧ t.fl.poolFull = s.fl.poolFull
  | .flashStats => t.fl.uncorrectable = s.fl.uncorrectable ∧ t.fl.programFail = s.fl.programFail ∧ t.fl.eraseFail = s.fl.eraseFail ∧
      t.fl.bits = s.fl.bits ∧ t.fl.temps = s.fl.temps ∧ t.fl.stats = s.fl.stats
  | .images => t.img.types = s.img.types ∧ t.img.staging = s.img.staging ∧ t.img.stagingRx = s.img.stagingRx ∧ t.img.floors = s.img.floors ∧
      t.img.act = s.img.act ∧ t.img.stageRx = s.img.stageRx ∧ t.img.stageTx = s.img.stageTx ∧ t.img.nextStage = s.img.nextStage
  | .campaigns => t.img.campaigns = s.img.campaigns ∧ t.img.nextCampaign = s.img.nextCampaign
  | .health => t.img.crit = s.img.crit ∧ t.img.bound = s.img.bound ∧ t.img.heard = s.img.heard
  | .recorder => t.tel.live = s.tel.live ∧ t.tel.shadow = s.tel.shadow ∧ t.tel.frozen = s.tel.frozen ∧ t.tel.thawAt = s.tel.thawAt ∧
      t.tel.flushDue = s.tel.flushDue ∧ t.tel.slots = s.tel.slots ∧ t.tel.generation = s.tel.generation ∧ t.tel.lastHour = s.tel.lastHour ∧
      t.tel.countStuck = s.tel.countStuck ∧ t.tel.countLost = s.tel.countLost
  | .recCursor => t.tel.autoInc = s.tel.autoInc ∧ t.tel.liveSel = s.tel.liveSel ∧ t.tel.index = s.tel.index ∧ t.tel.loading = s.tel.loading ∧
      t.tel.window = s.tel.window
  | .cntSat => t.tel.cntSat = s.tel.cntSat
  | .eccLog => t.tel.eccLog = s.tel.eccLog ∧ t.tel.eccNext = s.tel.eccNext ∧ t.tel.fixed = s.tel.fixed
  | .background => t.tel.bgLate = s.tel.bgLate ∧ t.tel.bgDone = s.tel.bgDone ∧ t.tel.bgSince = s.tel.bgSince
  | .boardRegs => t.tel.sysPeriod = s.tel.sysPeriod ∧ t.tel.islPeriod = s.tel.islPeriod ∧ t.tel.slew = s.tel.slew ∧ t.tel.slewNew = s.tel.slewNew ∧
      t.tel.slewAt = s.tel.slewAt ∧ t.tel.gpioOe = s.tel.gpioOe ∧ t.tel.gpioOut = s.tel.gpioOut ∧ t.tel.gpioIn = s.tel.gpioIn
  | .optStatus => t.tel.optStatus = s.tel.optStatus ∧ t.tel.optSeq = s.tel.optSeq
  | .ethLinks => t.tel.eth = s.tel.eth ∧ t.tel.refOk = s.tel.refOk
  | .dbgItem => t.tel.itemSel = s.tel.itemSel ∧ t.tel.itemCopy = s.tel.itemCopy
  | .options => t.opt = s.opt
  | .optStore => t.optStore = s.optStore

/-- Between two states nothing changes but the parts listed. -/
abbrev OnlyParts (l : List Part) (s t : State) : Prop := ∀ p : Part, p ∉ l → p.same s t

/-- The families of commands, by the chapter of the rule that names the command. -/
inductive Family where
  | fabric    -- straits, the sound and the group commit (01)
  | power     -- supply, admission, temperature (03, 24)
  | resets    -- resets, start-up, the reset registers (04)
  | host      -- PCIe, rings, descriptors, delivery (05)
  | table     -- the meter table and profiles (06)
  | sched     -- the scheduler (07)
  | intake    -- ingest queues and validation (08)
  | convert   -- conversion (09)
  | ledger    -- postings, tariffs, calendars, custody (10)
  | prepay    -- prepayment (11)
  | balance   -- balance and indicators (12)
  | plc       -- power line (13)
  | radio     -- radio (14)
  | wired     -- wired ports (15)
  | time      -- the time base (16)
  | arch      -- the archipelago (17)
  | pair      -- the pair (18)
  | keys      -- keys, tamper, debug unlock (19)
  | flash     -- the flash store (20)
  | images    -- images and campaigns (21)
  | recorder  -- recorder, errors, background work (22)
  | regs      -- registers, JTAG (23)
  deriving DecidableEq, Repr

/-- The family of a command. -/
def familyOf (c : Instr) : Family :=
  match c with
  | .straitMessage _ => .fabric
  | .soundRequest _ => .fabric
  | .frameArrival _ _ => .intake
  | .queuePoll _ _ _ => .intake
  | .workItemCreate _ => .sched
  | .itemDispatch => .sched
  | .itemResume _ => .sched
  | .itemEnd _ _ => .sched
  | .prioAgeTick _ => .sched
  | .budgetWindow => .sched
  | .itemRunTimeout _ => .sched
  | .coreDrain _ => .sched
  | .coreDrained _ => .sched
  | .authDone _ => .intake
  | .validationDone _ => .intake
  | .conversionDone _ _ _ => .convert
  | .firmwarePathResult _ _ => .convert
  | .postingAppend _ => .ledger
  | .groupCommitStart => .fabric
  | .groupCommitComplete => .fabric
  | .balanceFold _ => .balance
  | .balWaitExpire _ => .balance
  | .replayWindowEnd => .intake
  | .vinWarn _ => .power
  | .vinWarnClear _ => .power
  | .vinBo => .power
  | .vinOn _ => .resets
  | .vbatLost => .power
  | .holmPowerOn _ => .resets
  | .holmWdtExpire => .resets
  | .sysWdtExpire => .resets
  | .islWdtExpire _ => .resets
  | .resetNAssert => .resets
  | .resetNRelease => .resets
  | .resetEpisodeEnd => .resets
  | .thermalSample _ => .power
  | .admitRequest _ _ _ => .power
  | .admitRelease _ _ => .power
  | .admitTick => .power
  | .admitWaitExpire _ => .power
  | .powerSet _ => .power
  | .holdWakeAlarm => .power
  | .idleAck _ => .resets
  | .idleTmoExpire _ => .resets
  | .resetHoldEnd _ => .resets
  | .pllLockHeld _ => .resets
  | .pllLockFail _ => .resets
  | .lockRetryExpire _ => .resets
  | .p1PowerSwitch => .power
  | .phaseP0End => .resets
  | .phaseP1End => .resets
  | .phaseP2End => .resets
  | .phaseP3End => .resets
  | .phaseP4End => .flash
  | .phaseP5End => .ledger
  | .phaseP6End => .resets
  | .pcieLinkUp _ _ => .resets
  | .perstNAssert => .host
  | .perstNRelease => .resets
  | .lagoonRead _ => .resets
  | .lagoonWrite _ => .resets
  | .registerWrite _ _ _ => .regs
  | .setupDoneWrite => .regs
  | .sysResetWrite _ => .resets
  | .islCtrlReset _ => .resets
  | .resetCauseClear _ => .resets
  | .qctrlFlush _ => .intake
  | .ringEnable _ => .host
  | .ringDisable _ => .host
  | .ringStopDone _ => .host
  | .doorbellSqTail _ _ => .host
  | .doorbellCqHead _ _ => .host
  | .descriptorFetch => .host
  | .completionWrite _ _ => .host
  | .coalTimeExpire _ => .host
  | .msixVectorUnmask _ => .host
  | .evtStatusClear _ _ => .recorder
  | .fenceZlrReturn _ => .host
  | .fenceZlrTimeout _ => .host
  | .nop _ => .host
  | .deliverBuf _ => .host
  | .deliverFlushExpire _ => .host
  | .deliverConfirm _ => .host
  | .steerSet _ => .host
  | .meterEnrol _ => .table
  | .meterRemove _ => .table
  | .meterQuery _ => .table
  | .routePin _ => .table
  | .profileSet _ => .table
  | .prefixAdd _ => .table
  | .prefixDel _ => .table
  | .tableReseed _ => .table
  | .reseedShadowDone => .table
  | .tableSweep => .table
  | .tableRebuildDone => .table
  | .bucketReloadDone _ => .table
  | .ovfStoreReloadDone => .table
  | .schedSet _ => .sched
  | .schedStats _ => .sched
  | .schedSatClear _ => .sched
  | .quarRead _ => .intake
  | .quarRelease _ => .intake
  | .intakeStats _ => .intake
  | .intakeSet _ => .intake
  | .virialSet _ => .convert
  | .convTest _ => .convert
  | .convStats _ => .convert
  | .katRun _ _ => .convert
  | .tariffCodeStable _ => .ledger
  | .tariffOverrideExpire => .ledger
  | .calendarCross _ => .ledger
  | .billingSweep _ => .ledger
  | .tariffMapSet _ => .ledger
  | .tariffOverride _ => .ledger
  | .tariffFollow _ => .ledger
  | .billCalSet _ => .ledger
  | .custodySet _ => .ledger
  | .ledgerRead _ => .ledger
  | .profileRead _ => .ledger
  | .auditRead _ => .ledger
  | .ledgerSet _ => .ledger
  | .ledgerStats _ => .ledger
  | .friendlyEnd => .prepay
  | .valveRetry _ => .prepay
  | .prepaySet _ => .prepay
  | .topup _ => .prepay
  | .valveCmd _ => .prepay
  | .friendlySet _ => .prepay
  | .prepayRead _ => .prepay
  | .prepayLogRead _ => .prepay
  | .prepayStats _ => .prepay
  | .nodeSet _ => .balance
  | .nodeMember _ => .balance
  | .nodeRead _ => .balance
  | .nodeRelearn _ => .balance
  | .balReportRead _ => .balance
  | .indicatorRead _ => .balance
  | .indicatorClear _ => .balance
  | .balStats _ => .balance
  | .beaconPeriodStart _ _ => .plc
  | .plcFrameRx _ => .plc
  | .plcDownlinkTx _ => .plc
  | .loadClassMeasure _ _ _ _ _ => .plc
  | .toneMapSend _ => .plc
  | .pbHoldExpire _ _ => .plc
  | .plcSet _ => .plc
  | .plcStationRead _ => .plc
  | .plcTonemapReset _ => .plc
  | .plcStats _ => .plc
  | .radioSlotStart _ => .radio
  | .radioFrameRx _ => .radio
  | .childSilent _ => .radio
  | .radioSet _ => .radio
  | .radioProfileSet _ => .radio
  | .radioChildRead _ => .radio
  | .radioStats _ => .radio
  | .wiredPollDue _ _ => .wired
  | .wiredResponse _ _ => .wired
  | .wiredRespTimeout _ => .wired
  | .wiredSet _ => .wired
  | .wiredPollSet _ => .wired
  | .wiredPollRead _ => .wired
  | .wiredStats _ => .wired
  | .rtcSetTick => .time
  | .ptpMessageRx _ _ => .time
  | .ptpTxDue _ _ => .time
  | .ptpSourceLost => .time
  | .ppsEdge => .time
  | .ppsSourceLost => .time
  | .clockStepItem => .time
  | .leapSecond => .time
  | .clockValidChange => .time
  | .timeCheckDue _ => .time
  | .tpulseInstant _ => .time
  | .timeCfg _ => .time
  | .timeSet _ => .time
  | .timeZoneSet _ => .time
  | .tpulseSet _ => .time
  | .timeRead _ => .time
  | .timeStats _ => .time
  | .timeNowNsRead => .regs
  | .helloRx _ => .arch
  | .helloReplyRx _ => .arch
  | .confirmRx _ _ _ _ => .arch
  | .urrResetRx _ => .arch
  | .urrDatagramRx _ => .arch
  | .urrHandshakeTimeout _ => .arch
  | .urrRekey _ => .arch
  | .urrKeepaliveDue _ => .arch
  | .urrSessionDead _ => .arch
  | .urrResend _ _ => .arch
  | .urrGiveUp _ _ => .arch
  | .urrJoinRetry => .arch
  | .forwardSend _ => .arch
  | .fwdWaitExpire _ _ => .arch
  | .fwdBusyExpire _ _ => .arch
  | .memWriteZlrDone _ _ => .arch
  | .timeBroadcastDue => .arch
  | .tariffBroadcastDue => .arch
  | .bcastHoldLapse => .arch
  | .archSet _ => .arch
  | .archDirSet _ => .arch
  | .archPeers _ => .arch
  | .rhostSet _ => .arch
  | .remoteReg _ => .arch
  | .archLeave _ => .arch
  | .archStats _ => .arch
  | .isthmusTrained => .pair
  | .isthmusDown _ => .pair
  | .renewSend => .pair
  | .renewRx _ _ _ _ => .pair
  | .renewAckRx _ _ => .pair
  | .leaseExpire => .pair
  | .takeoverTimerExpire => .pair
  | .leaseRxChange _ => .pair
  | .releaseRx _ => .pair
  | .journalRx _ => .pair
  | .journalAckRx _ => .pair
  | .mirrorTmoExpire => .pair
  | .confirmedRx _ => .pair
  | .catchupReqRx _ => .pair
  | .pairSet _ => .pair
  | .pairSwitch _ => .pair
  | .pairForce _ => .pair
  | .pairHealthRead _ => .pair
  | .pairStats _ => .pair
  | .keyUpdate _ => .keys
  | .keyEntryApply _ _ => .keys
  | .tamperSourceActive _ _ => .keys
  | .killSequenceDone => .keys
  | .keyStatusRead _ => .keys
  | .deviceKeyRead _ => .keys
  | .tamperClear _ => .keys
  | .tamperLatchW1c _ => .keys
  | .debugChallenge _ => .keys
  | .debugUnlock _ => .keys
  | .debugLock _ => .keys
  | .keyStats _ => .keys
  | .challengeExpire => .keys
  | .jtagDbgChal => .regs
  | .jtagDbgResp _ _ => .regs
  | .jtagScan => .regs
  | .jtagBypass _ => .regs
  | .checkpointStart => .flash
  | .checkpointDone => .flash
  | .flashPageProgram _ => .flash
  | .collection _ => .flash
  | .programFail _ _ => .flash
  | .eraseFail _ _ => .flash
  | .dieFail _ => .flash
  | .nandTempSample _ => .flash
  | .poolReclaim => .flash
  | .hostnsSet _ => .flash
  | .hostnsRead _ _ => .flash
  | .hostnsWrite _ => .flash
  | .hostnsDiscard _ => .flash
  | .flashHealthRead _ => .flash
  | .flashCheckpoint _ => .flash
  | .flashStats _ => .flash
  | .imageBegin _ => .images
  | .imageData _ => .images
  | .imageEnd _ => .images
  | .imageActivate _ => .images
  | .activationGroupDone => .images
  | .imageRevert _ => .images
  | .imageStatusRead _ => .images
  | .trialWindowEnd _ => .images
  | .imageConfirm _ => .images
  | .campaignStart _ => .images
  | .campaignQueryRound _ => .images
  | .campaignStatus _ => .images
  | .campaignCancel _ => .images
  | .stageForward _ => .images
  | .stageFree _ => .images
  | .recorderSample _ _ => .recorder
  | .recorderFlushDue => .recorder
  | .recorderThawDue => .recorder
  | .recCursorWrite _ => .recorder
  | .recWindowLoaded => .recorder
  | .recWindowAutoInc => .recorder
  | .recStatusClear _ => .recorder
  | .cntSatClear _ => .recorder
  | .bgActivityDispatch _ => .recorder
  | .bgPeriodEnd _ => .recorder
  | .dramRetrain => .recorder
  | .recorderRead _ => .recorder
  | .recorderFreeze _ => .recorder
  | .recorderThaw _ => .recorder
  | .recorderFlush _ => .recorder
  | .recorderExtReset _ => .recorder
  | .eccLogRead _ => .recorder
  | .eccStats _ => .recorder
  | .eccSet _ => .recorder
  | .bgStats _ => .recorder
  | .slewCtrlWrite _ => .regs
  | .dbgItem0Read => .regs
  | .pllLockLost _ => .resets
  | .ethLinkChange _ _ _ _ => .power
  | .pcieLinkDown _ => .host
  | .mainsZeroCrossing _ => .plc
  | .plcSackTimeout _ => .plc
  | .radioPartnerFrameRx _ => .radio
  | .catchupCheckpointRx _ _ _ _ => .pair
  | .hostDmaCompletion _ _ => .host

/-- Every part but these. -/
def allBut (l : List Part) : List Part :=
  ([.pending, .free, .out, .now, .lanes, .sound, .dram, .eccCounts, .islands, .power, .resets, .startUp, .counts, .backup, .lagoon, .episodes,
      .coldFlags, .link, .setup, .rings, .descs, .dma, .steer, .bufs, .events, .msix, .table, .sched, .queues, .intake, .conv, .meters, .meterKeys,
      .stdRecs, .custody, .closes, .tariffLog, .valves, .balance, .indicators, .polls, .profiles, .quarantine, .journal, .tariff, .ledgerWork,
      .ledgerStats, .plc, .radio, .wired, .time, .arch, .pair, .pairStore, .fuses, .roots, .counter, .keyState, .tamper, .unlock, .keyStats,
      .blocks, .checkpoint, .hostns, .backlog, .flashStats, .images, .campaigns, .health, .recorder, .recCursor, .cntSat, .eccLog, .background,
      .boardRegs, .optStatus, .ethLinks, .dbgItem, .options, .optStore] : List Part).filter (fun p => !l.contains p)

/-- The parts that a command may change. -/
def touches (c : Instr) : List Part :=
  match c with
  | .straitMessage _ => [.free, .out, .lanes, .eccCounts, .islands, .events, .msix, .polls, .plc, .wired, .arch, .pair, .campaigns, .cntSat, .eccLog]
  | .soundRequest _ => [.free, .out, .sound, .dram, .eccCounts, .islands, .events, .msix, .table, .sched, .custody, .polls, .ledgerWork, .plc,
      .wired, .arch, .pair, .campaigns, .health, .cntSat, .eccLog]
  | .frameArrival _ _ => [.out, .power, .sched, .queues, .intake, .arch, .cntSat]
  | .queuePoll _ _ _ => [.free, .out, .eccCounts, .events, .msix, .queues, .intake, .polls, .plc, .wired, .arch, .pair, .campaigns, .cntSat, .eccLog]
  | .workItemCreate _ => [.free, .out, .sched, .queues, .intake, .arch, .cntSat]
  | .itemDispatch => [.free, .out, .dram, .eccCounts, .islands, .events, .msix, .sched, .intake, .conv, .custody, .polls, .quarantine, .journal,
      .ledgerWork, .plc, .wired, .arch, .pair, .blocks, .checkpoint, .backlog, .flashStats, .campaigns, .recorder, .cntSat, .eccLog]
  | .itemResume _ => [.sched, .cntSat]
  | .itemEnd _ _ => [.free, .sched, .health, .cntSat]
  | .prioAgeTick _ => [.now, .counts, .sched, .balance, .time, .recorder, .cntSat]
  | .budgetWindow => [.now, .counts, .sched, .balance, .time, .recorder]
  | .itemRunTimeout _ => [.out, .now, .islands, .counts, .balance, .time, .recorder]
  | .coreDrain _ => [.sched]
  | .coreDrained _ => [.islands, .sched]
  | .authDone _ => [.free, .out, .events, .msix, .table, .sched, .queues, .intake, .meters, .meterKeys, .stdRecs, .valves, .balance, .indicators,
      .polls, .quarantine, .journal, .ledgerStats, .plc, .radio, .arch, .pair, .keyState, .keyStats, .checkpoint, .cntSat]
  | .validationDone _ => [.sched]
  | .conversionDone _ _ _ => [.sched, .conv, .health, .cntSat]
  | .firmwarePathResult _ _ => [.out, .events, .msix, .sched, .conv, .custody, .journal, .arch, .pair, .checkpoint, .health, .cntSat]
  | .postingAppend _ => [.free, .out, .events, .msix, .table, .sched, .intake, .meters, .stdRecs, .custody, .closes, .valves, .balance,
      .indicators, .quarantine, .journal, .ledgerWork, .ledgerStats, .plc, .radio, .arch, .pair, .keyState, .keyStats, .checkpoint, .campaigns,
      .cntSat]
  | .groupCommitStart => [.now, .counts, .balance, .journal, .time, .blocks, .recorder]
  | .groupCommitComplete => allBut [.pending, .now, .pairStore, .health]
  | .balanceFold _ => [.out, .events, .msix, .balance, .indicators, .journal, .ledgerWork, .ledgerStats, .arch, .pair, .checkpoint, .cntSat]
  | .balWaitExpire _ => [.out, .now, .counts, .events, .msix, .balance, .journal, .ledgerStats, .time, .arch, .pair, .checkpoint, .recorder, .cntSat]
  | .replayWindowEnd => [.now, .counts, .intake, .balance, .time, .recorder]
  | .vinWarn _ => [.out, .power, .events, .msix, .journal, .arch]
  | .vinWarnClear _ => [.out, .power, .events, .msix, .table, .meters, .stdRecs, .custody, .closes, .tariffLog, .valves, .balance, .journal,
      .tariff, .ledgerWork, .ledgerStats, .plc, .radio, .time, .arch, .pair, .keyState, .keyStats, .checkpoint, .cntSat, .options, .optStore]
  | .vinBo => allBut [.pending, .pairStore, .health, .options, .optStore]
  | .vinOn _ => allBut [.pending, .now, .pairStore, .health, .options, .optStore]
  | .vbatLost => [.islands, .power, .wired]
  | .holmPowerOn _ => allBut [.pending, .now, .pairStore, .health, .options, .optStore]
  | .holmWdtExpire => allBut [.pending, .now, .pairStore, .health, .options, .optStore]
  | .sysWdtExpire => allBut [.pending, .now, .pairStore, .health, .options, .optStore]
  | .islWdtExpire _ => [.out, .islands]
  | .resetNAssert => allBut [.pending, .now, .pairStore, .health, .options, .optStore]
  | .resetNRelease => [.resets]
  | .resetEpisodeEnd => [.islands, .power, .resets, .startUp, .episodes]
  | .thermalSample _ => allBut [.pending, .now, .pairStore, .health, .options, .optStore]
  | .admitRequest _ _ _ => [.power]
  | .admitRelease _ _ => [.islands]
  | .admitTick => [.out, .islands, .power, .events, .msix, .sched, .plc, .radio, .arch]
  | .admitWaitExpire _ => [.out, .now, .power, .counts, .events, .msix, .balance, .time, .arch, .recorder]
  | .powerSet _ => [.out, .power, .rings, .descs, .dma, .events, .msix, .sched, .polls, .plc, .wired, .arch, .pair, .campaigns, .cntSat, .ethLinks]
  | .holdWakeAlarm => allBut [.pending, .pairStore, .health, .options, .optStore]
  | .idleAck _ => allBut [.pending, .free, .now, .dram, .resets, .startUp, .counts, .backup, .lagoon, .episodes, .coldFlags, .steer, .meters,
      .meterKeys, .stdRecs, .closes, .tariffLog, .valves, .balance, .indicators, .profiles, .quarantine, .pairStore, .fuses, .roots, .counter,
      .tamper, .blocks, .hostns, .options, .optStore]
  | .idleTmoExpire _ => allBut [.pending, .free, .dram, .resets, .startUp, .backup, .lagoon, .episodes, .coldFlags, .steer, .meters, .meterKeys,
      .stdRecs, .closes, .tariffLog, .valves, .indicators, .profiles, .quarantine, .pairStore, .fuses, .roots, .counter, .tamper, .blocks, .hostns,
      .options, .optStore]
  | .resetHoldEnd _ => [.now, .islands, .counts, .balance, .time, .recorder]
  | .pllLockHeld _ => allBut [.pending, .now, .resets, .startUp, .counts, .backup, .lagoon, .setup, .steer, .queues, .intake, .meters, .meterKeys,
      .valves, .indicators, .profiles, .quarantine, .radio, .pairStore, .fuses, .roots, .counter, .keyState, .tamper, .unlock, .keyStats, .blocks,
      .hostns, .flashStats, .recorder, .recCursor, .background, .boardRegs, .optStatus, .ethLinks, .dbgItem]
  | .pllLockFail _ => allBut [.pending, .free, .now, .sound, .dram, .resets, .startUp, .counts, .backup, .lagoon, .episodes, .coldFlags, .steer,
      .meters, .meterKeys, .stdRecs, .closes, .tariffLog, .valves, .balance, .indicators, .profiles, .quarantine, .pairStore, .fuses, .roots,
      .counter, .tamper, .blocks, .hostns, .images, .options, .optStore]
  | .lockRetryExpire _ => [.now, .islands, .counts, .balance, .time, .recorder]
  | .p1PowerSwitch => [.now, .islands, .power, .counts, .balance, .time, .recorder]
  | .phaseP0End => [.power, .startUp]
  | .phaseP1End => [.out, .islands, .startUp, .episodes, .rings, .descs, .dma, .events, .msix, .conv, .arch, .images, .health]
  | .phaseP2End => [.free, .out, .islands, .startUp, .episodes, .coldFlags, .link, .rings, .descs, .dma, .events, .msix, .sched, .intake, .conv,
      .tariff, .plc, .radio, .wired, .time, .arch, .pair, .pairStore, .counter, .tamper, .hostns, .images, .health, .cntSat, .optStatus, .options,
      .optStore]
  | .phaseP3End => [.free, .out, .islands, .startUp, .episodes, .rings, .descs, .dma, .events, .msix, .conv, .arch, .pairStore, .roots, .counter,
      .keyState, .tamper, .images, .health, .optStatus, .optStore]
  | .phaseP4End => [.free, .out, .islands, .startUp, .counts, .episodes, .coldFlags, .rings, .descs, .dma, .events, .msix, .conv, .journal, .arch,
      .blocks, .checkpoint, .hostns, .backlog, .flashStats, .images, .health, .recorder, .cntSat]
  | .phaseP5End => [.free, .out, .islands, .power, .startUp, .episodes, .rings, .descs, .dma, .events, .msix, .table, .sched, .queues, .conv,
      .meters, .meterKeys, .stdRecs, .custody, .closes, .tariffLog, .valves, .balance, .indicators, .polls, .profiles, .quarantine, .journal,
      .ledgerWork, .time, .arch, .checkpoint, .backlog, .images, .health, .cntSat, .options, .optStore]
  | .phaseP6End => [.free, .out, .islands, .power, .startUp, .episodes, .rings, .descs, .dma, .bufs, .events, .msix, .sched, .conv, .plc, .radio,
      .arch, .pair, .tamper, .backlog, .images, .health, .background]
  | .pcieLinkUp _ _ => [.out, .link, .rings, .descs, .dma, .bufs, .msix, .arch, .backlog]
  | .perstNAssert => [.startUp, .link, .setup, .rings, .descs, .dma, .steer, .bufs, .events, .msix, .backlog]
  | .perstNRelease => [.startUp, .link]
  | .lagoonRead _ => [.out, .rings, .descs, .dma, .arch]
  | .lagoonWrite _ => [.lagoon, .rings, .descs, .dma]
  | .registerWrite _ _ _ => allBut [.pending, .now, .pairStore, .health, .options, .optStore]
  | .setupDoneWrite => [.out, .setup, .events, .msix, .arch]
  | .sysResetWrite _ => allBut [.pending, .now, .pairStore, .health, .options, .optStore]
  | .islCtrlReset _ => [.out, .islands]
  | .resetCauseClear _ => [.resets]
  | .qctrlFlush _ => [.queues, .intake, .arch, .cntSat]
  | .ringEnable _ => [.out, .rings, .descs, .dma, .bufs, .events, .msix, .arch, .backlog]
  | .ringDisable _ => [.rings, .descs, .dma, .bufs, .backlog]
  | .ringStopDone _ => [.out, .rings, .descs, .dma, .bufs, .arch, .backlog]
  | .doorbellSqTail _ _ => [.out, .power, .rings, .descs, .dma, .bufs, .events, .msix, .sched, .arch, .backlog]
  | .doorbellCqHead _ _ => [.out, .power, .rings, .descs, .dma, .bufs, .events, .msix, .sched, .arch, .backlog]
  | .descriptorFetch => [.out, .rings, .descs, .dma, .arch]
  | .completionWrite _ _ => allBut [.pending, .free, .now, .resets, .counts, .backup, .lagoon, .episodes, .pairStore, .options, .optStore]
  | .coalTimeExpire _ => [.out, .now, .counts, .rings, .events, .msix, .balance, .time, .arch, .recorder]
  | .msixVectorUnmask _ => [.out, .msix]
  | .evtStatusClear _ _ => [.events]
  | .fenceZlrReturn _ => [.out, .rings, .descs, .dma, .arch]
  | .fenceZlrTimeout _ => [.out, .rings, .descs, .dma, .arch]
  | .nop _ => [.rings, .descs, .dma]
  | .deliverBuf _ => [.out, .rings, .descs, .dma, .bufs, .arch, .backlog]
  | .deliverFlushExpire _ => [.now, .counts, .rings, .descs, .dma, .bufs, .balance, .time, .backlog, .recorder]
  | .deliverConfirm _ => [.out, .rings, .descs, .dma, .pair, .backlog]
  | .steerSet _ => [.out, .rings, .descs, .dma, .steer, .bufs, .arch, .backlog]
  | .meterEnrol _ => [.out, .rings, .descs, .dma, .events, .msix, .table, .meters, .stdRecs, .journal, .arch, .pair, .checkpoint]
  | .meterRemove _ => [.free, .out, .rings, .descs, .dma, .table, .sched, .meters, .stdRecs, .journal, .pair, .keyState, .checkpoint, .health,
      .cntSat, .options, .optStore]
  | .meterQuery _ => [.out, .rings, .descs, .dma, .arch]
  | .routePin _ => [.out, .rings, .descs, .dma, .meters, .stdRecs, .journal, .pair, .checkpoint]
  | .profileSet _ => [.out, .rings, .descs, .dma, .custody, .journal, .pair, .checkpoint]
  | .prefixAdd _ => [.out, .rings, .descs, .dma, .custody, .journal, .pair, .checkpoint]
  | .prefixDel _ => [.out, .rings, .descs, .dma, .custody, .journal, .pair, .checkpoint]
  | .tableReseed _ => [.rings, .descs, .dma, .table]
  | .reseedShadowDone => [.rings, .descs, .dma, .table, .checkpoint]
  | .tableSweep => [.table, .meters, .plc, .radio, .health]
  | .tableRebuildDone => [.out, .events, .msix, .table, .sched, .arch, .cntSat]
  | .bucketReloadDone _ => [.dram, .table, .sched, .cntSat]
  | .ovfStoreReloadDone => [.table, .sched, .cntSat]
  | .schedSet _ => [.free, .rings, .descs, .dma, .sched, .health, .cntSat, .options, .optStore]
  | .schedStats _ => [.out, .rings, .descs, .dma, .sched, .arch, .cntSat]
  | .schedSatClear _ => [.sched]
  | .quarRead _ => [.out, .rings, .descs, .dma, .arch]
  | .quarRelease _ => [.out, .rings, .descs, .dma, .events, .msix, .table, .intake, .conv, .meters, .stdRecs, .custody, .closes, .valves, .balance,
      .indicators, .quarantine, .journal, .ledgerWork, .ledgerStats, .plc, .radio, .arch, .pair, .keyState, .keyStats, .checkpoint, .health, .cntSat]
  | .intakeStats _ => [.out, .rings, .descs, .dma, .intake, .arch, .cntSat]
  | .intakeSet _ => [.rings, .descs, .dma, .intake, .options, .optStore]
  | .virialSet _ => [.out, .rings, .descs, .dma, .journal, .pair, .checkpoint]
  | .convTest _ => [.out, .rings, .descs, .dma, .arch]
  | .convStats _ => [.out, .rings, .descs, .dma, .conv, .arch, .cntSat]
  | .katRun _ _ => [.free, .now, .counts, .sched, .conv, .balance, .time, .recorder, .cntSat]
  | .tariffCodeStable _ => [.out, .events, .msix, .stdRecs, .custody, .closes, .tariffLog, .balance, .journal, .tariff, .ledgerWork, .ledgerStats,
      .time, .arch, .pair, .checkpoint, .cntSat, .options, .optStore]
  | .tariffOverrideExpire => [.out, .now, .counts, .events, .msix, .stdRecs, .custody, .closes, .tariffLog, .balance, .journal, .tariff,
      .ledgerWork, .ledgerStats, .time, .arch, .pair, .checkpoint, .recorder, .cntSat, .options, .optStore]
  | .calendarCross _ => [.out, .now, .counts, .events, .msix, .stdRecs, .custody, .closes, .balance, .journal, .ledgerWork, .ledgerStats, .time,
      .arch, .pair, .checkpoint, .recorder, .cntSat, .options, .optStore]
  | .billingSweep _ => [.out, .events, .msix, .stdRecs, .custody, .closes, .journal, .ledgerWork, .ledgerStats, .arch, .pair, .checkpoint, .cntSat]
  | .tariffMapSet _ => [.rings, .descs, .dma, .tariff, .options, .optStore]
  | .tariffOverride _ => [.out, .rings, .descs, .dma, .events, .msix, .stdRecs, .custody, .closes, .tariffLog, .balance, .journal, .tariff,
      .ledgerWork, .ledgerStats, .time, .arch, .pair, .checkpoint, .cntSat, .options, .optStore]
  | .tariffFollow _ => [.out, .rings, .descs, .dma, .events, .msix, .stdRecs, .custody, .closes, .tariffLog, .balance, .journal, .tariff,
      .ledgerWork, .ledgerStats, .time, .arch, .pair, .checkpoint, .cntSat, .options, .optStore]
  | .billCalSet _ => [.rings, .descs, .dma, .options, .optStore]
  | .custodySet _ => [.out, .rings, .descs, .dma, .stdRecs, .custody, .journal, .ledgerStats, .pair, .checkpoint, .cntSat, .options, .optStore]
  | .ledgerRead _ => [.out, .rings, .descs, .dma, .arch]
  | .profileRead _ => [.out, .rings, .descs, .dma, .arch]
  | .auditRead _ => [.out, .rings, .descs, .dma, .arch]
  | .ledgerSet _ => [.rings, .descs, .dma, .options, .optStore]
  | .ledgerStats _ => [.out, .rings, .descs, .dma, .ledgerStats, .arch, .cntSat]
  | .friendlyEnd => [.out, .now, .counts, .table, .meters, .stdRecs, .valves, .balance, .journal, .ledgerStats, .plc, .radio, .time, .pair,
      .keyState, .keyStats, .checkpoint, .recorder, .cntSat]
  | .valveRetry _ => [.out, .now, .counts, .table, .meters, .stdRecs, .valves, .balance, .journal, .ledgerStats, .plc, .radio, .time, .pair,
      .keyState, .keyStats, .checkpoint, .recorder, .cntSat]
  | .prepaySet _ => [.free, .out, .rings, .descs, .dma, .sched, .stdRecs, .valves, .journal, .ledgerStats, .pair, .checkpoint, .health, .cntSat]
  | .topup _ => [.free, .out, .rings, .descs, .dma, .table, .sched, .meters, .stdRecs, .valves, .journal, .ledgerStats, .plc, .radio, .pair,
      .keyState, .keyStats, .checkpoint, .health, .cntSat]
  | .valveCmd _ => [.free, .out, .rings, .descs, .dma, .table, .sched, .meters, .stdRecs, .valves, .journal, .ledgerStats, .plc, .radio, .pair,
      .keyState, .keyStats, .checkpoint, .health, .cntSat]
  | .friendlySet _ => [.rings, .descs, .dma, .options, .optStore]
  | .prepayRead _ => [.free, .rings, .descs, .dma, .sched, .health, .cntSat]
  | .prepayLogRead _ => [.out, .rings, .descs, .dma, .arch]
  | .prepayStats _ => [.out, .rings, .descs, .dma, .ledgerStats, .arch, .cntSat]
  | .nodeSet _ => [.free, .out, .rings, .descs, .dma, .sched, .balance, .journal, .pair, .checkpoint, .health, .cntSat]
  | .nodeMember _ => [.free, .out, .rings, .descs, .dma, .sched, .balance, .journal, .pair, .checkpoint, .health, .cntSat]
  | .nodeRead _ => [.free, .out, .rings, .descs, .dma, .sched, .arch, .health, .cntSat]
  | .nodeRelearn _ => [.free, .out, .rings, .descs, .dma, .sched, .balance, .journal, .pair, .checkpoint, .health, .cntSat]
  | .balReportRead _ => [.out, .rings, .descs, .dma, .arch]
  | .indicatorRead _ => [.out, .rings, .descs, .dma, .arch]
  | .indicatorClear _ => [.free, .out, .rings, .descs, .dma, .sched, .balance, .indicators, .journal, .pair, .checkpoint, .health, .cntSat]
  | .balStats _ => [.out, .rings, .descs, .dma, .ledgerStats, .arch, .cntSat]
  | .beaconPeriodStart _ _ => [.free, .out, .now, .islands, .power, .counts, .events, .msix, .sched, .balance, .plc, .radio, .time, .arch,
      .campaigns, .health, .recorder, .cntSat]
  | .plcFrameRx _ => [.free, .out, .islands, .power, .events, .msix, .sched, .queues, .intake, .plc, .radio, .arch, .pair, .health, .cntSat]
  | .plcDownlinkTx _ => [.free, .out, .now, .islands, .power, .counts, .events, .msix, .sched, .balance, .plc, .radio, .time, .arch, .recorder,
      .cntSat]
  | .loadClassMeasure _ _ _ _ _ => [.plc, .cntSat]
  | .toneMapSend _ => [.free, .plc]
  | .pbHoldExpire _ _ => [.now, .counts, .balance, .plc, .time, .recorder]
  | .plcSet _ => [.rings, .descs, .dma, .options, .optStore]
  | .plcStationRead _ => [.out, .rings, .descs, .dma, .arch]
  | .plcTonemapReset _ => [.rings, .descs, .dma, .plc]
  | .plcStats _ => [.out, .rings, .descs, .dma, .plc, .arch, .cntSat]
  | .radioSlotStart _ => [.out, .now, .islands, .power, .counts, .events, .msix, .sched, .balance, .plc, .radio, .time, .arch, .campaigns, .health,
      .recorder, .cntSat]
  | .radioFrameRx _ => [.out, .islands, .power, .events, .msix, .sched, .queues, .intake, .plc, .radio, .arch, .pair, .cntSat]
  | .childSilent _ => [.out, .now, .counts, .events, .msix, .balance, .radio, .time, .arch, .recorder]
  | .radioSet _ => [.rings, .descs, .dma, .options, .optStore]
  | .radioProfileSet _ => [.rings, .descs, .dma, .options, .optStore]
  | .radioChildRead _ => [.out, .rings, .descs, .dma, .arch]
  | .radioStats _ => [.out, .rings, .descs, .dma, .radio, .arch, .cntSat]
  | .wiredPollDue _ _ => [.out, .events, .msix, .queues, .intake, .polls, .wired, .arch, .cntSat]
  | .wiredResponse _ _ => [.out, .events, .msix, .queues, .intake, .polls, .wired, .arch, .keyState, .keyStats, .cntSat]
  | .wiredRespTimeout _ => [.out, .events, .msix, .queues, .intake, .polls, .wired, .arch, .cntSat]
  | .wiredSet _ => [.rings, .descs, .dma, .wired, .options, .optStore]
  | .wiredPollSet _ => [.rings, .descs, .dma, .polls, .wired, .options, .optStore]
  | .wiredPollRead _ => [.out, .rings, .descs, .dma, .arch]
  | .wiredStats _ => [.out, .rings, .descs, .dma, .wired, .arch, .cntSat]
  | .rtcSetTick => [.time]
  | .ptpMessageRx _ _ => [.free, .out, .coldFlags, .events, .msix, .sched, .time, .arch, .cntSat]
  | .ptpTxDue _ _ => [.out, .time, .cntSat]
  | .ptpSourceLost => [.out, .now, .counts, .events, .msix, .balance, .time, .arch, .recorder, .cntSat]
  | .ppsEdge => [.free, .out, .coldFlags, .events, .msix, .sched, .time, .arch, .cntSat]
  | .ppsSourceLost => [.out, .now, .counts, .events, .msix, .balance, .time, .arch, .recorder, .cntSat]
  | .clockStepItem => [.free, .out, .rings, .descs, .dma, .events, .msix, .sched, .custody, .indicators, .journal, .time, .arch, .pair,
      .checkpoint, .health, .cntSat]
  | .leapSecond => [.now, .counts, .balance, .time, .recorder, .options, .optStore]
  | .clockValidChange => [.out, .events, .msix, .table, .meters, .stdRecs, .custody, .closes, .valves, .balance, .journal, .ledgerWork,
      .ledgerStats, .plc, .radio, .time, .arch, .pair, .keyState, .keyStats, .checkpoint, .cntSat, .options, .optStore]
  | .timeCheckDue _ => [.now, .counts, .meters, .balance, .plc, .time, .keyState, .keyStats, .recorder, .cntSat]
  | .tpulseInstant _ => [.out, .now, .counts, .balance, .time, .recorder, .cntSat]
  | .timeCfg _ => [.rings, .descs, .dma, .time, .cntSat, .options, .optStore]
  | .timeSet _ => [.free, .rings, .descs, .dma, .sched, .time, .cntSat]
  | .timeZoneSet _ => [.out, .rings, .descs, .dma, .events, .msix, .stdRecs, .custody, .balance, .journal, .ledgerStats, .time, .arch, .pair,
      .checkpoint, .cntSat, .options, .optStore]
  | .tpulseSet _ => [.rings, .descs, .dma, .time, .options, .optStore]
  | .timeRead _ => [.out, .rings, .descs, .dma, .arch]
  | .timeStats _ => [.out, .rings, .descs, .dma, .time, .arch, .cntSat]
  | .timeNowNsRead => [.time]
  | .helloRx _ => [.free, .out, .arch, .pair]
  | .helloReplyRx _ => [.free, .out, .rings, .descs, .dma, .bufs, .events, .msix, .table, .meters, .meterKeys, .stdRecs, .custody, .closes,
      .tariffLog, .valves, .balance, .indicators, .polls, .profiles, .quarantine, .journal, .tariff, .ledgerWork, .ledgerStats, .plc, .radio,
      .wired, .time, .arch, .pair, .keyState, .keyStats, .checkpoint, .backlog, .campaigns, .cntSat, .options, .optStore]
  | .confirmRx _ _ _ _ => [.free, .out, .rings, .descs, .dma, .bufs, .events, .msix, .table, .meters, .meterKeys, .stdRecs, .custody, .closes,
      .tariffLog, .valves, .balance, .indicators, .polls, .profiles, .quarantine, .journal, .tariff, .ledgerWork, .ledgerStats, .plc, .radio,
      .wired, .time, .arch, .pair, .keyState, .keyStats, .checkpoint, .backlog, .campaigns, .cntSat, .options, .optStore]
  | .urrResetRx _ => [.free, .out, .arch, .pair]
  | .urrDatagramRx _ => allBut [.pending, .now, .pairStore, .health]
  | .urrHandshakeTimeout _ => [.now, .counts, .balance, .time, .arch, .pair, .recorder]
  | .urrRekey _ => [.free, .out, .now, .counts, .balance, .time, .arch, .pair, .recorder]
  | .urrKeepaliveDue _ => [.free, .out, .now, .counts, .balance, .time, .arch, .pair, .recorder]
  | .urrSessionDead _ => [.out, .now, .counts, .events, .msix, .balance, .time, .arch, .recorder]
  | .urrResend _ _ => [.out, .now, .counts, .balance, .time, .arch, .recorder, .cntSat]
  | .urrGiveUp _ _ => [.free, .out, .now, .eccCounts, .counts, .rings, .descs, .dma, .bufs, .events, .msix, .sched, .intake, .conv, .balance,
      .ledgerStats, .plc, .radio, .wired, .time, .arch, .pair, .unlock, .keyStats, .backlog, .flashStats, .images, .recorder, .cntSat, .background]
  | .urrJoinRetry => [.free, .out, .now, .counts, .balance, .time, .arch, .pair, .recorder]
  | .forwardSend _ => [.out, .arch, .cntSat]
  | .fwdWaitExpire _ _ => [.out, .now, .counts, .balance, .time, .arch, .recorder, .cntSat]
  | .fwdBusyExpire _ _ => [.out, .now, .counts, .balance, .time, .arch, .recorder, .cntSat]
  | .memWriteZlrDone _ _ => [.out, .arch]
  | .timeBroadcastDue => [.out, .now, .counts, .balance, .time, .arch, .recorder]
  | .tariffBroadcastDue => [.out, .now, .counts, .balance, .time, .arch, .recorder]
  | .bcastHoldLapse => [.out, .now, .counts, .events, .msix, .stdRecs, .custody, .closes, .tariffLog, .balance, .journal, .tariff, .ledgerWork,
      .ledgerStats, .time, .arch, .pair, .checkpoint, .recorder, .cntSat, .options, .optStore]
  | .archSet _ => [.rings, .descs, .dma, .options, .optStore]
  | .archDirSet _ => [.out, .rings, .descs, .dma, .arch]
  | .archPeers _ => [.out, .rings, .descs, .dma, .arch]
  | .rhostSet _ => [.rings, .descs, .dma, .arch]
  | .remoteReg _ => [.out, .rings, .descs, .dma, .arch]
  | .archLeave _ => [.out, .eccCounts, .rings, .descs, .dma, .bufs, .events, .msix, .sched, .intake, .conv, .ledgerStats, .plc, .radio, .wired,
      .time, .arch, .pair, .unlock, .keyStats, .backlog, .flashStats, .images, .cntSat, .background]
  | .archStats _ => [.out, .rings, .descs, .dma, .arch, .cntSat]
  | .isthmusTrained => [.free, .out, .arch, .pair]
  | .isthmusDown _ => [.out, .events, .msix, .polls, .plc, .wired, .arch, .pair, .campaigns, .cntSat]
  | .renewSend => [.out, .now, .counts, .balance, .time, .pair, .recorder, .cntSat]
  | .renewRx _ _ _ _ => [.free, .out, .events, .msix, .table, .meters, .meterKeys, .stdRecs, .custody, .closes, .tariffLog, .valves, .balance,
      .indicators, .polls, .profiles, .quarantine, .journal, .ledgerWork, .arch, .pair, .checkpoint, .backlog, .cntSat]
  | .renewAckRx _ _ => [.out, .events, .msix, .polls, .plc, .wired, .arch, .pair, .campaigns, .cntSat]
  | .leaseExpire => [.out, .now, .counts, .events, .msix, .balance, .polls, .plc, .wired, .time, .arch, .pair, .campaigns, .recorder, .cntSat]
  | .takeoverTimerExpire => [.free, .out, .now, .counts, .rings, .descs, .dma, .bufs, .events, .msix, .table, .meters, .stdRecs, .custody, .closes,
      .tariffLog, .valves, .balance, .polls, .journal, .tariff, .ledgerWork, .ledgerStats, .plc, .radio, .wired, .time, .arch, .pair, .keyState,
      .keyStats, .checkpoint, .backlog, .campaigns, .recorder, .cntSat, .options, .optStore]
  | .leaseRxChange _ => [.free, .out, .rings, .descs, .dma, .bufs, .events, .msix, .table, .meters, .stdRecs, .custody, .closes, .tariffLog,
      .valves, .balance, .polls, .journal, .tariff, .ledgerWork, .ledgerStats, .plc, .radio, .wired, .time, .arch, .pair, .keyState, .keyStats,
      .checkpoint, .backlog, .campaigns, .cntSat, .options, .optStore]
  | .releaseRx _ => [.free, .out, .rings, .descs, .dma, .bufs, .events, .msix, .table, .meters, .stdRecs, .custody, .closes, .tariffLog, .valves,
      .balance, .polls, .journal, .tariff, .ledgerWork, .ledgerStats, .plc, .radio, .wired, .time, .arch, .pair, .keyState, .keyStats, .checkpoint,
      .backlog, .campaigns, .cntSat, .options, .optStore]
  | .journalRx _ => [.out, .events, .msix, .table, .meters, .meterKeys, .stdRecs, .custody, .closes, .tariffLog, .valves, .balance, .indicators,
      .polls, .profiles, .quarantine, .journal, .ledgerWork, .arch, .pair, .checkpoint]
  | .journalAckRx _ => [.free, .out, .rings, .descs, .dma, .bufs, .events, .msix, .table, .meters, .meterKeys, .stdRecs, .custody, .closes,
      .valves, .balance, .indicators, .polls, .quarantine, .journal, .ledgerWork, .plc, .radio, .arch, .pair, .keyState, .keyStats, .backlog,
      .cntSat, .options, .optStore]
  | .mirrorTmoExpire => [.free, .out, .now, .counts, .rings, .descs, .dma, .bufs, .events, .msix, .table, .meters, .meterKeys, .stdRecs, .custody,
      .closes, .valves, .balance, .indicators, .polls, .quarantine, .journal, .ledgerWork, .plc, .radio, .time, .arch, .pair, .keyState, .keyStats,
      .checkpoint, .backlog, .recorder, .cntSat, .options, .optStore]
  | .confirmedRx _ => [.pair, .backlog]
  | .catchupReqRx _ => [.out, .pair]
  | .pairSet _ => [.rings, .descs, .dma, .pairStore]
  | .pairSwitch _ => [.out, .rings, .descs, .dma, .events, .msix, .polls, .plc, .wired, .arch, .pair, .campaigns, .cntSat]
  | .pairForce _ => [.free, .out, .rings, .descs, .dma, .bufs, .events, .msix, .table, .meters, .stdRecs, .custody, .closes, .tariffLog, .valves,
      .balance, .polls, .journal, .tariff, .ledgerWork, .ledgerStats, .plc, .radio, .wired, .time, .arch, .pair, .keyState, .keyStats, .checkpoint,
      .backlog, .campaigns, .cntSat, .options, .optStore]
  | .pairHealthRead _ => [.out, .rings, .descs, .dma, .events, .msix, .arch, .pair]
  | .pairStats _ => [.out, .rings, .descs, .dma, .arch, .pair, .cntSat]
  | .keyUpdate _ => [.free, .out, .rings, .descs, .dma, .table, .meters, .meterKeys, .journal, .pair, .pairStore, .roots, .counter, .keyState,
      .tamper, .keyStats, .checkpoint, .cntSat, .options, .optStore]
  | .keyEntryApply _ _ => [.free, .out, .rings, .descs, .dma, .table, .sched, .meters, .meterKeys, .stdRecs, .valves, .polls, .journal,
      .ledgerStats, .plc, .radio, .arch, .pair, .keyState, .keyStats, .checkpoint, .health, .cntSat]
  | .tamperSourceActive _ _ => allBut [.pending, .now, .pairStore, .health, .options, .optStore]
  | .killSequenceDone => allBut [.pending, .now, .pairStore, .health, .options, .optStore]
  | .keyStatusRead _ => [.out, .rings, .descs, .dma, .arch]
  | .deviceKeyRead _ => [.out, .rings, .descs, .dma, .arch]
  | .tamperClear _ => [.out, .rings, .descs, .dma, .events, .msix, .arch, .tamper]
  | .tamperLatchW1c _ => [.out, .events, .msix, .arch, .tamper]
  | .debugChallenge _ => [.free, .out, .rings, .descs, .dma, .arch, .unlock]
  | .debugUnlock _ => [.out, .rings, .descs, .dma, .events, .msix, .arch, .unlock, .keyStats, .cntSat]
  | .debugLock _ => [.rings, .descs, .dma, .unlock]
  | .keyStats _ => [.out, .rings, .descs, .dma, .arch, .keyStats, .cntSat]
  | .challengeExpire => [.now, .counts, .balance, .time, .unlock, .recorder]
  | .jtagDbgChal => [.free, .out, .unlock]
  | .jtagDbgResp _ _ => [.out, .events, .msix, .arch, .unlock, .keyStats, .cntSat]
  | .jtagScan => [.unlock]
  | .jtagBypass _ => [.unlock]
  | .checkpointStart => [.now, .counts, .balance, .quarantine, .time, .checkpoint, .recorder]
  | .checkpointDone => [.rings, .descs, .dma, .journal, .blocks, .checkpoint, .flashStats, .health, .cntSat]
  | .flashPageProgram _ => [.rings, .descs, .dma, .blocks, .checkpoint, .hostns]
  | .collection _ => [.blocks, .flashStats, .cntSat]
  | .programFail _ _ => [.out, .events, .msix, .polls, .plc, .wired, .arch, .pair, .blocks, .flashStats, .campaigns, .cntSat]
  | .eraseFail _ _ => [.out, .events, .msix, .polls, .plc, .wired, .arch, .pair, .blocks, .flashStats, .campaigns, .cntSat]
  | .dieFail _ => [.out, .events, .msix, .polls, .plc, .wired, .arch, .pair, .blocks, .campaigns, .cntSat]
  | .nandTempSample _ => [.flashStats]
  | .poolReclaim => [.backlog, .flashStats, .cntSat]
  | .hostnsSet _ => [.rings, .descs, .dma, .blocks, .hostns, .options, .optStore]
  | .hostnsRead _ _ => [.out, .rings, .descs, .dma, .events, .msix, .arch, .blocks, .flashStats, .cntSat]
  | .hostnsWrite _ => [.rings, .descs, .dma, .blocks, .hostns, .flashStats, .cntSat]
  | .hostnsDiscard _ => [.rings, .descs, .dma, .blocks, .hostns]
  | .flashHealthRead _ => [.out, .rings, .descs, .dma, .arch]
  | .flashCheckpoint _ => [.rings, .descs, .dma, .quarantine, .checkpoint]
  | .flashStats _ => [.out, .rings, .descs, .dma, .arch, .flashStats, .cntSat]
  | .imageBegin _ => [.rings, .descs, .dma, .images]
  | .imageData _ => [.rings, .descs, .dma, .images]
  | .imageEnd _ => [.rings, .descs, .dma, .counter, .images]
  | .imageActivate _ => [.out, .islands, .power, .startUp, .episodes, .rings, .descs, .dma, .sched, .intake, .conv, .tariff, .wired, .time, .arch,
      .pairStore, .counter, .tamper, .hostns, .images, .cntSat, .options, .optStore]
  | .activationGroupDone => [.out, .islands, .power, .episodes, .rings, .descs, .dma, .events, .msix, .sched, .conv, .custody, .journal,
      .ledgerWork, .arch, .pair, .checkpoint, .images, .health]
  | .imageRevert _ => [.out, .islands, .episodes, .rings, .descs, .dma, .events, .msix, .conv, .arch, .images]
  | .imageStatusRead _ => [.out, .rings, .descs, .dma, .arch]
  | .trialWindowEnd _ => [.out, .now, .islands, .counts, .episodes, .rings, .descs, .dma, .events, .msix, .conv, .balance, .time, .arch, .images,
      .recorder]
  | .imageConfirm _ => [.out, .episodes, .events, .msix, .arch, .counter, .images, .options, .optStore]
  | .campaignStart _ => [.free, .rings, .descs, .dma, .table, .meters, .plc, .radio, .keyState, .keyStats, .campaigns, .cntSat]
  | .campaignQueryRound _ => [.table, .meters, .plc, .radio, .keyState, .keyStats, .campaigns, .cntSat]
  | .campaignStatus _ => [.out, .rings, .descs, .dma, .arch]
  | .campaignCancel _ => [.rings, .descs, .dma, .campaigns]
  | .stageForward _ => [.out, .rings, .descs, .dma, .arch, .images]
  | .stageFree _ => [.rings, .descs, .dma, .images]
  | .recorderSample _ _ => [.out, .events, .msix, .ledgerWork, .arch, .recorder, .cntSat, .eccLog]
  | .recorderFlushDue => [.now, .counts, .balance, .time, .health, .recorder, .background]
  | .recorderThawDue => [.out, .now, .counts, .events, .msix, .balance, .time, .arch, .health, .recorder, .cntSat, .background]
  | .recCursorWrite _ => [.recCursor]
  | .recWindowLoaded => [.recCursor]
  | .recWindowAutoInc => [.recCursor]
  | .recStatusClear _ => [.recorder]
  | .cntSatClear _ => [.cntSat]
  | .bgActivityDispatch _ => [.free, .sched, .cntSat, .background]
  | .bgPeriodEnd _ => [.now, .counts, .balance, .time, .recorder, .background]
  | .dramRetrain => [.coldFlags, .background]
  | .recorderRead _ => [.out, .rings, .descs, .dma, .arch]
  | .recorderFreeze _ => [.rings, .descs, .dma, .recorder]
  | .recorderThaw _ => [.out, .rings, .descs, .dma, .events, .msix, .arch, .health, .recorder, .cntSat, .background]
  | .recorderFlush _ => [.rings, .descs, .dma, .health, .recorder, .background]
  | .recorderExtReset _ => [.rings, .descs, .dma, .recorder]
  | .eccLogRead _ => [.out, .rings, .descs, .dma, .arch]
  | .eccStats _ => [.out, .eccCounts, .rings, .descs, .dma, .arch, .cntSat]
  | .eccSet _ => [.eccCounts, .rings, .descs, .dma]
  | .bgStats _ => [.out, .rings, .descs, .dma, .arch, .background]
  | .slewCtrlWrite _ => [.boardRegs]
  | .dbgItem0Read => [.dbgItem]
  | .pllLockLost _ => [.free, .out, .now, .islands, .counts, .balance, .time, .recorder]
  | .ethLinkChange _ _ _ _ => [.ethLinks]
  | .pcieLinkDown _ => [.link]
  | .mainsZeroCrossing _ => [.plc]
  | .plcSackTimeout _ => [.plc, .cntSat]
  | .radioPartnerFrameRx _ => [.radio, .pair]
  | .catchupCheckpointRx _ _ _ _ => [.out, .events, .msix, .table, .meters, .meterKeys, .stdRecs, .custody, .closes, .tariffLog, .valves, .balance,
      .indicators, .polls, .profiles, .quarantine, .journal, .ledgerWork, .arch, .pair, .checkpoint]
  | .hostDmaCompletion _ _ => [.out, .eccCounts, .link, .rings, .descs, .dma, .bufs, .events, .msix, .sched, .intake, .conv, .ledgerStats, .plc,
      .radio, .wired, .time, .arch, .pair, .unlock, .keyStats, .backlog, .flashStats, .cntSat, .background]

end Sys2Proof.Machine
end

