-- ==== Sys2Proof/Certificates/Slice0/Obligations.lean ====
section
/-! DEFINITION. The statements for the provers: the block as a whole, the rules that single out a command, what every command may change (the
frames), and what each command completes with. A statement about a next state holds for every value of the model's free constants. -/

open Sys2Proof Sys2Proof.Machine

/-! ### The block as a whole -/

/-- A step takes the command at the front of the queue and executes it with the rest of the queue. -/
def Obligations.StepRunsFront : Prop :=
  ∀ (c : Instr) (rest : List Instr) (s : State), s.pending = c :: rest → step s = exec c { s with pending := rest }

/-- With no command waiting, a step lets 8 ns pass (the model's choice, log 1): the queue stays empty, and what follows from the passing of
time alone changes: the time line, the operating seconds, the balance intervals, the clocks, and the counts of the recorder. -/
def Obligations.StepWithoutCommand : Prop :=
  ∀ s : State, s.pending = [] →
    ∃ t, step s = .next t ∧ t.now = s.now + 8 ∧ t.pending = [] ∧ OnlyParts [.now, .counts, .balance, .time, .recorder] s t

/-- Every command answers a next state, in every state, but an access beyond DRAM's 2 GiB (R37): that stops with a fault of its own. -/
def Obligations.CommandsComplete : Prop :=
  ∀ (c : Instr) (s : State),
    (∃ t, exec c s = .next t) ∨
      (∃ x, c = .soundRequest x ∧ (∃ r ∈ x.reqs, 2 ^ 31 ≤ r.addr) ∧ exec c s = .fault .dramAddress)

/-- The values that the spec gives for a reset of reach HOLM_COLD: no event bit set and each route at its own vector (R126), every MSI-X vector
masked (R127), every ring pair Disabled with both ring sizes 2^6 (R107), ADMIT_CAP 140 (R66), the budget 10 with borrowing and READING_PRIO 4 (R154, R160), the
default weights of the sound's ports (R19), the error limit 1,024 (R474), BKP_n zero (R96), four Fresh root slots. The queue is empty. -/
def Obligations.ResetValues : Prop :=
  State.reset.pending = [] ∧ State.reset.host.evt = 0 ∧ State.reset.host.evtVector = List.range 64 ∧ State.reset.host.evtEnable = 0 ∧
  State.reset.host.msixMask = BitVec.allOnes 64 ∧ State.reset.host.rings.length = 32 ∧
  (∀ r ∈ State.reset.host.rings, r.state = .disabled ∧ r.enable = false ∧ r.sqLog = 6 ∧ r.cqLog = 6 ∧ r.base = 0 ∧ r.prio = 3 ∧ r.coalCount = 1) ∧
  State.reset.pw.cap = 140 ∧ State.reset.sch.set = { budget := 10, borrow := true, readingPrio := 4 } ∧
  (∀ p, p < 16 → State.reset.fab.weights.getD p 0 = if 2 ≤ p ∧ p ≤ 11 then 4 else 2) ∧
  (∀ n, n < 14 → State.reset.fab.eccLimit.getD n 0 = 1024) ∧
  (∀ k, k < 8 → State.reset.rs.bkp.getD k 1 = 0) ∧ State.reset.keys.slots = List.replicate 4 RootSlot.fresh ∧ State.reset.keys.hwm = 0

/-- The invariant of the model holds after reset. -/
def Obligations.InvariantAtReset : Prop := State.reset.Inv

/-- Every step keeps the invariant: both memories stay in canonical form, the fixed numbers of islands, ring pairs, backup registers and root
slots stay, every root slot stays Fresh, Live or Dead (R409), HWM stays within its 1,024 bits, and the operating seconds within 40. -/
def Obligations.StepKeepsInvariant : Prop := ∀ s t : State, s.Inv → step s = .next t → t.Inv

/-- The one-time bits (R409, R416): no step clears a bit of a root slot once it is 1, VALID and DEAD included, so that a Dead slot stays Dead and
a Live slot keeps its secret's ones; HWM never falls; UNIT_ID and the image key are never written. -/
def Obligations.OneTimeBitsOnlySet : Prop :=
  ∀ s t : State, s.Inv → step s = .next t →
    (∀ n, n < 4 → (s.keys.slots.getD n RootSlot.fresh).BlownTo (t.keys.slots.getD n RootSlot.fresh)) ∧
    (∀ n, n < 4 → s.keys.slots.getD n RootSlot.fresh = RootSlot.gone → t.keys.slots.getD n RootSlot.fresh = RootSlot.gone) ∧
    s.keys.hwm ≤ t.keys.hwm ∧ t.keys.unitId = s.keys.unitId ∧ t.keys.imageKey = s.keys.imageKey

/-- The time line of the model (log 1) never goes back, whatever a step does. -/
def Obligations.TimeNeverGoesBack : Prop := ∀ s t : State, step s = .next t → s.now ≤ t.now

/-- R96: eight registers of 32 bits at HOLM offsets 0x0040 + 4 × n, zero after reset, which the host writes and reads back; a reset of reach
HOLM_COLD zeroes them, and nothing else in the module writes them. A host writes by a register access, at its own link or through a hub (R383). -/
def Obligations.BackupRegisters : Prop :=
  State.reset.rs.bkp = List.replicate 8 0 ∧
  (∀ (k : Nat) (v : BitVec 32) (s : State), k < 8 → s.rs.bkp.length = 8 → regOpen s 0 = true →
    ∃ t, exec (.registerWrite 0 (0x40 + 4 * k) ⟨4, v.setWidth 64⟩) s = .next t ∧ t.rs.bkp = setAt s.rs.bkp k v ∧
      readReg t 0 (0x40 + 4 * k) = some v.toNat ∧
      (∀ j, j < 8 → j ≠ k → readReg t 0 (0x40 + 4 * j) = some (s.rs.bkp.getD j 0).toNat)) ∧
  (∀ (vin : Nat) (s : State), isUp s 0 = false →
    ∃ t, exec (.holmPowerOn vin) s = .next t ∧ t.rs.bkp = List.replicate 8 0) ∧
  (∀ s : State, ∃ t, exec .holmWdtExpire s = .next t ∧ (isUp s 0 = true → t.rs.bkp = List.replicate 8 0)) ∧
  (∀ (src : RstSrc) (s : State), srcReach src ≠ 0 → (assertSource src s).rs.bkp = s.rs.bkp) ∧
  (∀ (c : Instr) (s t : State), exec c s = .next t →
    t.rs.bkp = s.rs.bkp ∨ t.rs.bkp = List.replicate 8 0 ∨
      (∃ off v, c = .registerWrite 0 off v ∧ ∃ k, t.rs.bkp = setAt s.rs.bkp k (v.value.setWidth 32)) ∨ (∃ d, c = .urrDatagramRx d))

/-! ### Commands that the rules single out -/

/-- R21: a SOUND_REQUEST writes whole 16-byte units and no other byte, and a read beside writes gives a unit as it was or as a write leaves it. -/
def Obligations.DramUnitsWhole : Prop :=
  ∀ (rs : List SoundReq) (ws : List (Nat × Nat)) (s : State), isUp s 3 = true → memWf s.fab.dram = true → s.fab.soundWait = [] →
    (∀ r ∈ rs, r.addr % 16 = 0 ∧ r.addr < 2 ^ 31 ∧ r.err = .none ∧ r.carry = .none) →
    ∃ t, exec (.soundRequest ⟨rs, ws⟩) s = .next t ∧ memWf t.fab.dram = true ∧
      (∀ u, u % 16 = 0 →
        unitRead t.fab.dram u = unitRead s.fab.dram u ∨ ∃ r ∈ rs, r.write = true ∧ r.addr = u ∧ unitRead t.fab.dram u = r.data) ∧
      (∀ a, (∀ r ∈ rs, r.write = true → ¬(r.addr ≤ a ∧ a < r.addr + 16)) → memRead t.fab.dram a = memRead s.fab.dram a) ∧
      (∀ p u v, (p, u, some v) ∈ t.fab.answers → v = unitRead s.fab.dram u ∨ ∃ r ∈ rs, r.write = true ∧ r.addr = u ∧ v = r.data)

/-- R12: METER_ENROL of either reserved identity is refused with BAD_PARAM and DETAIL 16, and no table entry changes. -/
def Obligations.ReservedIdentities : Prop :=
  ∀ (d : Nat) (s : State) (x : Desc), Ready 0x10 d s x → u64 x.bytes 16 = 0 ∨ u64 x.bytes 16 = 2 ^ 64 - 1 →
    ∃ t, exec (.meterEnrol d) s = .next t ∧ Done d 2 16 [] t ∧ OnlyParts [.rings, .descs, .dma] s t

/-- R166: SCHED_SET takes BUDGET, BORROW and READING_PRIO; a BUDGET outside 1 to 50 or a reserved byte completes BAD_PARAM and sets nothing; the
values apply from the next 100 ms window, and are kept in the option store, which a reset of any reach leaves. -/
def Obligations.SchedulerParameters : Prop :=
  (∀ (d : Nat) (s : State) (x : Desc), Ready 0x4C d s x → InTurn s x → 1 ≤ u8 x.bytes 16 → u8 x.bytes 16 ≤ 50 →
    ∃ t, exec (.schedSet d) s = .next t ∧ Done d 0 0 [] t ∧ t.sch.set = s.sch.set ∧
      t.sch.nextSet = some { budget := u8 x.bytes 16, borrow := bit (u8 x.bytes 17) 0, readingPrio := u8 x.bytes 18 % 8 } ∧
      t.opt.sched = { budget := u8 x.bytes 16, borrow := bit (u8 x.bytes 17) 0, readingPrio := u8 x.bytes 18 % 8 } ∧
      t.optStore.selected.map (fun p => p.body.sched) = some t.opt.sched) ∧
  (∀ (d : Nat) (s : State) (x : Desc), Ready 0x4C d s x → ¬(1 ≤ u8 x.bytes 16 ∧ u8 x.bytes 16 ≤ 50) →
    ∃ t, exec (.schedSet d) s = .next t ∧ Done d 2 16 [] t ∧ t.sch = s.sch ∧ t.opt = s.opt ∧ t.optStore = s.optStore) ∧
  (∀ (d : Nat) (s : State) (x : Desc), descOf s d = some x → x.stage = .started → opcodeOf x = 0x4C → x.orphan = false → isUp s 10 = true →
    ((∃ k, 19 ≤ k ∧ k < 64 ∧ u8 x.bytes k ≠ 0) ∨ 2 ≤ u8 x.bytes 17 ∨ 8 ≤ u8 x.bytes 18) →
    ∃ t o, exec (.schedSet d) s = .next t ∧ Done d 2 o [] t ∧ t.sch = s.sch ∧ t.opt = s.opt ∧ t.optStore = s.optStore) ∧
  (∀ s : State, isUp s 9 = true →
    ∃ t, exec .budgetWindow s = .next t ∧ t.sch.set = s.sch.nextSet.getD s.sch.set ∧ t.sch.nextSet = none) ∧
  (∀ (src : RstSrc) (s : State), (assertSource src s).opt = s.opt ∧ (assertSource src s).optStore = s.optStore) ∧
  (∀ s : State, (startOpt s).sch.set = s.opt.sched)

/-- R162: an item that runs on a core for longer than t_run, 200 µs, is taken as a hung core, and ATOLL is reset at reach ISLAND: it is asked to
go idle, from an instant later than that limit. -/
def Obligations.LongRunResetsAtoll : Prop :=
  ∀ (core : Nat) (s : State) (i : Item), runningOn s core = some i → isUp s 9 = true → s.rs.episode = false → s.isl.length = 14 →
    ∃ t, exec (.itemRunTimeout core) s = .next t ∧ i.since + 200000 < t.now ∧ (islOf t 9).phase = .idleReq ∧ (islOf t 9).byReset = true ∧
      .strait 0 9 1 ∈ t.out ∧ (∀ n, n ≠ 9 → islOf t n = islOf s n)

/-- R68: ADMIT_LIMIT, source 40, is raised where a request has waited more than 1 ms, and where a request waits because granting it would exceed
ADMIT_CAP; a request raises it once (R471), and a request that is granted in time raises nothing. At a tick the preparations of radio and
power-line drivers that are over have first given their credits back (R70). -/
def Obligations.AdmitLimitRaised : Prop :=
  (∀ (island : Nat) (s : State) (q : AdmitReq), s.pw.waiting.find? (fun r => r.island == island && !r.limited) = some q →
    ∃ t, exec (.admitWaitExpire island) s = .next t ∧ Raised 40 t ∧ q.since + 1000000 < t.now) ∧
  (∀ (s u : State) (q : AdmitReq), u = settleDrive (settlePa 1 (settlePa 0 s)) → servedRequest s = some q → q.limited = false →
    capNow u < granted u + q.credits → q.reserved < q.credits →
    ∃ t, exec .admitTick s = .next t ∧ Raised 40 t ∧ (∀ n, (islOf t n).grant = (islOf u n).grant)) ∧
  (∀ (s u : State) (q : AdmitReq), u = settleDrive (settlePa 1 (settlePa 0 s)) → servedRequest s = some q →
    granted u + reservedCredits u < capNow u → granted u + q.credits ≤ capNow u →
    ∃ t, exec .admitTick s = .next t ∧ t.host.evt = s.host.evt)

/-! ### Every ring command -/

/-- R115: a ring command with a reserved byte or bit that is not zero ends BAD_PARAM, with DETAIL at or before the first of them, and nothing of it
is carried out: only its descriptor with its host accesses and its ring pair's record change. -/
def Obligations.ReservedBitsRefused : Prop :=
  ∀ (c : Instr) (op d : Nat) (s : State) (x : Desc), ringOp c = some (op, d) → descOf s d = some x → x.stage = .started → opcodeOf x = op →
    x.orphan = false → isUp s 10 = true → reservedFaults x.bytes ≠ [] →
    ∃ t o, exec c s = .next t ∧ Done d 2 o [] t ∧ (∀ k ∈ reservedFaults x.bytes, o ≤ k) ∧ OnlyParts [.rings, .descs, .dma] s t

/-- R18, R118: a ring command whose island is held ends STRAIT_ABORT and has no effect; where its own fields are out of range it ends BAD_PARAM
instead. A command that is a work item waits, unchanged, while ATOLL is held, and ends STRAIT_ABORT while ATOLL is marked failed (R165). -/
def Obligations.HeldIslandAborts : Prop :=
  (∀ (c : Instr) (op d : Nat) (s : State) (x : Desc), ringOp c = some (op, d) → descOf s d = some x → x.stage = .started → opcodeOf x = op →
    x.orphan = false → isUp s 10 = true → servedBy op ≠ 0 → (needsAtoll op = false ∨ isUp s 9 = true) → isUp s (servedBy op) = false →
    ∃ t, exec c s = .next t ∧ (Done d 7 0 [] t ∨ ∃ o, Done d 2 o [] t) ∧ OnlyParts [.rings, .descs, .dma] s t) ∧
  (∀ (c : Instr) (op d : Nat) (s : State) (x : Desc), ringOp c = some (op, d) → descOf s d = some x → x.stage = .started → opcodeOf x = op →
    x.orphan = false → isUp s 10 = true → needsAtoll op = true → isUp s 9 = false →
    (∃ o, exec c s = .next (badParam d o s)) ∨
      exec c s = .next (if (islOf s 9).phase = .failed then finish d 7 0 [] s else s))

/-- A ring command whose descriptor is not held, has not started (R114) or carries another opcode changes nothing (the model's choice, log 45). -/
def Obligations.UnstartedCommandIdle : Prop :=
  ∀ (c : Instr) (op d : Nat) (s : State), ringOp c = some (op, d) →
    (∀ x, descOf s d = some x → x.stage ≠ .started ∨ opcodeOf x ≠ op) → exec c s = .next s

/-! ### Frames: what the commands of each family leave as it was -/

/-- Each of these commands answers a next state, from every state, and in it every part of the state that `touches` does not name for the
command is as it was. A SOUND_REQUEST is taken within the 2 GiB of DRAM (R37). The families: straits, the sound and the group commit (01);
supply, admission, temperature (03, 24); resets, start-up, the reset registers (04). For every command the queue of commands is among the
parts left as they were. -/
def Obligations.FrameFabricPowerResets : Prop :=
  ∀ (c : Instr) (s : State), (familyOf c = .fabric ∨ familyOf c = .power ∨ familyOf c = .resets) →
    (∀ x, c = .soundRequest x → ∀ r ∈ x.reqs, r.addr < 2 ^ 31) →
    Part.pending ∉ touches c ∧ ∃ t, exec c s = .next t ∧ OnlyParts (touches c) s t

/-- Each of these commands answers a next state, from every state, and in it every part of the state that `touches` does not name for the
command is as it was. The families: PCIe, rings, descriptors, delivery (05); the meter table and profiles (06); registers, JTAG (23). For
every command the queue of commands is among the parts left as they were. -/
def Obligations.FrameHostTable : Prop :=
  ∀ (c : Instr) (s : State), (familyOf c = .host ∨ familyOf c = .table ∨ familyOf c = .regs) →
    Part.pending ∉ touches c ∧ ∃ t, exec c s = .next t ∧ OnlyParts (touches c) s t

/-- Each of these commands answers a next state, from every state, and in it every part of the state that `touches` does not name for the
command is as it was. The families: the scheduler (07); ingest queues and validation (08); conversion (09). For every command the queue of
commands is among the parts left as they were. -/
def Obligations.FrameSchedulerIntakeConversion : Prop :=
  ∀ (c : Instr) (s : State), (familyOf c = .sched ∨ familyOf c = .intake ∨ familyOf c = .convert) →
    Part.pending ∉ touches c ∧ ∃ t, exec c s = .next t ∧ OnlyParts (touches c) s t

/-- Each of these commands answers a next state, from every state, and in it every part of the state that `touches` does not name for the
command is as it was. The families: postings, tariffs, calendars, custody (10); prepayment (11); balance and indicators (12). For every
command the queue of commands is among the parts left as they were. -/
def Obligations.FrameLedgerPrepayBalance : Prop :=
  ∀ (c : Instr) (s : State), (familyOf c = .ledger ∨ familyOf c = .prepay ∨ familyOf c = .balance) →
    Part.pending ∉ touches c ∧ ∃ t, exec c s = .next t ∧ OnlyParts (touches c) s t

/-- Each of these commands answers a next state, from every state, and in it every part of the state that `touches` does not name for the
command is as it was. The families: power line (13); radio (14); wired ports (15). For every command the queue of commands is among the
parts left as they were. -/
def Obligations.FrameLinks : Prop :=
  ∀ (c : Instr) (s : State), (familyOf c = .plc ∨ familyOf c = .radio ∨ familyOf c = .wired) →
    Part.pending ∉ touches c ∧ ∃ t, exec c s = .next t ∧ OnlyParts (touches c) s t

/-- Each of these commands answers a next state, from every state, and in it every part of the state that `touches` does not name for the
command is as it was. The families: the time base (16); the archipelago (17). For every command the queue of commands is among the parts
left as they were. -/
def Obligations.FrameTimeArchipelago : Prop :=
  ∀ (c : Instr) (s : State), (familyOf c = .time ∨ familyOf c = .arch) →
    Part.pending ∉ touches c ∧ ∃ t, exec c s = .next t ∧ OnlyParts (touches c) s t

/-- Each of these commands answers a next state, from every state, and in it every part of the state that `touches` does not name for the
command is as it was. The families: the pair (18); keys, tamper, debug unlock (19). For every command the queue of commands is among the
parts left as they were. -/
def Obligations.FramePairKeys : Prop :=
  ∀ (c : Instr) (s : State), (familyOf c = .pair ∨ familyOf c = .keys) →
    Part.pending ∉ touches c ∧ ∃ t, exec c s = .next t ∧ OnlyParts (touches c) s t

/-- Each of these commands answers a next state, from every state, and in it every part of the state that `touches` does not name for the
command is as it was. The families: the flash store (20); images and campaigns (21); recorder, errors, background work (22). For every
command the queue of commands is among the parts left as they were. -/
def Obligations.FrameFlashImagesRecorder : Prop :=
  ∀ (c : Instr) (s : State), (familyOf c = .flash ∨ familyOf c = .images ∨ familyOf c = .recorder) →
    Part.pending ∉ touches c ∧ ∃ t, exec c s = .next t ∧ OnlyParts (touches c) s t

/-! ### Completion: what each command does where it runs -/

/-- What each of these commands answers, under conditions on the state and its operands alone: STRAIT_MESSAGE (R17), SOUND_REQUEST (R19),
GROUP_COMMIT_START (R32), GROUP_COMMIT_COMPLETE (R31). -/
def Obligations.FabricCommands : Prop :=
  -- straitMessage
  (∀ (x : StraitXfer) (s : State),
      isUp s x.src = true →
      isUp s x.dst = true →
      straitJoins x.src x.dst = true →
      x.copyOk = true →
      x.err = .none →
      x.first = true →
      x.last = true →
      ∃ t, exec (.straitMessage x) s = .next t ∧
        (laneOf t x.src x.dst).req = (!(laneOf s x.src x.dst).req) ∧
        (laneOf t x.src x.dst).ack = (!(laneOf s x.src x.dst).ack) ∧
        (laneOf t x.src x.dst).got = some (x.kind, [if x.kind = 3 then BitVec.ofNat 128 (controlCode x.data) else x.data]) ∧
        (laneOf t x.src x.dst).outstanding = (laneOf s x.src x.dst).outstanding + (if x.kind = 1 then 1 else 0)) ∧
  -- soundRequest
  (∀ (r : SoundReq) (ws : List (Nat × Nat)) (s : State),
      isUp s 3 = true →
      r.write = true →
      r.carry = .none →
      s.fab.soundWait = [] →
      r.addr < dramBytes →
      r.port < 16 →
      ∃ t, exec (.soundRequest ⟨[r], ws⟩) s = .next t ∧
        t.fab.dram = unitWrite s.fab.dram r.addr r.data ∧ t.fab.answers = [(r.port, r.addr, some r.data)] ∧
        ¬r.addr ∈ t.fab.poison) ∧
  -- soundRequestRead
  (∀ (r : SoundReq) (ws : List (Nat × Nat)) (s : State),
      isUp s 3 = true →
      r.write = false →
      r.carry = .none →
      s.fab.soundWait = [] →
      r.addr < dramBytes →
      r.port < 16 →
      r.err = .none →
      ¬r.addr ∈ s.fab.poison →
      ∃ t, exec (.soundRequest ⟨[r], ws⟩) s = .next t ∧
        t.fab.dram = s.fab.dram ∧ t.fab.answers = [(r.port, r.addr, some (unitRead s.fab.dram r.addr))]) ∧
  -- groupCommitStart
  (∀ (s : State),
      isUp s 3 = true →
      s.fl.readOnly = false →
      s.jr.commit = none →
      s.jr.cut = none →
      ∃ t, exec .groupCommitStart s = .next t ∧
        t.jr.commit = some s.jr.open_ ∧ t.jr.open_ = []) ∧
  -- groupCommitComplete
  (∀ (s : State) (rs : List JRec),
      s.jr.commit = some rs →
      isUp s 3 = true →
      s.fl.readOnly = false →
      s.pw.hotOff = false →
      ∃ t, exec .groupCommitComplete s = .next t ∧
        t.jr.commit = none ∧ t.jr.flash = s.jr.flash ++ rs ∧
        t.jr.programmed = max s.jr.programmed (lastSeqOf rs s.jr.programmed))

/-- What each of these commands answers, under conditions on the state and its operands alone: VIN_WARN (R59), VIN_WARN_CLEAR (R59),
ADMIT_REQUEST (R65), ADMIT_RELEASE (R66), ADMIT_TICK (R67), ADMIT_WAIT_EXPIRE (R68), POWER_SET (R63), VIN_BO (R59), VBAT_LOST (R493),
HOLD_WAKE_ALARM (R60), THERMAL_SAMPLE (R72), P1_POWER_SWITCH (R69), ETH_LINK_CHANGE (R500). In it the time line is the model's (log 1). -/
def Obligations.SupplyAndAdmission : Prop :=
  -- vinWarn
  (∀ (vin : Nat) (s : State),
      s.pw.warned = false →
      vin < 106 →
      s.pw.vinOk = true →
      s.pw.st ≠ .hold →
      s.rs.episode = false →
      isUp s 10 = true →
      isUp s 3 = true →
      s.jr.commit = none →
      s.jr.cut = none →
      ∃ t, exec (.vinWarn vin) s = .next t ∧
        t.pw.warned = true ∧ t.pw.vin = vin ∧ Raised 42 t ∧ t.jr.commit = some s.jr.open_ ∧ t.jr.open_ = []) ∧
  -- vinWarnClear
  (∀ (vin : Nat) (s : State),
      s.pw.warned = true →
      ∃ t, exec (.vinWarnClear vin) s = .next t ∧
        t.pw.warned = false ∧ t.pw.vin = vin ∧ t.pw.lastCommit = (s.pw.lastCommit && s.pw.hotOff)) ∧
  -- admitRequest
  (∀ (island cls credits : Nat) (s : State),
      ∃ t, exec (.admitRequest island cls credits) s = .next t ∧
        t.pw.waiting = s.pw.waiting ++ [{ island := island, cls := cls, credits := credits, reserved := 0, since := s.now, limited := false, use := .plain }]) ∧
  -- admitRelease
  (∀ (island credits : Nat) (s : State),
      island < s.isl.length →
      ∃ t, exec (.admitRelease island credits) s = .next t ∧
        (islOf t island).grant = (islOf s island).grant - credits) ∧
  -- admitTick
  (∀ (s : State) (q : AdmitReq),
      servedRequest s = some q →
      granted s + reservedCredits s < capNow s →
      q.credits ≤ q.reserved + 1 →
      q.island < s.isl.length →
      ∃ t, exec .admitTick s = .next t ∧
        t.pw.waiting = s.pw.waiting.erase q ∧ (islOf t q.island).grant = (islOf s q.island).grant + q.credits) ∧
  -- admitWaitExpire
  (∀ (island : Nat) (s : State) (q : AdmitReq),
      (s.pw.waiting.find? fun q => q.island == island && !q.limited) = some q →
      ∃ t, exec (.admitWaitExpire island) s = .next t ∧
        Raised 40 t ∧ t.pw.waiting = modAt s.pw.waiting (s.pw.waiting.idxOf q) (fun r => { r with limited := true })) ∧
  -- powerSet
  (∀ (d : Nat) (s : State) (x : Desc),
      Ready 0x40 d s x →
      checkFaults (powerChecks x.bytes) = [] →
      powerBusy s = false →
      u8 x.bytes 16 ≤ 1 ∨ allDurable s = true →
      ∃ t, exec (.powerSet d) s = .next t ∧
        Done d 0 0 [] t ∧ t.pw.st = (match u8 x.bytes 16 with | 0 => .run | 1 => .trim | 2 => .ebb | _ => .hold) ∧
        t.pw.before = (if s.pw.st = .ebb then s.pw.before else s.pw.st)) ∧
  -- vinBo
  (∀ (s : State),
      s.pw.vinOk = true →
      (s.pw.warned || s.rs.episode || s.rs.starting || s.pw.st == .hold) = true →
      ∃ t, exec .vinBo s = .next t ∧
        t.pw.vinOk = false ∧ t.rs.episode = true ∧ t.rs.cause = setBit s.rs.cause 3) ∧
  -- vbatLost
  (∀ (s : State),
      0 < s.isl.length →
      ∃ t, exec .vbatLost s = .next t ∧
        t.pw.vbat = false ∧ (islOf t 0).phase = if s.pw.vinOk then (islOf s 0).phase else .off) ∧
  -- holdWakeAlarm
  (∀ (s : State) (w : Nat),
      s.pw.holdWake = some w →
      inHold s = true →
      ∃ t, exec .holdWakeAlarm s = .next t ∧
        t.rs.episode = true ∧ t.rs.cause = setBit s.rs.cause 9) ∧
  -- thermalSample
  (∀ (tj : Int) (s : State),
      isUp s 0 = true →
      ∃ t, exec (.thermalSample tj) s = .next t ∧
        t.pw.tj = tj ∧ t.pw.halved = (if 125 ≤ tj then true else if tj < 120 then false else s.pw.halved) ∧
        t.pw.stopB = (if 130 ≤ tj then true else if tj < 125 then false else s.pw.stopB)) ∧
  -- p1PowerSwitch
  (∀ (s : State),
      inPhase 1 s = true →
      s.pw.p1Switch < 13 →
      s.isl.length = 14 →
      ∃ t, exec .p1PowerSwitch s = .next t ∧
        t.pw.p1Switch = s.pw.p1Switch + 1 ∧ (islOf t (s.pw.p1Switch + 1)).phase = .held) ∧
  -- ethLinkChange
  (∀ (port : Nat) (on : Bool) (speed : Nat) (full : Bool) (s : State),
      isUp s 10 = true →
      6 ≤ s.rs.phase →
      port < 2 →
      speed ≤ 2 →
      s.tel.eth.length = 2 →
      ∃ t, exec (.ethLinkChange port on speed full) s = .next t ∧
        t.tel.eth.getD port (false, 0, false) = if on then (true, ebbSpeed s.pw.st speed, full) else (false, 0, false))

/-- What each of these commands answers, under conditions on the state and its operands alone: VIN_ON (R78), HOLM_POWER_ON (R78),
HOLM_WDT_EXPIRE (R78), SYS_WDT_EXPIRE (R78), ISL_WDT_EXPIRE (R78), RESET_N_ASSERT (R86), RESET_N_RELEASE (R86), RESET_EPISODE_END (R86),
IDLE_ACK (R82), IDLE_TMO_EXPIRE (R82), RESET_HOLD_END (R82), PLL_LOCK_HELD (R83), PLL_LOCK_FAIL (R83), LOCK_RETRY_EXPIRE (R83),
PLL_LOCK_LOST (R83). In it the time line is the model's (log 1). -/
def Obligations.ResetSources : Prop :=
  -- vinOn
  (∀ (vin : Nat) (s : State),
      s.pw.vinOk = false →
      vStart ≤ vin →
      isUp s 0 = true →
      ∃ t, exec (.vinOn vin) s = .next t ∧
        t.pw.vinOk = true ∧ t.pw.vin = vin ∧ t.rs.episode = true ∧ t.rs.cause = setBit s.rs.cause 2) ∧
  -- holmPowerOn
  (∀ (vin : Nat) (s : State),
      isUp s 0 = false →
      ∃ t, exec (.holmPowerOn vin) s = .next t ∧
        t.pw.vin = vin ∧ t.pw.vinOk = decide (vStart ≤ vin) ∧ t.rs.episode = true ∧ t.rs.cause = 1) ∧
  -- holmWdtExpire
  (∀ (s : State),
      isUp s 0 = true →
      ∃ t, exec .holmWdtExpire s = .next t ∧
        t.rs.episode = true ∧ t.rs.cause = 2) ∧
  -- sysWdtExpire
  (∀ (s : State),
      isUp s 1 = true →
      2 ≤ s.rs.phase →
      s.rs.episode = false →
      ∃ t, exec .sysWdtExpire s = .next t ∧
        t.rs.episode = true ∧ t.rs.cause = setBit s.rs.cause 7) ∧
  -- islWdtExpire
  (∀ (n : Nat) (s : State),
      1 ≤ n →
      n ≤ 13 →
      isUp s n = true →
      s.rs.episode = false →
      ∃ t, exec (.islWdtExpire n) s = .next t ∧
        (islOf t n).phase = .idleReq ∧ (islOf t n).srcNo = 1) ∧
  -- resetNAssert
  (∀ (s : State),
      isUp s 0 = true →
      ∃ t, exec .resetNAssert s = .next t ∧
        t.rs.episode = true ∧ t.rs.cause = setBit s.rs.cause 6 ∧ RstSrc.resetN ∈ t.rs.asserted) ∧
  -- resetNRelease
  (∀ (s : State),
      ∃ t, exec .resetNRelease s = .next t ∧
        t.rs.asserted = s.rs.asserted.filter (· != .resetN)) ∧
  -- resetEpisodeEnd
  (∀ (s : State),
      s.rs.episode = true →
      s.rs.asserted = [] →
      ∃ t, exec .resetEpisodeEnd s = .next t ∧
        t.rs.episode = false ∧ t.rs.starting = true ∧ t.rs.lastReach = s.rs.reach ∧ t.rs.epCount = s.rs.epCount + 1 ∧
        (t.rs.episodes.head?.map (·.causes)) = some s.rs.epCauses) ∧
  -- idleAck
  (∀ (n : Nat) (s : State),
      (islOf s n).phase = .idleReq →
      ((n = 3 → s.jr.commit = none)) →
      ((n = 2 → s.keys.msgs = [])) →
      ∃ t, exec (.idleAck n) s = .next t ∧
        (islOf t n).phase = .inReset) ∧
  -- idleTmoExpire
  (∀ (n : Nat) (s : State),
      (islOf s n).phase = .idleReq →
      ∃ t, exec (.idleTmoExpire n) s = .next t ∧
        (islOf t n).phase = .inReset ∧ s.now ≤ t.now) ∧
  -- resetHoldEnd
  (∀ (n : Nat) (s : State),
      (islOf s n).phase = .inReset →
      ∃ t, exec (.resetHoldEnd n) s = .next t ∧
        (islOf t n).phase = .locking) ∧
  -- pllLockHeld
  (∀ (n : Nat) (s : State),
      (islOf s n).phase = .locking →
      ∃ t, exec (.pllLockHeld n) s = .next t ∧
        ((islOf s n).byReset = false → isUp t n = true) ∧ ((islOf s n).byReset = true → Raised 58 t)) ∧
  -- pllLockFail
  (∀ (n : Nat) (s : State),
      1 ≤ n →
      n ≤ 13 →
      (islOf s n).phase = .locking →
      ∃ t, exec (.pllLockFail n) s = .next t ∧
        (islOf t n).phase = (if 2 ≤ (islOf s n).lockFails then .failed else .retryWait) ∧
        (2 ≤ (islOf s n).lockFails → Raised 59 t)) ∧
  -- lockRetryExpire
  (∀ (n : Nat) (s : State),
      (islOf s n).phase = .retryWait →
      ∃ t, exec (.lockRetryExpire n) s = .next t ∧
        (islOf t n).phase = if s.rs.starting = true ∧ s.rs.phase ≤ releasedAt n then .held else .locking) ∧
  -- pllLockLost
  (∀ (n : Nat) (s : State),
      1 ≤ n →
      n ≤ 13 →
      isUp s n = true →
      s.rs.episode = false →
      ∃ t, exec (.pllLockLost n) s = .next t ∧
        (islOf t n).phase = .idleReq ∧ (islOf t n).byReset = true)

/-- What each of these commands answers, under conditions on the state and its operands alone: PHASE_P0_END (R89), PHASE_P1_END (R89),
PHASE_P2_END (R89), PHASE_P3_END (R89), PHASE_P6_END (R89), PCIE_LINK_UP (R90), PERST_N_RELEASE (R90), LAGOON_READ (R98), LAGOON_WRITE
(R98), SYS_RESET_WRITE (R78), ISL_CTRL_RESET (R84), RESET_CAUSE_CLEAR (R85). -/
def Obligations.StartUpAndResetRegisters : Prop :=
  -- phaseP0End
  (∀ (s : State),
      inPhase 0 s = true →
      s.pw.vinOk = true →
      ((s.rs.thermalHold = true → s.pw.tj ≤ 115)) →
      ∃ t, exec .phaseP0End s = .next t ∧
        t.rs.phase = 1 ∧ t.rs.thermalHold = false ∧ t.pw.p1Switch = 0) ∧
  -- phaseP1End
  (∀ (s : State),
      inPhase 1 s = true →
      s.pw.p1Switch = 13 →
      (islOf s 1).phase = .held →
      ∃ t, exec .phaseP1End s = .next t ∧
        t.rs.phase = 2 ∧ t.rs.mode = s.rs.modeLevel) ∧
  -- phaseP2End
  (∀ (s : State),
      inPhase 2 s = true →
      isUp s 1 = true →
      readyToRun s [10] = true →
      ∃ t, exec .phaseP2End s = .next t ∧
        t.rs.phase = 3 ∧ t.rs.recovery = !bit s.rs.mode 2) ∧
  -- phaseP3End
  (∀ (s : State),
      inPhase 3 s = true →
      readyToRun s [2] = true →
      macsGood (unlockReef (judgeLoss (executePending s))) = true →
      ∃ t, exec .phaseP3End s = .next t ∧
        t.rs.phase = 4) ∧
  -- phaseP6End
  (∀ (s : State),
      inPhase 6 s = true →
      isUp s 10 = true →
      readyToRun s [11, 12, 13] = true →
      ∃ t, exec .phaseP6End s = .next t ∧
        t.rs.phase = 7 ∧ t.rs.starting = false) ∧
  -- pcieLinkUp
  (∀ (speed width : Nat) (s : State),
      isUp s 10 = true →
      remoteHosted s = false →
      s.rs.perst = false →
      1 ≤ speed ∧ speed ≤ 3 →
      1 ≤ width ∧ width ≤ 2 →
      s.host.link = .training ∨ s.host.link = .l1 →
      ∃ t, exec (.pcieLinkUp speed width) s = .next t ∧
        t.host.link = .l0 ∧ t.host.speed = speed ∧ t.host.width = width ∧ t.host.wakeN = false) ∧
  -- perstNRelease
  (∀ (s : State),
      s.rs.perst = true →
      isUp s 10 = true →
      2 < s.rs.phase →
      remoteHosted s = false →
      ∃ t, exec .perstNRelease s = .next t ∧
        t.rs.perst = false ∧ t.host.link = .training) ∧
  -- lagoonRead
  (∀ (d : Nat) (s : State) (x : Desc),
      Ready 0x41 d s x →
      u16 x.bytes 16 % 16 = 0 ∧ 0x400 ≤ u16 x.bytes 16 ∧ u16 x.bytes 16 ≤ 0xFF0 →
      u16 x.bytes 18 % 16 = 0 ∧ 16 ≤ u16 x.bytes 18 ∧ u16 x.bytes 18 ≤ 0x1000 - u16 x.bytes 16 →
      ∃ t, exec (.lagoonRead d) s = .next t ∧
        Done d 0 0 [] t ∧ PutOut s (u64 x.bytes 24) (memReadAll s.rs.lagoon (u16 x.bytes 16) (u16 x.bytes 18)) t ∧
        t.rs.lagoon = s.rs.lagoon) ∧
  -- lagoonWrite
  (∀ (d : Nat) (s : State) (x : Desc) (data : Bytes),
      Ready 0x42 d s x →
      u16 x.bytes 16 % 16 = 0 ∧ 0x400 ≤ u16 x.bytes 16 ∧ u16 x.bytes 16 ≤ 0xFF0 →
      u16 x.bytes 18 % 16 = 0 ∧ 16 ≤ u16 x.bytes 18 ∧ u16 x.bytes 18 ≤ 0x1000 - u16 x.bytes 16 →
      x.input = some data →
      ∃ t, exec (.lagoonWrite d) s = .next t ∧
        Done d 0 0 [] t ∧ t.rs.lagoon = memWriteAll s.rs.lagoon (u16 x.bytes 16) data) ∧
  -- sysResetWrite
  (∀ (v : BitVec 32) (s : State),
      isUp s 10 = true →
      isUp s 0 = true →
      ∃ t, exec (.sysResetWrite v) s = .next t ∧
        if v = 0xC0DE then t.rs.episode = true ∧ t.rs.cause = setBit s.rs.cause 8 else t = s) ∧
  -- islCtrlReset
  (∀ (n : Nat) (v : BitVec 32) (s : State),
      isUp s 10 = true →
      isUp s 0 = true →
      s.rs.episode = false →
      1 ≤ n ∧ n ≤ 13 →
      isUp s n = true →
      bit v.toNat n = true →
      ∃ t, exec (.islCtrlReset v) s = .next t ∧
        (islOf t n).phase = .idleReq ∧ (islOf t n).srcNo = 0) ∧
  -- resetCauseClear
  (∀ (v : BitVec 32) (s : State) (k : Nat),
      isUp s 10 = true →
      isUp s 0 = true →
      k < 10 →
      s.rs.cause < 1024 →
      ∃ t, exec (.resetCauseClear v) s = .next t ∧
        bit t.rs.cause k = (bit s.rs.cause k && !bit v.toNat k))

/-- What each of these commands answers, under conditions on the state and its operands alone: PCIE_LINK_DOWN (R127), PERST_N_ASSERT
(R103), RING_ENABLE (R108), RING_DISABLE (R109), RING_STOP_DONE (R109), DOORBELL_SQ_TAIL (R112), DOORBELL_CQ_HEAD (R128), DESCRIPTOR_FETCH
(R114), COMPLETION_WRITE (R116), COAL_TIME_EXPIRE (R128). In it the time line is the model's (log 1) and outputs, journal bodies and tags
are named as the model names them (log 10). -/
def Obligations.RingsAndDoorbells : Prop :=
  -- pcieLinkDown
  (∀ (dest : LinkDown) (s : State),
      s.host.link = .l0 →
      ∃ t, exec (.pcieLinkDown dest) s = .next t ∧
        t.host.link = (if dest = .training then .training else .l1) ∧
        t.host.speed = (if dest = .training then 0 else s.host.speed) ∧ t.host.l1Sub = substateOf dest) ∧
  -- perstNAssert
  (∀ (s : State),
      remoteHosted s = false →
      isUp s 10 = true →
      ∃ t, exec .perstNAssert s = .next t ∧
        t.rs.perst = true ∧ t.host.link = .down ∧ t.host.setupDone = false ∧ t.host.evt = 0 ∧
        t.host.rings = HostIf.reset.rings ∧ t.host.bufs = [] ∧ t.tel.copy = s.tel.copy ∧ t.tel.locked = s.tel.locked) ∧
  -- perstNAssertHeld
  (∀ (s : State),
      isUp s 10 = false →
      ∃ t, exec .perstNAssert s = .next t ∧
        t.rs.perst = true ∧ t.host = s.host) ∧
  -- ringEnable
  (∀ (n : Nat) (s : State),
      isUp s 10 = true →
      n < 32 →
      s.host.rings.length = 32 →
      (ringOf s n).state = .disabled →
      ringsOverlap (ringOf s n) = false →
      ∃ t, exec (.ringEnable n) s = .next t ∧
        ringOf t n = (ringOf s n).enabled) ∧
  -- ringEnableOverlap
  (∀ (n : Nat) (s : State),
      isUp s 10 = true →
      n < 32 →
      s.host.rings.length = 32 →
      (ringOf s n).state = .disabled →
      ringsOverlap (ringOf s n) = true →
      ∃ t, exec (.ringEnable n) s = .next t ∧
        (ringOf t n).state = .error ∧ (ringOf t n).error = 4 ∧ Raised n t) ∧
  -- ringDisable
  (∀ (n : Nat) (s : State),
      isUp s 10 = true →
      n < s.host.rings.length →
      (ringOf s n).state = .enabled →
      ∃ t, exec (.ringDisable n) s = .next t ∧
        (ringOf t n).state = .stopping ∧ (ringOf t n).enable = false ∧ t.host.bufs = s.host.bufs.filter (fun b => b.ring != n)) ∧
  -- ringStopDone
  (∀ (n : Nat) (s : State),
      n < s.host.rings.length →
      (ringOf s n).state = .stopping →
      ringHolds s n = false →
      ∃ t, exec (.ringStopDone n) s = .next t ∧
        (ringOf t n).state = .disabled) ∧
  -- doorbellSqTail
  (∀ (n : Nat) (v : BitVec 32) (s : State),
      isUp s 10 = true →
      n < 32 →
      s.host.rings.length = 32 →
      (ringOf s n).state = .enabled →
      v.toNat % 65536 < 2 ^ (ringOf s n).sqLog →
      ∃ t, exec (.doorbellSqTail n v) s = .next t ∧
        (ringOf t n).sqTail = v.toNat % 65536) ∧
  -- doorbellSqTailRange
  (∀ (n : Nat) (v : BitVec 32) (s : State),
      isUp s 10 = true →
      n < 32 →
      s.host.rings.length = 32 →
      (ringOf s n).state = .enabled →
      2 ^ (ringOf s n).sqLog ≤ v.toNat % 65536 →
      ∃ t, exec (.doorbellSqTail n v) s = .next t ∧
        (ringOf t n).state = .error ∧ (ringOf t n).error = 1 ∧ Raised n t) ∧
  -- doorbellCqHead
  (∀ (n : Nat) (v : BitVec 32) (s : State),
      isUp s 10 = true →
      n < 32 →
      s.host.rings.length = 32 →
      (ringOf s n).state = .enabled →
      v.toNat % 65536 < 2 ^ (ringOf s n).cqLog →
      ∃ t, exec (.doorbellCqHead n v) s = .next t ∧
        (ringOf t n).cqHead = v.toNat % 65536 ∧ (v.toNat % 65536 ≠ (ringOf s n).cqIndex → Raised n t)) ∧
  -- descriptorFetch
  (∀ (s : State) (n : Nat),
      mayFetch s = true →
      descOf s s.host.nextDesc = none →
      ((List.range 32).map (fun k => (s.host.rr + 1 + k) % 32)).find? (fetchable s) = some n →
      ∃ t, exec .descriptorFetch s = .next t ∧
        t.host.rr = n ∧
        (descOf t s.host.nextDesc).map (fun x => (x.ring, x.slot, x.stage)) = some (n, (ringOf s n).sqHead, .fetching)) ∧
  -- completionWrite
  (∀ (d : Nat) (s : State) (x : Desc) (a : Nat) (e : Bytes),
      descOf s d = some x →
      entryDue s x = true →
      remoteHosted s = false →
      opcodeOf x ≠ 0x40 →
      (ringOf s x.ring).cbase.toNat * 4096 + 32 * (ringOf s x.ring).cqIndex = a →
      completionEntry x (ringOf s x.ring) = e →
      ∃ t, exec (.completionWrite d true) s = .next t ∧
        ∀ p ∈ spans s.host.maxPayload a e.length, Output.hostWrite p.1 (slice e (p.1 - a) p.2) false ∈ t.out) ∧
  -- completionWriteFail
  (∀ (d : Nat) (s : State) (x : Desc),
      descOf s d = some x →
      entryDue s x = true →
      x.ring < 32 →
      s.host.rings.length = 32 →
      ∃ t, exec (.completionWrite d false) s = .next t ∧
        (ringOf t x.ring).state = .error ∧ (ringOf t x.ring).error = 3 ∧ Raised x.ring t) ∧
  -- coalTimeExpire
  (∀ (n : Nat) (s : State) (since : Nat),
      isUp s 10 = true →
      n < 32 →
      s.host.rings.length = 32 →
      (ringOf s n).coalSince = some since →
      0 < (ringOf s n).unnotified →
      ∃ t, exec (.coalTimeExpire n) s = .next t ∧
        Raised n t ∧ (ringOf t n).unnotified = 0 ∧ (ringOf t n).coalSince = none)

/-- What each of these commands answers, under conditions on the state and its operands alone: FENCE_ZLR_RETURN (R124), FENCE_ZLR_TIMEOUT
(R124), MSIX_VECTOR_UNMASK (R127), NOP (R119), DELIVER_BUF (R120), DELIVER_FLUSH_EXPIRE (R120), DELIVER_CONFIRM (R121), STEER_SET (R122),
HOST_DMA_COMPLETION (R118). In it outputs, journal bodies and tags are named as the model names them (log 10). -/
def Obligations.FencesVectorsAndDelivery : Prop :=
  -- fenceZlrReturn
  (∀ (n : Nat) (s : State) (x : Desc),
      isUp s 10 = true →
      (ringOf s n).zlr = true →
      (ringOf s n).zlrBack = false →
      (ringOf s n).state = .enabled →
      n < s.host.rings.length →
      ringDescs s n = [x] →
      descOf s x.id = some x →
      x.stage = .fetched →
      hasFence x = true →
      bit (u8 x.bytes 1) 1 = false →
      opcodeOf x = 0 →
      s.rs.recovery = false →
      ∃ t, exec (.fenceZlrReturn n) s = .next t ∧
        (descOf t x.id).map (·.stage) = some .started ∧ (ringOf t n).zlr = false) ∧
  -- fenceZlrTimeout
  (∀ (n : Nat) (s : State) (x : Desc),
      isUp s 10 = true →
      (ringOf s n).zlr = true →
      (ringOf s n).zlrBack = false →
      (ringDescs s n).find? (fun x => x.stage == .fetched) = some x →
      descOf s x.id = some x →
      ∃ t, exec (.fenceZlrTimeout n) s = .next t ∧
        Done x.id 6 0 [] t) ∧
  -- msixVectorUnmask
  (∀ (n : Nat) (s : State),
      isUp s 10 = true →
      remoteHosted s = false →
      n < 64 →
      s.host.msixFmask = false →
      s.host.link = .l0 →
      s.host.msixEnable = true →
      s.host.msixPending = 1#64 <<< n →
      ∃ t, exec (.msixVectorUnmask (.vector n false)) s = .next t ∧
        t.host.msixMask.getLsbD n = false ∧ t.host.msixPending.getLsbD n = false ∧
        t.out = s.out ++ [.msix n (s.host.msixTable.getD n (0, 0)).1 (s.host.msixTable.getD n (0, 0)).2]) ∧
  -- msixVectorMask
  (∀ (n : Nat) (s : State),
      isUp s 10 = true →
      remoteHosted s = false →
      n < 64 →
      ∃ t, exec (.msixVectorUnmask (.vector n true)) s = .next t ∧
        t.host.msixMask.getLsbD n = true) ∧
  -- msixFunctionMask
  (∀ (on : Bool) (s : State),
      isUp s 10 = true →
      remoteHosted s = false →
      ∃ t, exec (.msixVectorUnmask (.functionMask on)) s = .next t ∧
        t.host.msixFmask = on ∧ t.host.msixEnable = s.host.msixEnable) ∧
  -- msixEnable
  (∀ (on : Bool) (s : State),
      isUp s 10 = true →
      remoteHosted s = false →
      ∃ t, exec (.msixVectorUnmask (.enable on)) s = .next t ∧
        t.host.msixEnable = on ∧ t.host.msixFmask = s.host.msixFmask) ∧
  -- nop
  (∀ (d : Nat) (s : State) (x : Desc),
      Ready 0x00 d s x →
      ∃ t, exec (.nop d) s = .next t ∧
        Done d 0 0 [] t) ∧
  -- deliverBuf
  (∀ (d : Nat) (s : State) (x : Desc),
      Ready 0x01 d s x →
      u32 x.bytes 16 % 4096 = 0 ∧ 4096 ≤ u32 x.bytes 16 ∧ u32 x.bytes 16 ≤ 65536 →
      u64 x.bytes 24 % 64 = 0 →
      (ringOf s x.ring).state = .enabled →
      s.fl.log = [] →
      ∃ t, exec (.deliverBuf d) s = .next t ∧
        Waits d t ∧
        t.host.bufs = s.host.bufs ++ [{ desc := d, ring := x.ring, addr := u64 x.bytes 24, len := u32 x.bytes 16, records := 0, first := none }]) ∧
  -- deliverBufStopping
  (∀ (d : Nat) (s : State) (x : Desc),
      Ready 0x01 d s x →
      u32 x.bytes 16 % 4096 = 0 ∧ 4096 ≤ u32 x.bytes 16 ∧ u32 x.bytes 16 ≤ 65536 →
      u64 x.bytes 24 % 64 = 0 →
      (ringOf s x.ring).state = .stopping →
      ∃ t, exec (.deliverBuf d) s = .next t ∧
        Done d 4 0 [] t) ∧
  -- deliverFlushExpire
  (∀ (n : Nat) (s : State) (b : DelBuf) (x : Desc),
      isUp s 10 = true →
      s.host.bufs.find? (fun b => b.ring == n && b.first.isSome) = some b →
      n < s.host.rings.length →
      descOf s b.desc = some x →
      x.stage = .waiting →
      x.orphan = false →
      ∃ t, exec (.deliverFlushExpire n) s = .next t ∧
        Done b.desc 0 0 (toLE 8 (ringOf s n).batch ++ toLE 4 b.records) t ∧ (ringOf t n).batch = (ringOf s n).batch + 1 ∧
        t.host.bufs = s.host.bufs.filter (fun y => y.desc != b.desc)) ∧
  -- deliverConfirm
  (∀ (d : Nat) (s : State) (x : Desc),
      Ready 0x02 d s x →
      u64 x.bytes 16 < (ringOf s x.ring).batch →
      (ringOf s x.ring).confirmed < u64 x.bytes 16 →
      x.ring < s.host.rings.length →
      ∃ t, exec (.deliverConfirm d) s = .next t ∧
        Done d 0 0 [] t ∧ (ringOf t x.ring).confirmed = u64 x.bytes 16 ∧
        t.fl.log = s.fl.log.filter (fun e => !e.batch.any (fun b => b.2 == x.ring && decide (b.1 ≤ u64 x.bytes 16)))) ∧
  -- deliverConfirmAhead
  (∀ (d : Nat) (s : State) (x : Desc),
      Ready 0x02 d s x →
      (ringOf s x.ring).batch ≤ u64 x.bytes 16 →
      ∃ t, exec (.deliverConfirm d) s = .next t ∧
        Done d 2 16 [] t ∧ t.fl.log = s.fl.log) ∧
  -- steerSet
  (∀ (d : Nat) (s : State) (x : Desc) (k : Nat),
      Ready 0x03 d s x →
      u16 x.bytes 16 ≤ u16 x.bytes 18 →
      u16 x.bytes 18 ≤ 1023 →
      ∃ t, exec (.steerSet d) s = .next t ∧
        Tab.get t.host.steer k = if u16 x.bytes 16 ≤ k ∧ k ≤ u16 x.bytes 18 then some (u8 x.bytes 20 % 32) else Tab.get s.host.steer k) ∧
  -- steerSetDone
  (∀ (d : Nat) (s : State) (x : Desc),
      Ready 0x03 d s x →
      u16 x.bytes 16 ≤ u16 x.bytes 18 →
      u16 x.bytes 18 ≤ 1023 →
      s.fl.log = [] →
      ∃ t, exec (.steerSet d) s = .next t ∧
        Done d 0 0 [] t) ∧
  -- hostDmaCompletion
  (∀ (tag : Nat) (b : Bytes) (s : State) (a : Dma) (d : Nat) (x : Desc),
      isUp s 10 = true →
      s.host.dma.find? (fun a => a.tag == tag) = some a →
      a.use = .input d →
      remoteHosted s = false →
      a.len = b.length →
      descOf s d = some x →
      ∃ t, exec (.hostDmaCompletion tag (.data b)) s = .next t ∧
        (descOf t d).map (·.input) = some (some b))

/-- What each of these commands answers, under conditions on the state and its operands alone: METER_ENROL (R142), METER_REMOVE (R143),
METER_QUERY (R141), ROUTE_PIN (R141), PROFILE_SET (R147). In it open values are free constants of Config (log 5) and outputs, journal
bodies and tags are named as the model names them (log 10). -/
def Obligations.MeterEntries : Prop :=
  -- meterEnrol
  (∀ (d : Nat) (s : State) (x : Desc) (k : Nat) (m : MSlot) (p : Nat),
      Ready 0x10 d s x →
      1 ≤ u64 x.bytes 16 ∧ u64 x.bytes 16 ≤ 2 ^ 64 - 2 →
      bit (u8 x.bytes 29) 7 = true ∨ s.arch.role = 1 →
      isStandby s = false →
      mayAppend s = true →
      s.tbl.state ≠ 2 →
      entryById s (u64 x.bytes 16) = none →
      trieLookup s.db.pfxs 0 (u64 x.bytes 16) = some p →
      bit (u8 x.bytes 27) 6 = true →
      u24 x.bytes 24 % 2 ^ 20 = 0 →
      lowestIndex s = some k →
      placeFor s k (u64 x.bytes 16) = some m →
      ∃ t, exec (.meterEnrol d) s = .next t ∧
        WaitsDurable d (toLE 4 k) t ∧
        Tab.get t.db.entries k = some (newEntry s (u64 x.bytes 16) k (u16 x.bytes 28 % 4096) (bit (u8 x.bytes 29) 7)) ∧
        m ∈ t.tbl.slots) ∧
  -- meterEnrolNoProfile
  (∀ (d : Nat) (s : State) (x : Desc),
      Ready 0x10 d s x →
      1 ≤ u64 x.bytes 16 ∧ u64 x.bytes 16 ≤ 2 ^ 64 - 2 →
      bit (u8 x.bytes 29) 7 = true →
      isStandby s = false →
      mayAppend s = true →
      s.tbl.state ≠ 2 →
      entryById s (u64 x.bytes 16) = none →
      trieLookup s.db.pfxs 0 (u64 x.bytes 16) = none →
      bit (u8 x.bytes 27) 6 = false →
      ∃ t, exec (.meterEnrol d) s = .next t ∧
        Done d 0x24 0 [] t ∧ t.db = s.db) ∧
  -- meterRemove
  (∀ (d : Nat) (s : State) (x : Desc) (k : Nat) (e : MEntry),
      Ready 0x11 d s x →
      checkFaults (refChecks x.bytes) = [] →
      s.tbl.state ≠ 2 →
      refMeter true s x.bytes = some (k, e) →
      isStandby s = false →
      mayAppend s = true →
      InTurn s x →
      bit (u8 x.bytes 28) 0 = false →
      e.retired = false →
      ∃ t, exec (.meterRemove d) s = .next t ∧
        WaitsDurable d [] t ∧ Tab.get t.db.entries k = some { e with retired := true }) ∧
  -- meterRemovePurge
  (∀ (d : Nat) (s : State) (x : Desc) (k : Nat) (e : MEntry),
      Ready 0x11 d s x →
      checkFaults (refChecks x.bytes) = [] →
      s.tbl.state ≠ 2 →
      refMeter true s x.bytes = some (k, e) →
      isStandby s = false →
      mayAppend s = true →
      InTurn s x →
      bit (u8 x.bytes 28) 0 = true →
      ∃ t, exec (.meterRemove d) s = .next t ∧
        Waits d t ∧ Tab.get t.db.entries k = none ∧ (t.jr.next - 1, DurAct.freeIndex k) ∈ t.jr.waits) ∧
  -- meterQuery
  (∀ (d : Nat) (s : State) (x : Desc) (k : Nat) (e : MEntry),
      Ready 0x12 d s x →
      checkFaults (refChecks x.bytes) = [] →
      u64 x.bytes 32 % 32 = 0 →
      s.tbl.state ≠ 2 ∨ bit (u8 x.bytes 27) 7 = true →
      refMeter true s x.bytes = some (k, e) →
      ∃ t, exec (.meterQuery d) s = .next t ∧
        Done d 0 0 (toLE 4 (ageOf s e)) t ∧ PutOut s (u64 x.bytes 32) (entryBytes e) t) ∧
  -- meterQueryUnknown
  (∀ (d : Nat) (s : State) (x : Desc),
      Ready 0x12 d s x →
      checkFaults (refChecks x.bytes) = [] →
      u64 x.bytes 32 % 32 = 0 →
      s.tbl.state ≠ 2 ∨ bit (u8 x.bytes 27) 7 = true →
      refMeter true s x.bytes = none →
      ∃ t, exec (.meterQuery d) s = .next t ∧
        Done d 0x23 0 [] t ∧ t.out = s.out) ∧
  -- routePin
  (∀ (d : Nat) (s : State) (x : Desc) (k : Nat) (e : MEntry),
      Ready 0x13 d s x →
      checkFaults (refChecks x.bytes) = [] →
      u8 x.bytes 28 / 16 ≤ 7 ∨ (u8 x.bytes 28 / 16 = 15 ∧ u16 x.bytes 30 = 0) →
      s.tbl.state ≠ 2 →
      refMeter false s x.bytes = some (k, e) →
      isStandby s = false →
      mayAppend s = true →
      ∃ t, exec (.routePin d) s = .next t ∧
        WaitsDurable d [] t ∧
        Tab.get t.db.entries k = some (if u8 x.bytes 28 / 16 = 15 then { e with pinned := false } else { e with pinned := true, link := u8 x.bytes 28 / 16, route := u16 x.bytes 30 })) ∧
  -- profileSet
  (∀ (d : Nat) (s : State) (x : Desc) (data : Bytes),
      Ready 0x14 d s x →
      u16 x.bytes 16 ≤ 1023 →
      x.input = some data →
      isStandby s = false →
      mayAppend s = true →
      profileFault (u16 x.bytes 16) (fun t => (Tab.get s.db.virials t).isSome) (data.take 1024) = none →
      oldCopyInUse s (u16 x.bytes 16) = false →
      profileComing s (u16 x.bytes 16) = false →
      s.db.cust = [] →
      ∃ t, exec (.profileSet d) s = .next t ∧
        WaitsDurable d [] t ∧ LastBody (.config (.profile (u16 x.bytes 16) (data.take 1024))) t ∧ t.db = s.db ∧
        t.jr.next = s.jr.next + 1) ∧
  -- profileSetFault
  (∀ (d : Nat) (s : State) (x : Desc) (data : Bytes) (o : Nat),
      Ready 0x14 d s x →
      u16 x.bytes 16 ≤ 1023 →
      x.input = some data →
      isStandby s = false →
      mayAppend s = true →
      profileFault (u16 x.bytes 16) (fun t => (Tab.get s.db.virials t).isSome) (data.take 1024) = some o →
      ∃ t, exec (.profileSet d) s = .next t ∧
        Done d 2 (0x8000 + o) [] t ∧ t.db = s.db)

/-- What each of these commands answers, under conditions on the state and its operands alone: PREFIX_ADD (R145), PREFIX_DEL (R145),
TABLE_RESEED (R136), RESEED_SHADOW_DONE (R136), TABLE_REBUILD_DONE (R140), BUCKET_RELOAD_DONE (R139), OVF_STORE_RELOAD_DONE (R139),
TABLE_SWEEP (R150). In it outputs, journal bodies and tags are named as the model names them (log 10). -/
def Obligations.TableMaintenance : Prop :=
  -- prefixAdd
  (∀ (d : Nat) (s : State) (x : Desc),
      Ready 0x15 d s x →
      checkFaults (pfxChecks x.bytes) = [] →
      u16 x.bytes 18 ≤ (if u8 x.bytes 16 = 0 then 1023 else 4095) →
      isStandby s = false →
      mayAppend s = true →
      laterRecs s = [] →
      s.db.cust = [] →
      s.db.pfxs.any (samePfx (u8 x.bytes 16) (u8 x.bytes 17) (pfxKey x.bytes)) = false →
      s.db.pfxs.length < 16384 →
      ∃ t, exec (.prefixAdd d) s = .next t ∧
        WaitsDurable d (toLE 2 (s.db.pfxs.length + 1)) t ∧
        LastBody (.config (.pfxAdd { table := u8 x.bytes 16, len := u8 x.bytes 17, key := pfxKey x.bytes, value := u16 x.bytes 18 })) t ∧
        t.db = s.db) ∧
  -- prefixAddExists
  (∀ (d : Nat) (s : State) (x : Desc),
      Ready 0x15 d s x →
      checkFaults (pfxChecks x.bytes) = [] →
      u16 x.bytes 18 ≤ (if u8 x.bytes 16 = 0 then 1023 else 4095) →
      isStandby s = false →
      mayAppend s = true →
      (soonDb s).pfxs.any (samePfx (u8 x.bytes 16) (u8 x.bytes 17) (pfxKey x.bytes)) = true →
      ∃ t, exec (.prefixAdd d) s = .next t ∧
        Done d 0x26 0 [] t ∧ t.db = s.db) ∧
  -- prefixDel
  (∀ (d : Nat) (s : State) (x : Desc),
      Ready 0x16 d s x →
      checkFaults (pfxChecks x.bytes) = [] →
      isStandby s = false →
      mayAppend s = true →
      laterRecs s = [] →
      s.db.cust = [] →
      s.db.pfxs.any (samePfx (u8 x.bytes 16) (u8 x.bytes 17) (pfxKey x.bytes)) = true →
      ∃ t, exec (.prefixDel d) s = .next t ∧
        WaitsDurable d (toLE 2 (s.db.pfxs.filter (fun p => !(p.table == u8 x.bytes 16 && p.len == u8 x.bytes 17 && p.key == pfxKey x.bytes))).length) t ∧
        LastBody (.config (.pfxDel (u8 x.bytes 16) (u8 x.bytes 17) (pfxKey x.bytes))) t ∧ t.db = s.db) ∧
  -- prefixDelUnknown
  (∀ (d : Nat) (s : State) (x : Desc),
      Ready 0x16 d s x →
      checkFaults (pfxChecks x.bytes) = [] →
      isStandby s = false →
      mayAppend s = true →
      (soonDb s).pfxs.any (samePfx (u8 x.bytes 16) (u8 x.bytes 17) (pfxKey x.bytes)) = false →
      ∃ t, exec (.prefixDel d) s = .next t ∧
        Done d 0x27 0 [] t ∧ t.db = s.db) ∧
  -- tableReseed
  (∀ (d : Nat) (s : State) (x : Desc),
      Ready 0x17 d s x →
      isStandby s = false →
      s.tbl.reseed = none →
      s.tbl.state ≠ 2 →
      ∃ t, exec (.tableReseed d) s = .next t ∧
        Waits d t ∧ t.tbl.state = 1 ∧
        t.tbl.reseed = some { epoch := (s.tbl.epoch + 1) % 256, tries := 1, desc := some d, switched := false }) ∧
  -- reseedShadowDone
  (∀ (s : State) (r : Reseed),
      isUp s 5 = true →
      s.tbl.state ≠ 2 →
      s.tbl.reseed = some r →
      r.switched = false →
      ((buildSlots (hashRootNow s) r.epoch s.db.entries).filter (·.ovf)).length ≤ 4096 →
      ∃ t, exec .reseedShadowDone s = .next t ∧
        t.tbl.slots = buildSlots (hashRootNow s) r.epoch s.db.entries ∧ t.tbl.epoch = r.epoch ∧
        t.tbl.hashRoot = hashRootNow s ∧ t.tbl.state = 0 ∧ t.tbl.reseed = some { r with switched := true }) ∧
  -- tableRebuildDone
  (∀ (s : State),
      isUp s 5 = true →
      s.tbl.state = 2 →
      ∃ t, exec .tableRebuildDone s = .next t ∧
        t.tbl.slots = buildSlots (hashRootNow s) s.tbl.epoch s.db.entries ∧ t.tbl.state = 0) ∧
  -- bucketReloadDone
  (∀ (slot u : Nat) (s : State) (i : Item),
      s.tbl.bktReload.find? (fun p => p.1 == slot) = some (slot, u) →
      itemAt s slot = some i →
      i.state = .parked →
      i.reading.isSome = true →
      (s.sch.items.all fun u => u.cls != 2) = true →
      tableCopyGood s = true →
      ∃ t, exec (.bucketReloadDone slot) s = .next t ∧
        t.tbl.bktReload = s.tbl.bktReload.filter (fun q => q.1 != slot) ∧ ¬u ∈ t.fab.poison ∧
        (itemAt t slot).map (fun j => (j.state, j.step)) = some (.ready, .lookup)) ∧
  -- bucketReloadDoneBad
  (∀ (slot u : Nat) (s : State),
      s.tbl.bktReload.find? (fun p => p.1 == slot) = some (slot, u) →
      tableCopyGood s = false →
      ∃ t, exec (.bucketReloadDone slot) s = .next t ∧
        t.tbl.state = 2 ∧ t.tbl.bktReload = s.tbl.bktReload.filter (fun q => q.1 != slot) ∧ t.db = s.db) ∧
  -- ovfStoreReloadDone
  (∀ (s : State),
      s.tbl.ovfReload = true →
      ∃ t, exec .ovfStoreReloadDone s = .next t ∧
        t.tbl.ovfReload = false ∧ t.tbl.state = if tableCopyGood s then s.tbl.state else 2) ∧
  -- tableSweep
  (∀ (s : State) (k : Nat) (e : MEntry),
      isUp s 5 = true →
      Tab.get s.db.entries k = some e →
      ∃ t, exec .tableSweep s = .next t ∧
        Tab.get t.db.entries k = some (if !e.pinned && pfAgeLimit (bodyFor s e.id) != 0 && decide (pfAgeLimit (bodyFor s e.id) < ageOf s e) then { e with stale := true, link := 15, altLink := 15 } else e))

/-- What each of these commands answers, under conditions on the state and its operands alone: ITEM_RESUME (R157), ITEM_END (R156),
PRIO_AGE_TICK (R155), BUDGET_WINDOW (R160), CORE_DRAIN (R163), CORE_DRAINED (R163), SCHED_STATS (R167), SCHED_SAT_CLEAR (R167),
WORK_ITEM_CREATE (R151), ITEM_DISPATCH (R155). In it the time line is the model's (log 1) and outputs, journal bodies and tags are named as
the model names them (log 10). -/
def Obligations.SchedulerCommands : Prop :=
  -- itemResume
  (∀ (slot : Nat) (s : State) (i : Item),
      itemAt s slot = some i →
      isUp s 9 = true →
      i.state = .parked →
      i.step = .authed ∨ i.step = .posted ∨ i.step = .thirdPath →
      (s.sch.items.all fun u => u.cls != 2) = true →
      ∃ t, exec (.itemResume slot) s = .next t ∧
        itemAt t slot = some { i with state := .ready, since := s.now, aged := 0, front := s.sch.resumes + 1 }) ∧
  -- itemResumeBusy
  (∀ (slot : Nat) (s : State) (i : Item),
      itemAt s slot = some i →
      i.state ≠ .parked →
      ∃ t, exec (.itemResume slot) s = .next t ∧
        t = s) ∧
  -- itemEnd
  (∀ (slot : Nat) (failed : Bool) (s : State) (i : Item),
      itemAt s slot = some i →
      isUp s 9 = true →
      i.step = .posted →
      i.notify0 = none →
      i.notify1 = none →
      s.sch.asks = [] →
      ∃ t, exec (.itemEnd slot failed) s = .next t ∧
        itemAt t slot = none ∧ t.sch.items.length < s.sch.items.length) ∧
  -- itemEndNotify
  (∀ (slot : Nat) (failed : Bool) (s : State) (i j : Item) (c k : Nat) (n : DepCounter),
      itemAt s slot = some i →
      isUp s 9 = true →
      i.step = .posted →
      i.notify0 = some c →
      i.notify1 = none →
      s.sch.asks = [] →
      (s.sch.items.all fun u => u.cls != 2) = true →
      Tab.get s.sch.deps c = some n →
      n.value = 1 →
      n.item = some k →
      k ≠ slot →
      itemAt s k = some j →
      j.state = .waiting →
      ∃ t, exec (.itemEnd slot failed) s = .next t ∧
        itemAt t slot = none ∧ (itemAt t k).map (fun j => (j.state, j.depFailed)) = some (.ready, failed || n.failed) ∧
        Tab.get t.sch.deps c = none) ∧
  -- prioAgeTick
  (∀ (slot : Nat) (s : State) (i : Item),
      itemAt s slot = some i →
      i.state = .ready →
      i.prio + i.aged < 7 →
      ∃ t, exec (.prioAgeTick slot) s = .next t ∧
        itemAt t slot = some { i with aged := i.aged + 1 }) ∧
  -- budgetWindow
  (∀ (s : State),
      isUp s 9 = true →
      ∃ t, exec .budgetWindow s = .next t ∧
        t.sch.busyNow = [0, 0, 0] ∧ t.sch.set = s.sch.nextSet.getD s.sch.set ∧ t.sch.nextSet = none) ∧
  -- budgetWindowIdle
  (∀ (s : State),
      isUp s 9 = true →
      (s.sch.items.all fun i => i.state == .ready || i.state == .parked || i.state == .waiting) = true →
      ∃ t, exec .budgetWindow s = .next t ∧
        t.sch.busy = s.sch.busyNow ∧ t.sch.used = s.sch.used - budgetNs s) ∧
  -- budgetWindowRunning
  (∀ (s : State) (i : Item) (c : Nat),
      isUp s 9 = true →
      s.sch.items = [i] →
      i.state = .running c →
      i.cls = 1 →
      ∃ t, exec .budgetWindow s = .next t ∧
        t.sch.busy = modAt s.sch.busyNow 1 (· + (t.now - i.charged)) ∧
        t.sch.used = s.sch.used + (t.now - i.charged) - budgetNs s) ∧
  -- coreDrain
  (∀ (core : Nat) (s : State),
      isUp s 9 = true →
      (s.sch.cores.getD core Core.reset).powered = true →
      core < s.sch.cores.length →
      ∃ t, exec (.coreDrain core) s = .next t ∧
        (t.sch.cores.getD core Core.reset).draining = true ∧ slottedOn t core = [] ∧
        (∀ i ∈ s.sch.items, i.state = .slotted core → { i with state := .ready, front := 0 } ∈ t.sch.items)) ∧
  -- coreDrained
  (∀ (core : Nat) (s : State),
      (s.sch.cores.getD core Core.reset).draining = true →
      runningOn s core = none →
      (s.sch.items.any fun i => i.state == .preempted core) = false →
      core < s.sch.cores.length →
      ∃ t, exec (.coreDrained core) s = .next t ∧
        (t.sch.cores.getD core Core.reset).drained = true ∧ (t.sch.cores.getD core Core.reset).draining = false ∧
        (t.sch.cores.getD core Core.reset).powered = ((s.sch.cores.getD core Core.reset).powered && decide (core < coresIn s))) ∧
  -- schedStats
  (∀ (d : Nat) (s : State) (x : Desc),
      Ready 0x4D d s x →
      u64 x.bytes 24 % 64 = 0 →
      ∃ t, exec (.schedStats d) s = .next t ∧
        Done d 0 0 [] t ∧ PutOut s (u64 x.bytes 24) (padTo 64 (s.sch.stats.flatMap (toLE 4))) t ∧ t.sch.stats = if bit (u8 x.bytes 16) 0 then List.replicate 8 0 else s.sch.stats) ∧
  -- schedSatClear
  (∀ (v : BitVec 32) (s : State),
      regOpen s 9 = true →
      ∃ t, exec (.schedSatClear v) s = .next t ∧
        t.sch.sat = andNot 8 s.sch.sat (v.toNat / 2 ^ 24)) ∧
  -- workItemCreateReading
  (∀ (q : Nat) (s : State) (f : QFrame) (r : List QFrame) (k : Nat),
      isUp s 4 = true →
      isUp s 9 = true →
      q < s.ik.queues.length →
      (queueOf s q).taken = f :: r →
      badHeader f = false →
      freeSlot s (poolOf true 0) = some k →
      ∃ t, exec (.workItemCreate (.reading q)) s = .next t ∧
        (queueOf t q).taken = r ∧
        (itemAt t k).map (fun i => (i.space, i.key, i.cls, i.prio, i.step)) = some (0, frameId f.bytes, 0, s.sch.set.readingPrio, .lookup) ∧
        t.sch.arrival = s.sch.arrival + 1) ∧
  -- workItemCreateReadingBad
  (∀ (q : Nat) (s : State) (f : QFrame) (r : List QFrame),
      isUp s 4 = true →
      isUp s 9 = true →
      q < s.ik.queues.length →
      (queueOf s q).taken = f :: r →
      badHeader f = true →
      ∃ t, exec (.workItemCreate (.reading q)) s = .next t ∧
        (queueOf t q).taken = r ∧ t.sch = s.sch) ∧
  -- workItemCreateHost
  (∀ (d : Nat) (s : State) (x : Desc) (k : Nat),
      isUp s 9 = true →
      isUp s 10 = true →
      descOf s d = some x →
      x.stage = .started →
      itemOfDesc s x.id = none →
      (s.sch.asks.any fun w => w.item.desc == some x.id) = false →
      needsAtoll (opcodeOf x) = true →
      onFlow (opcodeOf x) = false →
      freeSlot s (poolOf false 0) = some k →
      ∃ t, exec (.workItemCreate (.host d)) s = .next t ∧
        (itemAt t k).map (fun i => (i.space, i.key, i.cls, i.prio, i.desc)) = some (1, x.ring, 0, (ringOf s x.ring).prio, some x.id)) ∧
  -- workItemCreateMeter
  (∀ (d : Nat) (s : State) (x : Desc) (k m : Nat) (e : MEntry),
      isUp s 9 = true →
      isUp s 10 = true →
      descOf s d = some x →
      x.stage = .started →
      itemOfDesc s x.id = none →
      (s.sch.asks.any fun w => w.item.desc == some x.id) = false →
      onFlow (opcodeOf x) = true →
      onNodeFlow x.bytes (opcodeOf x) = false →
      opcodeOf x ≠ 0x32 →
      refMeter true s x.bytes = some (m, e) →
      freeSlot s (poolOf false 0) = some k →
      ∃ t, exec (.workItemCreate (.host d)) s = .next t ∧
        (itemAt t k).map (fun i => (i.space, i.key, i.cls, i.prio, i.desc)) = some (0, e.id, 0, (ringOf s x.ring).prio, some x.id)) ∧
  -- workItemCreateValve
  (∀ (d : Nat) (s : State) (x : Desc) (k m : Nat) (e : MEntry),
      isUp s 9 = true →
      isUp s 10 = true →
      descOf s d = some x →
      x.stage = .started →
      itemOfDesc s x.id = none →
      (s.sch.asks.any fun w => w.item.desc == some x.id) = false →
      opcodeOf x = 0x32 →
      refMeter true s x.bytes = some (m, e) →
      freeSlot s (poolOf false 2) = some k →
      ∃ t, exec (.workItemCreate (.host d)) s = .next t ∧
        (itemAt t k).map (fun i => (i.space, i.key, i.cls, i.deadline, i.desc)) = some (0, e.id, 2, u16 x.bytes 30, some x.id)) ∧
  -- workItemCreateOther
  (∀ (cls prio space key handler : Nat) (noFlow : Bool) (n0 n1 : Option Nat) (deadline : Nat) (s : State) (k : Nat),
      isUp s 9 = true →
      cls ≤ 2 →
      freeSlot s (poolOf false cls) = some k →
      ∃ t, exec (.workItemCreate (.other cls prio space key handler noFlow 0 n0 n1 deadline)) s = .next t ∧
        (itemAt t k).map (fun i => (i.cls, i.prio, i.space, i.key)) = some (cls, prio % 8, space % 4, key % 2 ^ 64) ∧
        (itemAt t k).map (fun i => (i.noFlow, i.notify0, i.notify1)) = some (noFlow, n0, n1) ∧
        t.sch.arrival = s.sch.arrival + 1) ∧
  -- workItemCreateWaiting
  (∀ (cls prio space key handler count : Nat) (noFlow : Bool) (n0 n1 : Option Nat) (deadline : Nat) (s : State) (k c : Nat),
      isUp s 9 = true →
      cls ≤ 2 →
      1 ≤ count →
      freeSlot s (poolOf false cls) = some k →
      freeCounter s = some c →
      ∃ t, exec (.workItemCreate (.other cls prio space key handler noFlow count n0 n1 deadline)) s = .next t ∧
        (itemAt t k).map (fun i => (i.state, i.dep)) = some (.waiting, some c) ∧
        Tab.get t.sch.deps c = some { value := count % 65536, item := some k, failed := false }) ∧
  -- itemDispatch
  (∀ (s : State) (c : Nat) (r : List Nat) (i : Item),
      isUp s 9 = true →
      s.sch.items = [i] →
      i.state = .ready →
      i.cls = 0 →
      i.noFlow = true →
      hasWork i = false →
      i.image = coreImage s c →
      idleCores s = c :: r →
      ∃ t, exec .itemDispatch s = .next t ∧
        runningOn t c = some { i with state := .running c, since := s.now, charged := s.now }) ∧
  -- itemDispatchLock
  (∀ (s : State) (c : Nat) (r : List Nat) (i : Item),
      isUp s 9 = true →
      s.sch.items = [i] →
      i.state = .ready →
      i.cls = 0 →
      i.noFlow = false →
      i.locked = false →
      i.released = false →
      Tab.get s.sch.locks (lockEntry s i) = none →
      hasWork i = false →
      i.image = coreImage s c →
      idleCores s = c :: r →
      ∃ t, exec .itemDispatch s = .next t ∧
        runningOn t c = some { i with state := .running c, since := s.now, charged := s.now, locked := true } ∧
        Tab.get t.sch.locks (lockEntry s i) = some i.slot) ∧
  -- itemDispatchOrder
  (∀ (s : State) (c : Nat) (r : List Nat) (i j : Item),
      isUp s 9 = true →
      s.sch.items = [i, j] →
      i.slot ≠ j.slot →
      i.state = .ready ∧ j.state = .ready →
      i.cls = 0 ∧ j.cls = 0 →
      i.noFlow = true ∧ j.noFlow = true →
      i.front = j.front →
      hasWork i = false ∧ hasWork j = false →
      i.image = coreImage s c ∧ j.image = coreImage s c →
      idleCores s = c :: r →
      ∃ t, exec .itemDispatch s = .next t ∧
        runningOn t c = some (if effPrio i < effPrio j then { j with state := .running c, since := s.now, charged := s.now } else { i with state := .running c, since := s.now, charged := s.now })) ∧
  -- itemDispatchPreempt
  (∀ (s : State) (c : Nat) (u w : Item),
      isUp s 9 = true →
      s.sch.items = [w, u] →
      w.slot ≠ u.slot →
      w.state = .running c ∧ u.state = .ready →
      w.cls = 0 ∧ u.cls = 2 →
      u.noFlow = true ∧ w.locked = false →
      hasWork u = false →
      u.image = coreImage s c →
      coreServes (s.sch.cores.getD c Core.reset) = true →
      c < s.sch.cores.length →
      idleCores s = [] →
      ∃ t, exec .itemDispatch s = .next t ∧
        (itemAt t w.slot).map (·.state) = some (.preempted c) ∧
        runningOn t c = some { u with state := .running c, since := s.now, charged := s.now }) ∧
  -- itemDispatchKat
  (∀ (s : State) (c : Nat) (r : List Nat) (i : Item) (a b : Bool),
      isUp s 9 = true →
      s.sch.items = [i] →
      i.state = .ready →
      i.cls = 1 →
      i.noFlow = true →
      i.reading = none →
      i.task = .kat a b →
      s.pw.stopB = false →
      s.sch.used < budgetNs s →
      idleCores s = c :: r →
      isUp s 6 = true ∧ isUp s 7 = true →
      s.rs.episode = false →
      ∃ t, exec .itemDispatch s = .next t ∧
        t.cv.okA = a ∧ t.cv.okB = b ∧ (a = true ∧ b = true → t.pair.katAt = some s.now) ∧
        (a = false → (islOf t 6).phase = .idleReq) ∧ (b = false → (islOf t 7).phase = .idleReq))

/-- What each of these commands answers, under conditions on the state and its operands alone: QCTRL_FLUSH (R173), FRAME_ARRIVAL (R169),
QUEUE_POLL (R171), AUTH_DONE (R181), VALIDATION_DONE (R187), REPLAY_WINDOW_END (R185), QUAR_READ (R193), QUAR_RELEASE (R194), INTAKE_SET
(R195), INTAKE_STATS (R195). In it outputs, journal bodies and tags are named as the model names them (log 10). -/
def Obligations.IntakeCommands : Prop :=
  -- qctrlFlush
  (∀ (q : Nat) (s : State),
      isUp s 10 = true →
      isUp s 4 = true →
      q < 8 →
      s.ik.queues.length = 8 →
      ∃ t, exec (.qctrlFlush q) s = .next t ∧
        (t.ik.queues.getD q Queue.reset).frames = []) ∧
  -- frameArrival
  (∀ (q : Nat) (s : State) (f : QFrame) (r : List QFrame),
      isUp s 4 = true →
      q < s.ik.queues.length →
      (queueOf s q).coming = f :: r →
      wordsUsed (queueOf s q) + frameWords f ≤ queueSize q →
      ∃ t, exec (.frameArrival q false) s = .next t ∧
        (queueOf t q).frames = (queueOf s q).frames ++ [f] ∧ (queueOf t q).coming = r) ∧
  -- frameArrivalLost
  (∀ (q : Nat) (aborted : Bool) (s : State) (f : QFrame) (r : List QFrame),
      isUp s 4 = true →
      q < s.ik.queues.length →
      (queueOf s q).coming = f :: r →
      aborted = true ∨ queueSize q < wordsUsed (queueOf s q) + frameWords f →
      ∃ t, exec (.frameArrival q aborted) s = .next t ∧
        (queueOf t q).frames = (queueOf s q).frames ∧ (queueOf t q).coming = r) ∧
  -- queuePoll
  (∀ (q : Nat) (s : State) (f : QFrame) (r : List QFrame),
      isUp s 4 = true →
      isUp s 9 = true →
      q < s.ik.queues.length →
      (queueOf s q).frames = f :: r →
      (freeSlot s (poolOf true 0)).isSome = true →
      ∃ t, exec (.queuePoll q .none true) s = .next t ∧
        (queueOf t q).frames = r ∧ (queueOf t q).taken = (queueOf s q).taken ++ [f]) ∧
  -- queuePollTag
  (∀ (q : Nat) (s : State) (e : Ecc) (f : QFrame) (r : List QFrame),
      isUp s 4 = true →
      isUp s 9 = true →
      q < s.ik.queues.length →
      (queueOf s q).frames = f :: r →
      (freeSlot s (poolOf true 0)).isSome = true →
      ∃ t, exec (.queuePoll q e false) s = .next t ∧
        (queueOf t q).frames = r ∧ (queueOf t q).taken = (queueOf s q).taken ∧ Raised 36 t) ∧
  -- authDone
  (∀ (slot : Nat) (s : State) (i : Item) (rd : Reading) (plain : Bytes),
      itemAt s slot = some i →
      i.reading = some rd →
      i.step = .authWait →
      i.state = .parked →
      isUp s 2 = true ∧ isUp s 4 = true ∧ mayAppend s = true →
      keyless s = false →
      openUnder s rd.short (frameId rd.frame) rd.frame = some (plain, false) →
      (mstateOf s rd.short).rekey = false →
      (mstateOf s rd.short).lastCounter < frameCounter rd.frame →
      ∃ t, exec (.authDone slot) s = .next t ∧
        (itemAt t slot).map (fun j => (j.step, j.reading.map (fun x => x.plain))) = some (.authed, some plain)) ∧
  -- authDoneKeyless
  (∀ (slot : Nat) (s : State) (i : Item) (rd : Reading),
      itemAt s slot = some i →
      i.reading = some rd →
      i.step = .authWait →
      i.state = .parked →
      isUp s 2 = true ∧ isUp s 4 = true ∧ mayAppend s = true →
      keyless s = true →
      rd.replay = false →
      s.ik.keylessLast.any (fun p => p.1 == frameId rd.frame && p.2 == rd.frame) = false →
      keylessCount s < keylessLimit →
      ∃ t, exec (.authDone slot) s = .next t ∧
        (itemAt t slot).map (·.step) = some .ended ∧ t.jr.next = s.jr.next + 1 ∧
        t.ik.keylessLast.head? = some (frameId rd.frame, rd.frame)) ∧
  -- validationDone
  (∀ (slot : Nat) (s : State) (i : Item) (rd : Reading) (b : Bool),
      itemAt s slot = some i →
      i.reading = some rd →
      i.step = .validWait →
      i.state = .parked →
      pickCalc s = some b →
      calcServes s rd.onB = true →
      ∃ t, exec (.validationDone slot) s = .next t ∧
        itemAt t slot = some { i with reading := some (validate s rd), step := if (validate s rd).reason = 0 ∨ isCustody s (validate s rd) = true then .convWait else .postWait }) ∧
  -- replayWindowEnd
  (∀ (s : State),
      ∃ t, exec .replayWindowEnd s = .next t ∧
        t.ik.replayWindow = windowNow t ∧ (t.ik.replayWindow ≠ s.ik.replayWindow → t.ik.replayCount = 0 ∧ t.ik.valCount = 0)) ∧
  -- quarRead
  (∀ (d : Nat) (s : State) (x : Desc),
      Ready 0xB0 d s x →
      checkFaults (logChecks x.bytes 64) = [] →
      remoteHosted s = false →
      s.db.quars.filter (fun q => u64 x.bytes 16 ≤ q.seq) = [] →
      ∃ t, exec (.quarRead d) s = .next t ∧
        Done d 0 0 (toLE 4 0 ++ toLE 8 0) t ∧ t.out = s.out) ∧
  -- quarReadSome
  (∀ (d : Nat) (s : State) (x : Desc),
      Ready 0xB0 d s x →
      checkFaults (logChecks x.bytes 64) = [] →
      (quarFill (s.db.quars.filter (fun q => u64 x.bytes 16 ≤ q.seq)) (u32 x.bytes 32) [] 0).1 ≠ [] →
      ∃ t, exec (.quarRead d) s = .next t ∧
        Done d 0 0 (toLE 4 (quarFill (s.db.quars.filter (fun q => u64 x.bytes 16 ≤ q.seq)) (u32 x.bytes 32) [] 0).2.1 ++ toLE 8 (quarFill (s.db.quars.filter (fun q => u64 x.bytes 16 ≤ q.seq)) (u32 x.bytes 32) [] 0).2.2) t ∧
        PutOut s (u64 x.bytes 24) (quarFill (s.db.quars.filter (fun q => u64 x.bytes 16 ≤ q.seq)) (u32 x.bytes 32) [] 0).1 t) ∧
  -- quarRelease
  (∀ (d : Nat) (s : State) (x : Desc) (q : Quar),
      Ready 0xB1 d s x →
      isStandby s = false →
      mayAppend s = true →
      s.db.quars.find? (fun q => q.seq == u64 x.bytes 16) = some q →
      bit (u8 x.bytes 24) 0 = true →
      ∃ t, exec (.quarRelease d) s = .next t ∧
        WaitsDurable d [] t ∧ LastBody (.config (.quarRemove q.seq)) t ∧
        t.db.quars = s.db.quars.filter (fun y => y.seq != q.seq)) ∧
  -- quarReleaseUnknown
  (∀ (d : Nat) (s : State) (x : Desc),
      Ready 0xB1 d s x →
      isStandby s = false →
      mayAppend s = true →
      s.db.quars.find? (fun q => q.seq == u64 x.bytes 16) = none →
      ∃ t, exec (.quarRelease d) s = .next t ∧
        Done d 0x20 0 [] t ∧ t.db = s.db) ∧
  -- intakeSet
  (∀ (d : Nat) (s : State) (x : Desc),
      Ready 0xB3 d s x →
      0 < u16 x.bytes 16 →
      0 < u16 x.bytes 18 →
      1 ≤ u16 x.bytes 20 ∧ u16 x.bytes 20 ≤ 3600 →
      ∃ t, exec (.intakeSet d) s = .next t ∧
        Done d 0 0 [] t ∧
        t.ik.set = { replayLimit := u16 x.bytes 16, valLimit := u16 x.bytes 18, nakHoldoff := u16 x.bytes 20 } ∧
        t.opt.intake = t.ik.set) ∧
  -- intakeStats
  (∀ (d : Nat) (s : State) (x : Desc),
      Ready 0xB2 d s x →
      u64 x.bytes 24 % 64 = 0 →
      ∃ t, exec (.intakeStats d) s = .next t ∧
        Done d 0 0 [] t ∧ PutOut s (u64 x.bytes 24) (padTo 512 (s.ik.stats.flatMap (toLE 4))) t ∧ t.ik.stats = if bit (u8 x.bytes 16) 0 then List.replicate 70 0 else s.ik.stats)

/-- What each of these commands answers, under conditions on the state and its operands alone: CONVERSION_DONE (R198), FIRMWARE_PATH_RESULT
(R213), KAT_RUN (R216), VIRIAL_SET (R209), CONV_TEST (R217), CONV_STATS (R218). In it the time line is the model's (log 1) and outputs,
journal bodies and tags are named as the model names them (log 10). -/
def Obligations.ConversionCommands : Prop :=
  -- conversionDone
  (∀ (slot : Nat) (s : State) (i : Item) (rd : Reading),
      itemAt s slot = some i →
      i.reading = some rd →
      i.step = .convWait →
      i.state = .parked →
      isCustody s rd = false →
      calcServes s rd.onB = true →
      ∃ t, exec (.conversionDone slot none none) s = .next t ∧
        itemAt t slot = some { i with reading := some (takeBlock (resultBlock s rd) rd), step := .postWait }) ∧
  -- firmwarePathResult
  (∀ (slot : Nat) (s : State) (i : Item) (rd : Reading) (core : Nat) (a b : AltBlock),
      itemAt s slot = some i →
      i.reading = some rd →
      i.step = .thirdPath →
      i.state = .running core →
      mayAppend s = true →
      rd.pathA = some a →
      rd.pathB = some b →
      a ≠ b →
      ∃ t, exec (.firmwarePathResult slot (some a)) s = .next t ∧
        (itemAt t slot).map (fun j => (j.step, j.reading)) = some (.postWait, some (takeBlock a rd)) ∧ Raised 55 t) ∧
  -- katRun
  (∀ (a b : Bool) (s : State) (k : Nat),
      isUp s 1 = true →
      isUp s 9 = true →
      freeSlot s (poolOf false 1) = some k →
      ∃ t, exec (.katRun a b) s = .next t ∧
        (itemAt t k).map (fun i => (i.cls, i.noFlow, i.task)) = some (1, true, .kat a b) ∧ t.cv.katFrom = t.now) ∧
  -- virialSet
  (∀ (d : Nat) (s : State) (x : Desc) (data : Bytes),
      Ready 0xB8 d s x →
      u8 x.bytes 16 ≤ 15 →
      2 ≤ u8 x.bytes 17 ∧ u8 x.bytes 17 ≤ 32 →
      u64 x.bytes 24 % 16 = 0 →
      x.input = some data →
      isStandby s = false →
      mayAppend s = true →
      virialFault (virialPoints (data.take (16 * u8 x.bytes 17))) = none →
      oldVirialInUse s (u8 x.bytes 16) = false →
      virialComing s (u8 x.bytes 16) = false →
      ∃ t, exec (.virialSet d) s = .next t ∧
        WaitsDurable d [] t ∧ LastBody (.config (.virial (u8 x.bytes 16) (virialPoints (data.take (16 * u8 x.bytes 17))))) t ∧
        t.db = s.db ∧ t.jr.next = s.jr.next + 1) ∧
  -- convTest
  (∀ (d : Nat) (s : State) (x : Desc) (data : Bytes),
      Ready 0xB9 d s x →
      u64 x.bytes 24 % 64 = 0 →
      x.input = some data →
      (testFaults s data).min? = none →
      ((bit (u8 data 2) 0 = true → calcServes s false = true) ∧ (bit (u8 data 2) 1 = true → calcServes s true = true)) →
      ∃ t, exec (.convTest d) s = .next t ∧
        Done d 0 0 (toLE 2 (convNow s) ++ toLE 1 (if bit (u8 data 2) 0 then u8 data 2 else 0)) t ∧ t.db = s.db ∧ t.jr = s.jr) ∧
  -- convStats
  (∀ (d : Nat) (s : State) (x : Desc),
      Ready 0xBA d s x →
      u64 x.bytes 24 % 64 = 0 →
      ∃ t, exec (.convStats d) s = .next t ∧
        Done d 0 0 (toLE 2 (convNow s)) t ∧ PutOut s (u64 x.bytes 24) (padTo 64 (s.cv.stats.flatMap (toLE 4))) t ∧ t.cv.stats = if bit (u8 x.bytes 16) 0 then List.replicate 10 0 else s.cv.stats)

/-- What each of these commands answers, under conditions on the state and its operands alone: PHASE_P5_END (R241), POSTING_APPEND (R248),
TARIFF_CODE_STABLE (R225), TARIFF_OVERRIDE_EXPIRE (R226), CALENDAR_CROSS (R235), BILLING_SWEEP (R235). In it the time line is the model's
(log 1) and outputs, journal bodies and tags are named as the model names them (log 10). -/
def Obligations.PostingsAndTariffs : Prop :=
  -- phaseP5End
  (∀ (s : State),
      inPhase 5 s = true →
      isUp s 3 = true →
      readyToRun s [4, 5, 6, 7, 8, 9] = true →
      s.rs.recovery = false →
      ∃ t, exec .phaseP5End s = .next t ∧
        t.rs.phase = 6 ∧ t.fl.lostRec = none) ∧
  -- postingAppend
  (∀ (slot : Nat) (s : State) (i : Item) (rd : Reading) (e : MEntry),
      itemAt s slot = some i →
      i.reading = some rd →
      i.step = .postWait →
      i.state = .parked →
      mayAppend s = true →
      poolHasRoom s 2 = true →
      entryOf s rd.short = some e →
      frameType rd.frame = 3 →
      rd.replay = false →
      ∃ t, exec (.postingAppend slot) s = .next t ∧
        (itemAt t slot).map (·.step) = some .posted ∧ s.jr.next + 1 ≤ t.jr.next ∧
        (mstateOf t rd.short).lastCounter = frameCounter rd.frame) ∧
  -- tariffCodeStable
  (∀ (code : Nat) (s : State),
      mayAppend s = true →
      ∃ t, exec (.tariffCodeStable code) s = .next t ∧
        t.lg.code = code ∧ t.lg.lastCode = code ∧ t.lg.sampled = true ∧ t.lg.map = s.lg.nextMap.getD s.lg.map ∧
        t.lg.nextMap = none) ∧
  -- tariffCodeStablePeriod
  (∀ (code : Nat) (s : State) (p : Nat × Nat),
      mayAppend s = true →
      s.lg.sampled = true →
      p = periodSource (onLg (fun l => { l with lastCode := code, map := l.nextMap.getD l.map }) s) →
      ∃ t, exec (.tariffCodeStable code) s = .next t ∧
        t.lg.period = p.1 ∧ t.lg.source = p.2 ∧ (p.1 ≠ periodNow s.db.timeline → Raised 45 t ∧ periodNow t.db.timeline = p.1)) ∧
  -- tariffOverrideExpire
  (∀ (s : State) (p e : Nat),
      s.lg.ovr = some (p, some e) →
      isUp s 8 = true →
      ∃ t, exec .tariffOverrideExpire s = .next t ∧
        t.lg.ovr = none ∧ e ≤ t.now) ∧
  -- calendarCross
  (∀ (cal : Nat) (s : State) (b : Int × Int),
      mayAppend s = true →
      s.tm.validSeen = true →
      cal < s.db.crossings.length →
      comingBoundary s cal = some b →
      cal ≠ 0 ∨ s.opt.nextZone = none →
      ∃ t, exec (.calendarCross cal) s = .next t ∧
        t.db.crossings.getD cal (0, 0, 0) = (min 65535 (crossCount s cal + 1), ((b.1 * 1000000000).toNat : Int), b.2) ∧
        (cal, min 65535 (crossCount s cal + 1), b.1 * 1000000000) ∈ t.lg.sweeps ∧
        LastBody (.calCross cal (min 65535 (crossCount s cal + 1)) (b.1 * 1000000000).toNat b.2) t) ∧
  -- calendarCrossZone
  (∀ (s : State) (b : Int × Int) (z : Int),
      mayAppend s = true →
      s.tm.validSeen = true →
      comingBoundary s 0 = some b →
      s.opt.nextZone = some z →
      ∃ t, exec (.calendarCross 0) s = .next t ∧
        t.opt.nextZone = none ∧ t.opt.zone.zone = z ∧ t.tm.zone.zone = z ∧
        (t.lg.sweeps.getLast?).map (fun w => (w.1, w.2.2)) = some (0, b.1 * 1000000000)) ∧
  -- billingSweep
  (∀ (cal : Nat) (s : State) (w : Nat × Nat × Int),
      s.lg.sweeps.find? (fun w => w.1 == cal) = some w →
      mayAppend s = true →
      isUp s 9 = true →
      ∃ t, exec (.billingSweep cal) s = .next t ∧
        t.lg.sweeps = s.lg.sweeps.erase w ∧ Raised 46 t) ∧
  -- billingSweepMeter
  (∀ (cal : Nat) (s : State) (w : Nat × Nat × Int) (k : Nat),
      s.lg.sweeps.find? (fun w => w.1 == cal) = some w →
      mayAppend s = true →
      isUp s 9 = true →
      ledgerMeters s = [k] →
      channelOf s k = none →
      closeDue s k cal w.2.1 w.2.2 = true →
      ∃ t, exec (.billingSweep cal) s = .next t ∧
        billNoOf t k = w.2.1 ∧ ((Tab.getD t.db.snaps k []).head?).map (fun p => p.2.closeTime) = some (stampOf w.2.2))

/-- What each of these commands answers, under conditions on the state and its operands alone: TARIFF_MAP_SET (R250), TARIFF_OVERRIDE
(R226), TARIFF_FOLLOW (R226), BILL_CAL_SET (R234), CUSTODY_SET (R250), LEDGER_READ (R250), PROFILE_READ (R246), AUDIT_READ (R245),
LEDGER_SET (R238), LEDGER_STATS (R250). In it the time line is the model's (log 1) and outputs, journal bodies and tags are named as the
model names them (log 10). -/
def Obligations.LedgerCommands : Prop :=
  -- tariffMapSet
  (∀ (d : Nat) (s : State) (x : Desc),
      Ready 0x20 d s x →
      isStandby s = false →
      ∃ t, exec (.tariffMapSet d) s = .next t ∧
        Done d 0 0 [] t ∧ t.opt.tariffMap = (List.range 16).map (fun k => u8 x.bytes (16 + k)) ∧
        t.lg.nextMap = some t.opt.tariffMap) ∧
  -- tariffOverride
  (∀ (d : Nat) (s : State) (x : Desc),
      Ready 0x21 d s x →
      isStandby s = false →
      ∃ t, exec (.tariffOverride d) s = .next t ∧
        Done d 0 0 (toLE 1 (periodNow t.db.timeline)) t ∧
        t.lg.ovr = (if bit (u8 x.bytes 16) 7 then some (u8 x.bytes 16 % 16, if u32 x.bytes 20 = 0 then none else some (s.now + u32 x.bytes 20 * secNs)) else none) ∧
        t.opt.ovr = t.lg.ovr) ∧
  -- tariffFollow
  (∀ (d : Nat) (s : State) (x : Desc),
      Ready 0x22 d s x →
      isStandby s = false →
      ∃ t, exec (.tariffFollow d) s = .next t ∧
        Done d 0 0 [] t ∧ t.opt.follow = bit (u8 x.bytes 16) 0) ∧
  -- billCalSet
  (∀ (d : Nat) (s : State) (x : Desc),
      Ready 0x23 d s x →
      u8 x.bytes 16 ≤ 3 →
      u8 x.bytes 17 ≤ 3 →
      ((u8 x.bytes 17 = 2 → u8 x.bytes 18 ≤ 6) ∧ (u8 x.bytes 17 = 3 → 1 ≤ u8 x.bytes 18 ∧ u8 x.bytes 18 ≤ 28)) →
      u8 x.bytes 19 ≤ 23 →
      u8 x.bytes 20 ≤ 59 →
      isStandby s = false →
      ∃ t, exec (.billCalSet d) s = .next t ∧
        Done d 0 0 (toLE 2 (crossCount s (u8 x.bytes 16))) t ∧
        t.opt.cals = setAt s.opt.cals (u8 x.bytes 16) { kind := u8 x.bytes 17, day := u8 x.bytes 18, hour := u8 x.bytes 19, minute := u8 x.bytes 20 }) ∧
  -- custodySetBind
  (∀ (d : Nat) (s : State) (x : Desc) (k : Nat) (e : MEntry),
      Ready 0x24 d s x →
      checkFaults (refChecks x.bytes) = [] →
      u8 x.bytes 28 ≤ 95 →
      refMeter false s x.bytes = some (k, e) →
      isStandby s = false →
      mayAppend s = true →
      bit (u8 x.bytes 29) 0 = true →
      e.homeSelf = true ∧ (profileFor s e.id).isSome = true ∧ pfQuantities (bodyOfShort s k) = 4 →
      (Tab.get s.db.cust (u8 x.bytes 28)).filter (·.enabled) = none →
      channelOf s k = none →
      (stdOf s k).prepay.enabled = false →
      ∃ t, exec (.custodySet d) s = .next t ∧
        WaitsDurable d [] t ∧
        (Tab.get t.db.cust (u8 x.bytes 28)).map (fun c => (c.short, c.enabled, c.tot)) = some (k, true, (stdOf s k).tot) ∧
        Tab.get t.db.std k = none ∧ Tab.get t.opt.custody (u8 x.bytes 28) = some k) ∧
  -- custodySetUnbind
  (∀ (d : Nat) (s : State) (x : Desc) (k : Nat) (e : MEntry) (cu : Cust),
      Ready 0x24 d s x →
      checkFaults (refChecks x.bytes) = [] →
      u8 x.bytes 28 ≤ 95 →
      refMeter false s x.bytes = some (k, e) →
      isStandby s = false →
      mayAppend s = true →
      bit (u8 x.bytes 29) 0 = false →
      Tab.get s.db.cust (u8 x.bytes 28) = some cu →
      cu.enabled = true ∧ cu.short = k →
      ∃ t, exec (.custodySet d) s = .next t ∧
        WaitsDurable d [] t ∧ Tab.get t.db.cust (u8 x.bytes 28) = none ∧ (Tab.get t.db.std k).isSome = true ∧
        Tab.get t.opt.custody (u8 x.bytes 28) = none) ∧
  -- custodySetBusy
  (∀ (d : Nat) (s : State) (x : Desc) (k : Nat) (e : MEntry) (cu : Cust),
      Ready 0x24 d s x →
      checkFaults (refChecks x.bytes) = [] →
      u8 x.bytes 28 ≤ 95 →
      refMeter false s x.bytes = some (k, e) →
      isStandby s = false →
      mayAppend s = true →
      bit (u8 x.bytes 29) 0 = false →
      Tab.get s.db.cust (u8 x.bytes 28) = some cu →
      cu.enabled = true ∧ cu.short ≠ k →
      ∃ t, exec (.custodySet d) s = .next t ∧
        Done d 0x21 0 [] t ∧ t.db = s.db) ∧
  -- ledgerRead
  (∀ (d : Nat) (s : State) (x : Desc) (k : Nat) (e : MEntry) (p : Snapshot),
      Ready 0x25 d s x →
      bit (u8 x.bytes 29) 0 = false →
      checkFaults (refChecks x.bytes) = [] →
      u8 x.bytes 28 ≤ 2 →
      u64 x.bytes 32 % 64 = 0 →
      refMeter true s x.bytes = some (k, e) →
      e.homeSelf = true →
      ledgerPart s k (u8 x.bytes 28) = some p →
      ∃ t, exec (.ledgerRead d) s = .next t ∧
        Done d 0 0 (toLE 2 p.billNo) t ∧ PutOut s (u64 x.bytes 32) (snapBytes p) t) ∧
  -- ledgerReadChannel
  (∀ (d : Nat) (s : State) (x : Desc) (cu : Cust) (p : Snapshot),
      Ready 0x25 d s x →
      bit (u8 x.bytes 29) 0 = true →
      (List.range 12).all (fun i => u8 x.bytes (16 + i) == 0) = true →
      u8 x.bytes 30 ≤ 95 →
      u8 x.bytes 28 ≤ 2 →
      u64 x.bytes 32 % 64 = 0 →
      (Tab.get s.db.cust (u8 x.bytes 30)).filter (·.enabled) = some cu →
      ledgerPart s cu.short (u8 x.bytes 28) = some p →
      ∃ t, exec (.ledgerRead d) s = .next t ∧
        Done d 0 0 (toLE 2 p.billNo) t ∧ PutOut s (u64 x.bytes 32) (snapBytes p) t) ∧
  -- ledgerReadUnbound
  (∀ (d : Nat) (s : State) (x : Desc),
      Ready 0x25 d s x →
      bit (u8 x.bytes 29) 0 = true →
      (List.range 12).all (fun i => u8 x.bytes (16 + i) == 0) = true →
      u8 x.bytes 30 ≤ 95 →
      u8 x.bytes 28 ≤ 2 →
      u64 x.bytes 32 % 64 = 0 →
      (Tab.get s.db.cust (u8 x.bytes 30)).filter (·.enabled) = none →
      ∃ t, exec (.ledgerRead d) s = .next t ∧
        Done d 0x23 0 [] t ∧ t.out = s.out) ∧
  -- profileRead
  (∀ (d : Nat) (s : State) (x : Desc) (l : List Minute),
      Ready 0x26 d s x →
      u8 x.bytes 16 ≤ 95 →
      checkFaults (logChecks x.bytes 64) = [] →
      enabledChannel s (u8 x.bytes 16) = true →
      l = (Tab.getD s.db.minutes (u8 x.bytes 16) []).reverse.filter (fun m => u32 x.bytes 20 ≤ m.minute) →
      ∃ t, exec (.profileRead d) s = .next t ∧
        Done d 0 0 (toLE 4 (l.take (u32 x.bytes 32 / 64)).length ++ toLE 4 (((l.drop (u32 x.bytes 32 / 64)).head?.map (·.minute)).getD 0)) t ∧
        PutOut s (u64 x.bytes 24) ((l.take (u32 x.bytes 32 / 64)).flatMap minuteBytes) t) ∧
  -- auditRead
  (∀ (d : Nat) (s : State) (x : Desc),
      Ready 0x27 d s x →
      u8 x.bytes 16 ≤ 95 →
      checkFaults (logChecks x.bytes 32) = [] →
      enabledChannel s (u8 x.bytes 16) = true →
      ∃ t, exec (.auditRead d) s = .next t ∧
        LogRead d 32 s x.bytes ((Tab.getD s.db.audits (u8 x.bytes 16) []).reverse.map (fun a => (a.seq, auditBytes a))) t) ∧
  -- ledgerSet
  (∀ (d : Nat) (s : State) (x : Desc),
      Ready 0x28 d s x →
      100 ≤ u32 x.bytes 16 ∧ u32 x.bytes 16 ≤ 60000 →
      isStandby s = false →
      ∃ t, exec (.ledgerSet d) s = .next t ∧
        Done d 0 0 [] t ∧ t.opt.stepLimit = u32 x.bytes 16) ∧
  -- ledgerStats
  (∀ (d : Nat) (s : State) (x : Desc),
      Ready 0x29 d s x →
      u64 x.bytes 24 % 64 = 0 →
      ∃ t, exec (.ledgerStats d) s = .next t ∧
        Done d 0 0 [] t ∧ PutOut s (u64 x.bytes 24) (padTo 64 (s.lg.stats.flatMap (toLE 4))) t ∧ t.lg.stats = if bit (u8 x.bytes 16) 0 then List.replicate 6 0 else s.lg.stats)

/-- What each of these commands answers, under conditions on the state and its operands alone: FRIENDLY_END (R258), VALVE_RETRY (R257),
PREPAY_SET (R260), TOPUP (R260), VALVE_CMD (R260), FRIENDLY_SET (R259), PREPAY_READ (R260), PREPAY_LOG_READ (R261), PREPAY_STATS (R260). In
it the time line is the model's (log 1). -/
def Obligations.PrepaymentCommands : Prop :=
  -- friendlyEnd
  (∀ (s u : State) (k : Nat) (cu : Std),
      toFriendlyEnd 9 s = u →
      mayAppend u = true →
      u.tm.validSeen = true →
      isFriendly u (taiSec u) = false →
      u.db.std = [(k, cu)] →
      cu.prepay.valve = 1 →
      maySendTo u k = true →
      ∃ t, exec .friendlyEnd s = .next t ∧
        (stdOf t k).prepay.valve = 2 ∧ (valveOf t k).flight.isSome = true) ∧
  -- valveRetry
  (∀ (k : Nat) (s : State) (f : Nat × Nat × Nat × Nat),
      mayAppend s = true →
      (valveOf s k).flight = some f →
      (Tab.get s.db.std k).isSome = true →
      maySendTo s k = true →
      (stdOf s k).prepay.tries ≠ 0 →
      ∃ t, exec (.valveRetry k) s = .next t ∧
        (stdOf t k).prepay.tries = min 7 ((stdOf s k).prepay.tries + 1) ∧ (valveOf t k).flight = some f ∧
        (valveOf t k).sentAt = t.now ∧ (valveOf s k).sentAt + pfRetryTime (bodyOfShort s k) * secNs ≤ t.now) ∧
  -- prepaySet
  (∀ (d : Nat) (s : State) (x : Desc) (k : Nat) (e : MEntry),
      Ready 0x30 d s x →
      InTurn s x →
      checkFaults (refChecks x.bytes) = [] →
      refMeter false s x.bytes = some (k, e) →
      isStandby s = false →
      mayAppend s = true →
      prepayRefusal s k e false = none →
      (Tab.get s.db.std k).isSome = true →
      ∃ t, exec (.prepaySet d) s = .next t ∧
        WaitsDurable d [] t ∧
        (stdOf t k).prepay = { (stdOf s k).prepay with enabled := bit (u8 x.bytes 28) 7, level := u8 x.bytes 28 % 4, hostHold := bit (u8 x.bytes 29) 0 } ∧
        (stdOf t k).credit = (stdOf s k).credit) ∧
  -- prepaySetRefused
  (∀ (d : Nat) (s : State) (x : Desc) (k : Nat) (e : MEntry) (st : Nat),
      Ready 0x30 d s x →
      InTurn s x →
      checkFaults (refChecks x.bytes) = [] →
      refMeter false s x.bytes = some (k, e) →
      isStandby s = false →
      prepayRefusal s k e false = some st →
      ∃ t, exec (.prepaySet d) s = .next t ∧
        Done d st 0 [] t ∧ t.db = s.db) ∧
  -- topup
  (∀ (d : Nat) (s : State) (x : Desc) (k : Nat) (e : MEntry),
      Ready 0x31 d s x →
      InTurn s x →
      checkFaults (refChecks x.bytes) = [] →
      u64 x.bytes 32 ≠ 0 →
      refMeter false s x.bytes = some (k, e) →
      isStandby s = false →
      mayAppend s = true →
      prepayRefusal s k e true = none →
      (Tab.get s.db.std k).isSome = true →
      ∃ t, exec (.topup d) s = .next t ∧
        WaitsDurable d (toLE 6 (ofInt 48 (satCredit ((stdOf s k).credit + i64 x.bytes 32)))) t ∧
        (stdOf t k).credit = satCredit ((stdOf s k).credit + i64 x.bytes 32)) ∧
  -- valveCmd
  (∀ (d : Nat) (s : State) (x : Desc) (k : Nat) (e : MEntry),
      Ready 0x32 d s x →
      InTurn s x →
      checkFaults (refChecks x.bytes) = [] →
      u8 x.bytes 28 < 2 →
      refMeter false s x.bytes = some (k, e) →
      isStandby s = false →
      mayAppend s = true →
      prepayRefusal s k e true = none →
      (Tab.get s.db.std k).isSome = true →
      (valveOf s k).flight = none →
      ∃ t, exec (.valveCmd d) s = .next t ∧
        WaitsDurable d (toLE 2 (((valveOf s k).cmdSeq + 1) % 65536)) t ∧ (valveOf t k).cmdSeq = ((valveOf s k).cmdSeq + 1) % 65536 ∧ ((valveOf t k).flight).map (·.1) = some (if u8 x.bytes 28 = 0 then 0x20 else 0x21) ∧ (stdOf t k).prepay.valve = if u8 x.bytes 28 = 0 then 2 else 4) ∧
  -- valveCmdBusy
  (∀ (d : Nat) (s : State) (x : Desc) (k : Nat) (e : MEntry),
      Ready 0x32 d s x →
      InTurn s x →
      checkFaults (refChecks x.bytes) = [] →
      u8 x.bytes 28 < 2 →
      refMeter false s x.bytes = some (k, e) →
      isStandby s = false →
      mayAppend s = true →
      prepayRefusal s k e true = none →
      (valveOf s k).flight.isSome = true →
      ∃ t, exec (.valveCmd d) s = .next t ∧
        Done d 0x22 0 [] t ∧ t.db = s.db) ∧
  -- friendlySet
  (∀ (d : Nat) (s : State) (x : Desc) (data : Bytes),
      Ready 0x33 d s x →
      u64 x.bytes 24 % 64 = 0 →
      x.input = some data →
      isStandby s = false →
      friendlyFaults data = [] →
      ∃ t, exec (.friendlySet d) s = .next t ∧
        Done d 0 0 [] t ∧
        t.opt.friendly = (List.range 32).map (fun i => (u8 data (8 * i), u16 data (8 * i + 2), u16 data (8 * i + 4))) ∧
        t.opt.holidays = (List.range 64).map (fun j => u16 data (256 + 2 * j))) ∧
  -- prepayRead
  (∀ (d : Nat) (s : State) (x : Desc) (k : Nat) (e : MEntry),
      Ready 0x34 d s x →
      InTurn s x →
      checkFaults (refChecks x.bytes) = [] →
      refMeter false s x.bytes = some (k, e) →
      prepayRefusal s k e false = none →
      ∃ t, exec (.prepayRead d) s = .next t ∧
        Done d 0 0 (toLE 6 (ofInt 48 (stdOf s k).credit) ++ toLE 2 (prepayWord (stdOf s k).prepay)) t) ∧
  -- prepayLogRead
  (∀ (d : Nat) (s : State) (x : Desc),
      Ready 0x35 d s x →
      checkFaults (logChecks x.bytes 32) = [] →
      ∃ t, exec (.prepayLogRead d) s = .next t ∧
        LogRead d 32 s x.bytes (s.db.plog.reverse.map (fun l => (l.seq, prepayLogBytes l))) t) ∧
  -- prepayStats
  (∀ (d : Nat) (s : State) (x : Desc),
      Ready 0x36 d s x →
      u64 x.bytes 24 % 64 = 0 →
      ∃ t, exec (.prepayStats d) s = .next t ∧
        Done d 0 0 [] t ∧ PutOut s (u64 x.bytes 24) (padTo 64 (s.lg.prepayStats.flatMap (toLE 4))) t ∧ t.lg.prepayStats = if bit (u8 x.bytes 16) 0 then List.replicate 7 0 else s.lg.prepayStats)

/-- What each of these commands answers, under conditions on the state and its operands alone: BALANCE_FOLD (R269), BAL_WAIT_EXPIRE (R271),
NODE_SET (R263), NODE_MEMBER (R267), NODE_READ (R265), NODE_RELEARN (R272), BAL_REPORT_READ (R282), INDICATOR_READ (R276), INDICATOR_CLEAR
(R276), BAL_STATS (R284). In it outputs, journal bodies and tags are named as the model names them (log 10). -/
def Obligations.BalanceCommands : Prop :=
  -- balanceFold
  (∀ (s : State) (r : JRec) (rest : List JRec) (p : PostBody),
      s.lg.folds = r :: rest →
      mayAppend s = true →
      r.body = .posting p →
      ∃ t, exec (.balanceFold r.seq) s = .next t ∧
        t.lg.folds = rest ∧ t.db.folded = max s.db.folded r.seq) ∧
  -- balWaitExpire
  (∀ (node : Nat) (s : State) (n : Node) (p : Nat),
      Tab.get s.db.nodes node = some n →
      n.passes.head? = some p →
      n.enabled = true →
      mayAppend s = true →
      p + n.wait ≤ s.rs.opSeconds →
      ∃ t, exec (.balWaitExpire node) s = .next t ∧
        (Tab.get t.db.nodes node).map (fun m => decide (n.nextClose + n.balLen ≤ m.nextClose)) = some true) ∧
  -- nodeSetNew
  (∀ (d : Nat) (s : State) (x : Desc) (k : Nat),
      Ready 0x38 d s x →
      InTurn s x →
      checkFaults (nodeSetChecks x.bytes) = [] →
      isStandby s = false →
      mayAppend s = true →
      Tab.get s.db.nodes (u16 x.bytes 16) = none →
      bit (u8 x.bytes 23) 0 = true →
      depthUnder s (u16 x.bytes 16) (if u16 x.bytes 18 = 65535 then none else some (u16 x.bytes 18)) = some k →
      ∃ t, exec (.nodeSet d) s = .next t ∧
        WaitsDurable d (toLE 1 k) t ∧
        (Tab.get t.db.nodes (u16 x.bytes 16)).map (fun n => (n.parent, n.depth, n.balQ, n.balLen, n.eNode, n.enabled)) = some ((if u16 x.bytes 18 = 65535 then none else some (u16 x.bytes 18)), k, u8 x.bytes 20, u8 x.bytes 21, i8 x.bytes 22, true)) ∧
  -- nodeSetRemove
  (∀ (d : Nat) (s : State) (x : Desc) (n : Node),
      Ready 0x38 d s x →
      InTurn s x →
      checkFaults (nodeSetChecks x.bytes) = [] →
      isStandby s = false →
      mayAppend s = true →
      Tab.get s.db.nodes (u16 x.bytes 16) = some n →
      bit (u8 x.bytes 23) 0 = false →
      hasMeters s (u16 x.bytes 16) = false →
      hasChildren s (u16 x.bytes 16) = false →
      ∃ t, exec (.nodeSet d) s = .next t ∧
        WaitsDurable d (toLE 1 n.depth) t ∧ Tab.get t.db.nodes (u16 x.bytes 16) = none) ∧
  -- nodeSetChange
  (∀ (d : Nat) (s : State) (x : Desc) (n : Node),
      Ready 0x38 d s x →
      InTurn s x →
      checkFaults (nodeSetChecks x.bytes) = [] →
      isStandby s = false →
      mayAppend s = true →
      Tab.get s.db.nodes (u16 x.bytes 16) = some n →
      bit (u8 x.bytes 23) 0 = true ∧ n.enabled = true →
      n.parent = (if u16 x.bytes 18 = 65535 then none else some (u16 x.bytes 18)) ∧ n.balQ = u8 x.bytes 20 ∧ n.balLen = u8 x.bytes 21 ∧ n.eNode = i8 x.bytes 22 →
      depthUnder s (u16 x.bytes 16) n.parent = some n.depth →
      ∃ t, exec (.nodeSet d) s = .next t ∧
        WaitsDurable d (toLE 1 n.depth) t ∧
        Tab.get t.db.nodes (u16 x.bytes 16) = some { n with judgeEst := bit (u8 x.bytes 23) 1, reportAll := bit (u8 x.bytes 23) 2, k := u16 x.bytes 24, h := u16 x.bytes 26, wait := u32 x.bytes 28 }) ∧
  -- nodeMember
  (∀ (d : Nat) (s : State) (x : Desc) (k : Nat) (e : MEntry) (n : Node) (m : Memb),
      Ready 0x39 d s x →
      InTurn s x →
      checkFaults (refChecks x.bytes) = [] →
      refMeter false s x.bytes = some (k, e) →
      isStandby s = false →
      mayAppend s = true →
      e.homeSelf = true →
      Tab.get s.db.nodes (u16 x.bytes 28) = some n →
      m = Tab.getD s.db.memb k Memb.none →
      bit (u8 x.bytes 30) 1 = false →
      roleRefusal s k (u16 x.bytes 28) n (bit (u8 x.bytes 30) 0) m = none →
      (if bit (u8 x.bytes 30) 0 then m.memberOf else m.supplyOf) = none →
      ∃ t, exec (.nodeMember d) s = .next t ∧
        WaitsDurable d (toLE 4 (nextGrid s n.balLen)) t ∧
        (Tab.get t.db.memb k).map (fun m => if bit (u8 x.bytes 30) 0 then m.memberOf else m.supplyOf) = some (some (u16 x.bytes 28)) ∧
        (Tab.get t.db.nodes (u16 x.bytes 28)).map (·.changes) = some (addChange n (nextGrid s n.balLen) (bit (u8 x.bytes 30) 0) 1 (!bit (u8 x.bytes 30) 2)).changes) ∧
  -- nodeMemberLeave
  (∀ (d : Nat) (s : State) (x : Desc) (k : Nat) (e : MEntry) (n : Node) (m : Memb),
      Ready 0x39 d s x →
      InTurn s x →
      checkFaults (refChecks x.bytes) = [] →
      refMeter false s x.bytes = some (k, e) →
      isStandby s = false →
      mayAppend s = true →
      e.homeSelf = true →
      Tab.get s.db.nodes (u16 x.bytes 28) = some n →
      Tab.get s.db.memb k = some m →
      bit (u8 x.bytes 30) 1 = true →
      if bit (u8 x.bytes 30) 0 then m.memberOf = some (u16 x.bytes 28) ∧ m.leaveM = none else m.supplyOf = some (u16 x.bytes 28) ∧ m.leaveS = none →
      (if bit (u8 x.bytes 30) 0 then m.endM else m.endS) < nextGrid s n.balLen →
      ∃ t, exec (.nodeMember d) s = .next t ∧
        WaitsDurable d (toLE 4 (nextGrid s n.balLen)) t ∧
        Tab.get t.db.memb k = some (if bit (u8 x.bytes 30) 0 then { m with leaveM := some (nextGrid s n.balLen) } else { m with leaveS := some (nextGrid s n.balLen) })) ∧
  -- nodeMemberNotHeld
  (∀ (d : Nat) (s : State) (x : Desc) (k : Nat) (e : MEntry) (n : Node) (m : Memb),
      Ready 0x39 d s x →
      InTurn s x →
      checkFaults (refChecks x.bytes) = [] →
      refMeter false s x.bytes = some (k, e) →
      isStandby s = false →
      mayAppend s = true →
      e.homeSelf = true →
      Tab.get s.db.nodes (u16 x.bytes 28) = some n →
      m = Tab.getD s.db.memb k Memb.none →
      bit (u8 x.bytes 30) 1 = true →
      (if bit (u8 x.bytes 30) 0 then m.memberOf else m.supplyOf) ≠ some (u16 x.bytes 28) →
      ∃ t, exec (.nodeMember d) s = .next t ∧
        Done d 2 30 [] t ∧ t.db = s.db) ∧
  -- nodeRead
  (∀ (d : Nat) (s : State) (x : Desc) (n : Node),
      Ready 0x3A d s x →
      InTurn s x →
      u64 x.bytes 24 % 64 = 0 →
      Tab.get s.db.nodes (u16 x.bytes 16) = some n →
      ∃ t, exec (.nodeRead d) s = .next t ∧
        Done d 0 0 [] t ∧ PutOut s (u64 x.bytes 24) (padTo 2176 (nodeBytes (u16 x.bytes 16) n ++ n.slots.flatMap slotBytes)) t) ∧
  -- nodeReadNone
  (∀ (d : Nat) (s : State) (x : Desc),
      Ready 0x3A d s x →
      InTurn s x →
      u64 x.bytes 24 % 64 = 0 →
      Tab.get s.db.nodes (u16 x.bytes 16) = none →
      ∃ t, exec (.nodeRead d) s = .next t ∧
        Done d 0x20 0 [] t ∧ t.out = s.out) ∧
  -- nodeRelearn
  (∀ (d : Nat) (s : State) (x : Desc) (n : Node),
      Ready 0x3B d s x →
      InTurn s x →
      isStandby s = false →
      mayAppend s = true →
      Tab.get s.db.nodes (u16 x.bytes 16) = some n →
      ∃ t, exec (.nodeRelearn d) s = .next t ∧
        WaitsDurable d [] t ∧
        Tab.get t.db.nodes (u16 x.bytes 16) = some { n with learning := true, learnCount := 0, learnI := fZero, learnS := fZero, sPos := fZero, sNeg := fZero, suspectLoss := false, suspectGain := false }) ∧
  -- balReportRead
  (∀ (d : Nat) (s : State) (x : Desc),
      Ready 0x3C d s x →
      checkFaults (logChecks x.bytes 64) = [] →
      ∃ t, exec (.balReportRead d) s = .next t ∧
        LogRead d 64 s x.bytes (s.db.reports.reverse.map (fun r => (r.seq, r.bytes))) t) ∧
  -- indicatorRead
  (∀ (d : Nat) (s : State) (x : Desc) (k : Nat) (e : MEntry),
      Ready 0x3D d s x →
      checkFaults (refChecks x.bytes) = [] →
      u64 x.bytes 32 % 64 = 0 →
      refMeter false s x.bytes = some (k, e) →
      ∃ t, exec (.indicatorRead d) s = .next t ∧
        Done d 0 0 [] t ∧
        PutOut s (u64 x.bytes 32) (indBytes (indOf s k) ++ (List.range 4).flatMap (fun c => fpBytes (Tab.getD s.db.fps (4 * k + c) FpRef.fresh)) ++ membBytes (Tab.getD s.db.memb k Memb.none)) t) ∧
  -- indicatorClear
  (∀ (d : Nat) (s : State) (x : Desc) (k : Nat) (e : MEntry) (i : Ind),
      Ready 0x3E d s x →
      InTurn s x →
      bit (u8 x.bytes 30) 1 = false →
      checkFaults (refChecks x.bytes) = [] →
      isStandby s = false →
      mayAppend s = true →
      refMeter false s x.bytes = some (k, e) →
      Tab.get s.db.inds k = some i →
      ∃ t, exec (.indicatorClear d) s = .next t ∧
        WaitsDurable d [] t ∧ (Tab.get t.db.inds k).map (·.ind) = some (andNot 16 i.ind (u16 x.bytes 28)) ∧
        (bit (u8 x.bytes 30) 0 = true → (Tab.get t.db.inds k).map (fun j => (j.radioCount, j.radioRun, j.radioFrozen)) = some (0, 0, false))) ∧
  -- indicatorClearNode
  (∀ (d : Nat) (s : State) (x : Desc) (n : Node),
      Ready 0x3E d s x →
      InTurn s x →
      bit (u8 x.bytes 30) 1 = true →
      allZero (slice x.bytes 16 12) = true →
      isStandby s = false →
      mayAppend s = true →
      Tab.get s.db.nodes (u16 x.bytes 32) = some n →
      ∃ t, exec (.indicatorClear d) s = .next t ∧
        WaitsDurable d [] t ∧ Tab.get t.db.nodes (u16 x.bytes 32) = some { n with suspectLoss := false, suspectGain := false }) ∧
  -- balStats
  (∀ (d : Nat) (s : State) (x : Desc),
      Ready 0x3F d s x →
      u64 x.bytes 24 % 64 = 0 →
      ∃ t, exec (.balStats d) s = .next t ∧
        Done d 0 0 [] t ∧ PutOut s (u64 x.bytes 24) (padTo 64 (s.lg.balStats.flatMap (toLE 4))) t ∧ t.lg.balStats = if bit (u8 x.bytes 16) 0 then List.replicate 7 0 else s.lg.balStats)

/-- What each of these commands answers, under conditions on the state and its operands alone: BEACON_PERIOD_START (R295), PLC_FRAME_RX
(R294), PLC_DOWNLINK_TX (R297), LOAD_CLASS_MEASURE (R304), MAINS_ZERO_CROSSING (R302). In it the time line is the model's (log 1) and
outputs, journal bodies and tags are named as the model names them (log 10). -/
def Obligations.PowerLineLink : Prop :=
  -- beaconPeriodStart
  (∀ (ph zc : Nat) (s u : State),
      isUp s 12 = true →
      ph < s.plc.phases.length →
      onPhase ph (fun p => { p with lastPeriod := some (periodNo (toPeriod ph s) ph).toNat, alloc := [] }) (takePlcSet ph (toPeriod ph s)) = u →
      plcInService u ph = true →
      (startFrame 1 (durOf u) u).1 = true →
      ∃ t, exec (.beaconPeriodStart ph zc) s = .next t ∧
        (phaseAt t ph).set = s.opt.plc ∧ (phaseAt t ph).beaconNo = ((phaseAt s ph).beaconNo + 1) % 2 ^ 32 ∧
        (phaseAt t ph).beaconing = true ∧ (phaseAt t ph).zcOffset = zc ∧
        (phaseAt t ph).lastPeriod = some (periodNo (toPeriod ph s) ph).toNat ∧
        ((t.out.drop s.out.length).any fun o => match o with | .plc p fc _ => p == ph && fcDt fc == 0 && fcTei fc == 0xFFF | _ => false) = true) ∧
  -- beaconPeriodStartOff
  (∀ (ph zc : Nat) (s : State),
      isUp s 12 = true →
      ph < s.plc.phases.length →
      bit s.opt.plc.phases ph = false →
      ∃ t, exec (.beaconPeriodStart ph zc) s = .next t ∧
        (phaseAt t ph).set = s.opt.plc ∧ (phaseAt t ph).beaconNo = (phaseAt s ph).beaconNo ∧ (phaseAt t ph).beaconing = false ∧
        (phaseAt t ph).alloc = []) ∧
  -- plcFrameRxBadControl
  (∀ (f : PlcRx) (s : State),
      isUp s 12 = true →
      plcInService s f.phase = true →
      f.fcOk = false →
      ∃ t, exec (.plcFrameRx f) s = .next t ∧
        t.plc = { s.plc with stats := modAt s.plc.stats f.phase (bumpAt · 2) } ∧ t.ik = s.ik) ∧
  -- plcFrameRxOtherNetwork
  (∀ (f : PlcRx) (s : State),
      isUp s 12 = true →
      plcInService s f.phase = true →
      f.fcOk = true →
      u16 f.fc 1 ≠ (phaseAt s f.phase).set.nid →
      ∃ t, exec (.plcFrameRx f) s = .next t ∧
        t.plc = { s.plc with stats := modAt s.plc.stats f.phase (bumpAt · 8) } ∧ t.ik = s.ik) ∧
  -- plcFrameRxPartnerBeacon
  (∀ (f : PlcRx) (s : State),
      isUp s 12 = true →
      plcInService s f.phase = true →
      f.fcOk = true →
      u16 f.fc 1 = (phaseAt s f.phase).set.nid →
      fcDown f.fc = true →
      fcDt f.fc = 0 →
      pairedUp s = true →
      ∃ t, exec (.plcFrameRx f) s = .next t ∧
        t.pair.bcnPlc = setAt s.pair.bcnPlc f.phase (some s.now)) ∧
  -- plcFrameRxJoin
  (∀ (f : PlcRx) (s : State) (body : Bytes),
      isUp s 12 = true →
      plcInService s f.phase = true →
      f.fcOk = true →
      u16 f.fc 1 = (phaseAt s f.phase).set.nid →
      fcDown f.fc = false →
      fcDt f.fc = 3 →
      f.pbs.length = bits (u8 f.fc 6) 5 2 →
      (receiveMpdu (fcTei f.fc) f (statPlc f.phase 1 s)).1 = some body →
      joinStatus s (u64 body 0) (u8 body 10) (decidePhase s (fcPhase f.fc) (fcZc f.fc) f.snr).1 = 0 →
      stationOf s (u64 body 0) = none →
      ∃ t, exec (.plcFrameRx f) s = .next t ∧
        (stationOf t (u64 body 0)).map (fun x => (x.tei, x.hw, x.phase)) = some ((freeTei s).getD 1, some (u16 body 8), (decidePhase s (fcPhase f.fc) (fcZc f.fc) f.snr).1)) ∧
  -- plcFrameRxData
  (∀ (f : PlcRx) (s : State) (body fr : Bytes) (x : Station),
      isUp s 12 = true →
      plcInService s f.phase = true →
      f.fcOk = true →
      u16 f.fc 1 = (phaseAt s f.phase).set.nid →
      fcDown f.fc = false →
      fcDt f.fc = 1 →
      f.pbs.length = bits (u8 f.fc 6) 5 2 →
      (receiveMpdu (fcTei f.fc) f (statPlc f.phase 1 s)).1 = some body →
      frameIn body = fr →
      s.plc.stations.find? (fun t => t.tei == fcTei f.fc) = some x →
      x.id = frameId fr →
      isUp s 4 = true →
      (decidePhase s (fcPhase f.fc) (fcZc f.fc) f.snr).1 < s.ik.queues.length →
      ∃ t, exec (.plcFrameRx f) s = .next t ∧
        ((queueOf t (decidePhase s (fcPhase f.fc) (fcZc f.fc) f.snr).1).coming.getLast?).map (·.bytes) = some fr) ∧
  -- plcFrameRxSack
  (∀ (f : PlcRx) (s : State) (x : Station) (q : PlcTx) (r : List PlcTx),
      isUp s 12 = true →
      plcInService s f.phase = true →
      f.fcOk = true →
      u16 f.fc 1 = (phaseAt s f.phase).set.nid →
      fcDown f.fc = false →
      fcDt f.fc = 2 →
      s.plc.stations.find? (fun t => t.tei == fcTei f.fc) = some x →
      x.queue = q :: r →
      q.waiting = true ∧ q.seq = fcSeq f.fc →
      u8 f.fc 10 % 4 = 0 →
      ∃ t, exec (.plcFrameRx f) s = .next t ∧
        (t.plc.stations.find? (fun t => t.tei == fcTei f.fc)).map (·.queue) = some r) ∧
  -- plcDownlinkTx
  (∀ (ph : Nat) (s u : State) (x : Station) (q : PlcTx) (r : List PlcTx),
      isUp s 12 = true →
      plcInService s ph = true →
      idleMedium s = u →
      meetsTraffic u (durOf u) = false →
      s.plc.bcast = [] →
      (startFrame 1 (durOf u) u).1 = true →
      nextStation s ph = some x →
      s.plc.stations.find? (fun t => t.tei == x.tei) = some x →
      x.queue = q :: r →
      q.waiting = false →
      ∃ t, exec (.plcDownlinkTx ph) s = .next t ∧
        (t.plc.stations.find? (fun t => t.tei == x.tei)).map (·.queue) = some ({ q with waiting := true } :: r) ∧
        ((t.out.drop s.out.length).any fun o => match o with | .plc p fc _ => p == ph && fcDt fc == (if q.toneMap then 5 else 1) && fcTei fc == x.tei % 4096 && fcSeq fc == q.seq % 256 | _ => false) = true) ∧
  -- plcDownlinkTxBroadcast
  (∀ (ph : Nat) (s u : State) (mask dt : Nat) (b : Bytes) (r : List (Nat × Nat × Bytes)),
      isUp s 12 = true →
      plcInService s ph = true →
      idleMedium s = u →
      meetsTraffic u (durOf u) = false →
      s.plc.bcast = (mask, dt, b) :: r →
      (startFrame ((phasesUp u).filter (bit mask)).length (durOf u) u).1 = true →
      ∃ t, exec (.plcDownlinkTx ph) s = .next t ∧
        t.plc.bcast = r ∧ t.plc.bcSeq = (s.plc.bcSeq + 1) % 256 ∧
        (((phasesUp s).filter (bit mask)).all fun n => (t.out.drop s.out.length).any fun o => match o with | .plc p fc body => p == n && fcDt fc == dt % 8 && fcTei fc == 0xFFF && fcSeq fc == s.plc.bcSeq % 256 && body == padTo (pbPayload (pbFor b.length)) b | _ => false) = true) ∧
  -- loadClassMeasure
  (∀ (ph noise imped period lag : Nat) (s : State),
      isUp s 12 = true →
      ph < s.plc.phases.length →
      ∃ t, exec (.loadClassMeasure ph noise imped period lag) s = .next t ∧
        (phaseAt t ph).noise = min 255 noise ∧ (phaseAt t ph).imped = min 255 imped ∧ (phaseAt t ph).period = period ∧
        (phaseAt t ph).cls = (classStep (max (noiseClass (phaseAt s ph).set noise) (impedClass (phaseAt s ph).set imped)) (phaseAt s ph)).cls ∧
        t.plc.lag2 = (if ph = 1 then lag else s.plc.lag2) ∧ t.plc.lag3 = (if ph = 2 then lag else s.plc.lag3)) ∧
  -- mainsZeroCrossing
  (∀ (ph : Nat) (s : State),
      isUp s 12 = true →
      plcInService s ph = true →
      ph < s.plc.phases.length →
      ∃ t, exec (.mainsZeroCrossing ph) s = .next t ∧
        (phaseAt t ph).period = sinceCross s (phaseAt s ph).crossAt ∧ (phaseAt t ph).crossAt = some s.now)

/-- What each of these commands answers, under conditions on the state and its operands alone: PLC_SACK_TIMEOUT (R308), TONE_MAP_SEND
(R306), PB_HOLD_EXPIRE (R307), PLC_SET (R288), PLC_STATION_READ (R300), PLC_TONEMAP_RESET (R305), PLC_STATS (R288). In it the time line is
the model's (log 1), open values are free constants of Config (log 5) and outputs, journal bodies and tags are named as the model names
them (log 10). -/
def Obligations.PowerLineCommands : Prop :=
  -- plcSackTimeout
  (∀ (tei : Nat) (s : State) (x : Station) (q : PlcTx) (r : List PlcTx),
      s.plc.stations.find? (fun t => t.tei == tei) = some x →
      x.queue = q :: r →
      isUp s 12 = true →
      q.waiting = true →
      ∃ t, exec (.plcSackTimeout tei) s = .next t ∧
        (t.plc.stations.find? (fun t => t.tei == tei)).map (·.queue) = some (if 3 ≤ q.rounds then r else { q with rounds := q.rounds + 1, waiting := false } :: r) ∧
        (3 ≤ q.rounds → t.plc.stats = modAt s.plc.stats x.phase (bumpAt · 5))) ∧
  -- toneMapSend
  (∀ (tei : Nat) (s : State) (x : Station) (o : Nat × Nat),
      s.plc.stations.find? (fun t => t.tei == tei) = some x →
      stationOf s x.id = some x →
      x.owes = some o →
      isUp s 12 = true →
      maySend s = true →
      ∃ t, exec (.toneMapSend tei) s = .next t ∧
        (t.plc.stations.find? (fun t => t.tei == tei)).map (fun y => (y.owes, y.txSeq, y.queue.length, (y.queue.getLast?).map (fun q => (q.seq, q.toneMap)))) = some (none, (x.txSeq + 1) % 256, x.queue.length + 1, some (x.txSeq, true)) ∧
        t.free = s.free + 128) ∧
  -- pbHoldExpire
  (∀ (tei seq : Nat) (s : State) (x : Station) (g : PlcHold),
      s.plc.stations.find? (fun t => t.tei == tei) = some x →
      x.holds.find? (fun h => h.seq == seq) = some g →
      ∃ t, exec (.pbHoldExpire tei seq) s = .next t ∧
        (t.plc.stations.find? (fun t => t.tei == tei)).map (·.holds) = some (x.holds.filter (fun h => h.seq != seq)) ∧
        g.since + 200 * msNs ≤ t.now) ∧
  -- plcSet
  (∀ (d : Nat) (s : State) (x : Desc),
      Ready 0x50 d s x →
      checkFaults (plcSetChecks x.bytes) = [] →
      isUp s 12 = true →
      ∃ t, exec (.plcSet d) s = .next t ∧
        Done d 0 0 [] t ∧
        t.opt.plc = { band := u8 x.bytes 16, phases := u8 x.bytes 17 % 8, nid := u16 x.bytes 18, txAtten := u8 x.bytes 20, erase := u8 x.bytes 21, restore := u16 x.bytes 22, noiseT := [u8 x.bytes 24, u8 x.bytes 25, u8 x.bytes 26], zT := [u8 x.bytes 27, u8 x.bytes 28, u8 x.bytes 29], contLen := u16 x.bytes 30 } ∧
        t.plc = s.plc) ∧
  -- plcSetDown
  (∀ (d : Nat) (s : State) (x : Desc),
      Ready 0x50 d s x →
      checkFaults (plcSetChecks x.bytes) = [] →
      isUp s 12 = false →
      ∃ t, exec (.plcSet d) s = .next t ∧
        Done d 0x20 0 [] t ∧ t.opt = s.opt) ∧
  -- plcStationRead
  (∀ (d : Nat) (s : State) (x : Desc) (k : Nat) (e : MEntry) (q : Station),
      Ready 0x51 d s x →
      checkFaults (refChecks x.bytes) = [] →
      u64 x.bytes 32 % 64 = 0 →
      refMeter false s x.bytes = some (k, e) →
      isUp s 12 = true →
      stationOf s e.id = some q →
      ∃ t, exec (.plcStationRead d) s = .next t ∧
        Done d 0 0 (toLE 2 q.tei) t ∧ PutOut s (u64 x.bytes 32) (stationBytes q) t) ∧
  -- plcTonemapReset
  (∀ (d : Nat) (s : State) (x : Desc) (k : Nat) (e : MEntry) (q : Station),
      Ready 0x52 d s x →
      bit (u8 x.bytes 28) 7 = false →
      checkFaults (refChecks x.bytes) = [] →
      refMeter false s x.bytes = some (k, e) →
      isUp s 12 = true →
      stationOf s e.id = some q →
      ∃ t, exec (.plcTonemapReset d) s = .next t ∧
        Done d 0 0 [] t ∧ t.plc.stations = modWhere (fun t => t.tei == q.tei) (resetMaps (u8 x.bytes 28 % 16)) s.plc.stations) ∧
  -- plcTonemapResetAll
  (∀ (d : Nat) (s : State) (x : Desc),
      Ready 0x52 d s x →
      bit (u8 x.bytes 28) 7 = true →
      allZero (slice x.bytes 16 12) = true →
      isUp s 12 = true →
      ∃ t, exec (.plcTonemapReset d) s = .next t ∧
        Done d 0 0 [] t ∧ t.plc.stations = s.plc.stations.map (resetMaps (u8 x.bytes 28 % 16))) ∧
  -- plcStats
  (∀ (d : Nat) (s : State) (x : Desc),
      Ready 0x53 d s x →
      u64 x.bytes 24 % 64 = 0 →
      isUp s 12 = true →
      ∃ t, exec (.plcStats d) s = .next t ∧
        Done d 0 0 [] t ∧ PutOut s (u64 x.bytes 24) (padTo 256 (s.plc.stats.flatten.flatMap (toLE 4))) t ∧ t.plc.stats = if bit (u8 x.bytes 16) 0 then List.replicate 3 (List.replicate 10 0) else s.plc.stats) ∧
  -- plcStatsDown
  (∀ (d : Nat) (s : State) (x : Desc),
      Ready 0x53 d s x →
      u64 x.bytes 24 % 64 = 0 →
      isUp s 12 = false →
      ∃ t, exec (.plcStats d) s = .next t ∧
        Done d 0x20 0 [] t ∧ t.plc = s.plc ∧ t.out = s.out)

/-- What each of these commands answers, under conditions on the state and its operands alone: RADIO_SLOT_START (R321), RADIO_FRAME_RX
(R325), RADIO_PARTNER_FRAME_RX (R335), CHILD_SILENT (R332), RADIO_SET (R314), RADIO_PROFILE_SET (R314), RADIO_CHILD_READ (R331),
RADIO_STATS (R311). In it the time line is the model's (log 1). -/
def Obligations.RadioCommands : Prop :=
  -- radioSlotStart
  (∀ (r : Nat) (s : State),
      isUp s 13 = true →
      r < 2 →
      s.rad.radios.length = 2 →
      ∃ t, exec (.radioSlotStart r) s = .next t ∧
        (radioAt t r).asn = some (asnNow t)) ∧
  -- radioSlotStartBoth
  (∀ (s : State),
      isUp s 13 = true →
      s.rad.radios.length = 2 →
      ∃ t, exec (.radioSlotStart 2) s = .next t ∧
        (radioAt t 0).asn = some (asnNow t) ∧ (radioAt t 1).asn = some (asnNow t)) ∧
  -- radioSlotStartSet
  (∀ (r : Nat) (s : State),
      isUp s 13 = true →
      r < 2 →
      s.rad.radios.length = 2 →
      (radioAt s r).asn ≠ some (asnNow s) →
      asnNow s % 100 = 0 →
      ∃ t, exec (.radioSlotStart r) s = .next t ∧
        (radioAt t r).set = s.opt.radio.getD r RadioSet.reset ∧ (radioAt t r).hopVersion = s.opt.hopVersion.getD r 0) ∧
  -- radioFrameRxOther
  (∀ (f : RadioRx) (s : State),
      isUp s 13 = true →
      radioEnabled s f.radio = true →
      f.fcsOk = true →
      f.layoutOk = false ∨ f.panId ≠ (radioAt s f.radio).set.panId →
      receiverOn s f = true →
      ∃ t, exec (.radioFrameRx f) s = .next t ∧
        t.rad = { s.rad with stats := modAt s.rad.stats f.radio (bumpAt · 5) } ∧ t.ik = s.ik) ∧
  -- radioFrameRxJoin
  (∀ (f : RadioRx) (s : State) (k : Nat) (e : MEntry),
      isUp s 13 = true →
      radioEnabled s f.radio = true →
      f.fcsOk = true ∧ f.layoutOk = true →
      f.panId = (radioAt s f.radio).set.panId →
      maySend s = true →
      f.kind = 6 →
      asnNow s % 5 = 0 ∧ asnNow s % 10 ≠ 0 →
      15 ≤ f.start ∧ f.start ≤ 185 →
      radioJoinStatus s f = 0 →
      entryById s f.source = some (k, e) →
      receiverOn s f = true →
      ∃ t, exec (.radioFrameRx f) s = .next t ∧
        (childOf t k).map (fun c => (c.id, c.radio, c.hw, c.heard, c.silent)) = some (f.source, f.radio, some (u16 f.payload 0), s.now, false)) ∧
  -- radioFrameRxData
  (∀ (f : RadioRx) (s : State) (x : Child),
      isUp s 13 = true →
      radioEnabled s f.radio = true →
      f.fcsOk = true ∧ f.layoutOk = true →
      f.panId = (radioAt s f.radio).set.panId →
      maySend s = true →
      f.kind = 4 →
      s.rad.children.find? (fun c => c.id == f.source && c.radio == f.radio) = some x →
      inWindow s f x = true →
      receiverOn s f = true →
      isUp s 4 = true →
      3 + f.radio < s.ik.queues.length →
      ∃ t, exec (.radioFrameRx f) s = .next t ∧
        ((queueOf t (3 + f.radio)).coming.getLast?).map (·.bytes) = some f.payload) ∧
  -- radioPartnerFrameRx
  (∀ (f : RadioRx) (s : State),
      isUp s 13 = true →
      radioEnabled s f.radio = true →
      f.fcsOk = true ∧ f.layoutOk = true →
      f.panId = (radioAt s f.radio).set.panId →
      isStandby s = true →
      f.kind = 1 ∨ f.kind = 2 →
      receiverOn s f = true →
      ∃ t, exec (.radioPartnerFrameRx f) s = .next t ∧
        t.pair.bcnRadio = setAt s.pair.bcnRadio f.radio (some s.now)) ∧
  -- childSilent
  (∀ (short : Nat) (s : State) (x : Child),
      childOf s short = some x →
      isUp s 13 = true →
      x.silent = false →
      pfWake (bodyFor s x.id) ≠ 0 →
      ∃ t, exec (.childSilent short) s = .next t ∧
        Raised 51 t ∧ (childOf t short).map (·.silent) = some true ∧
        x.heard + (3 * pfWake (bodyFor s x.id) + 60) * secNs ≤ t.now) ∧
  -- radioSet
  (∀ (d : Nat) (s : State) (x : Desc),
      Ready 0x54 d s x →
      checkFaults (radioSetChecks x.bytes) = [] →
      isUp s 13 = true →
      radioSetRefusal s (radioSetOf x.bytes) = none →
      u8 x.bytes 16 < s.opt.radio.length →
      ∃ t, exec (.radioSet d) s = .next t ∧
        Done d 0 0 (toLE 1 (t.opt.hopVersion.getD (u8 x.bytes 16) 0)) t ∧
        t.opt.radio = setAt s.opt.radio (u8 x.bytes 16) { enable := bit (u8 x.bytes 17) 0, profile := u8 x.bytes 18, txDbm := i8 x.bytes 19, panId := u16 x.bytes 20, hopSeed := u16 x.bytes 22, hopStep := u16 x.bytes 24, baseMode := u8 x.bytes 26, gMax := u8 x.bytes 27, restore := u16 x.bytes 28 } ∧
        t.rad = s.rad) ∧
  -- radioSetRefused
  (∀ (d : Nat) (s : State) (x : Desc) (st : Nat × Nat),
      Ready 0x54 d s x →
      checkFaults (radioSetChecks x.bytes) = [] →
      isUp s 13 = true →
      radioSetRefusal s (radioSetOf x.bytes) = some st →
      ∃ t, exec (.radioSet d) s = .next t ∧
        Done d st.1 st.2 [] t ∧ t.opt = s.opt) ∧
  -- radioProfileSet
  (∀ (d : Nat) (s : State) (x : Desc) (data : Bytes),
      Ready 0x55 d s x →
      u64 x.bytes 24 % 64 = 0 →
      isUp s 13 = true →
      x.input = some data →
      checkFaults (regChecks data) = [] →
      ∃ t, exec (.radioProfileSet d) s = .next t ∧
        Done d 0 0 [] t ∧ t.opt.profile3 = some (regFrom data)) ∧
  -- radioProfileSetFault
  (∀ (d : Nat) (s : State) (x : Desc) (data : Bytes) (o : Nat),
      Ready 0x55 d s x →
      u64 x.bytes 24 % 64 = 0 →
      isUp s 13 = true →
      x.input = some data →
      (checkFaults (regChecks data)).min? = some o →
      ∃ t, exec (.radioProfileSet d) s = .next t ∧
        Done d 0x2A o [] t ∧ t.opt = s.opt) ∧
  -- radioChildRead
  (∀ (d : Nat) (s : State) (x : Desc) (k : Nat) (e : MEntry) (q : Child),
      Ready 0x56 d s x →
      bit (u8 x.bytes 28) 0 = false →
      checkFaults (refChecks x.bytes) = [] →
      u64 x.bytes 32 % 64 = 0 →
      isUp s 13 = true →
      refMeter false s x.bytes = some (k, e) →
      childOf s k = some q →
      ∃ t, exec (.radioChildRead d) s = .next t ∧
        Done d 0 0 (toLE 4 q.short) t ∧ PutOut s (u64 x.bytes 32) (childBytes q) t) ∧
  -- radioChildReadSilent
  (∀ (d : Nat) (s : State) (x : Desc),
      Ready 0x56 d s x →
      bit (u8 x.bytes 28) 0 = true →
      bit (u8 x.bytes 27) 7 = true →
      checkFaults (refChecks x.bytes) = [] →
      u64 x.bytes 32 % 64 = 0 →
      isUp s 13 = true →
      ∃ t, exec (.radioChildRead d) s = .next t ∧
        Done d 0 0 (toLE 4 (((nextSilent s (u24 x.bytes 24 % 2 ^ 20)).map (·.short)).getD 0xFFFFFFFF)) t ∧
        (∀ q, nextSilent s (u24 x.bytes 24 % 2 ^ 20) = some q → PutOut s (u64 x.bytes 32) (childBytes q) t)) ∧
  -- radioStats
  (∀ (d : Nat) (s : State) (x : Desc),
      Ready 0x57 d s x →
      u64 x.bytes 24 % 64 = 0 →
      isUp s 13 = true →
      ∃ t, exec (.radioStats d) s = .next t ∧
        Done d 0 0 [] t ∧ PutOut s (u64 x.bytes 24) (padTo 256 (s.rad.stats.flatten.flatMap (toLE 4))) t ∧ t.rad.stats = if bit (u8 x.bytes 16) 0 then List.replicate 2 (List.replicate 12 0) else s.rad.stats)

/-- What each of these commands answers, under conditions on the state and its operands alone: WIRED_POLL_DUE (R339), WIRED_RESPONSE
(R340), WIRED_RESP_TIMEOUT (R342), WIRED_SET (R336), WIRED_POLL_SET (R338), WIRED_POLL_READ (R345), WIRED_STATS (R345). In it outputs,
journal bodies and tags are named as the model names them (log 10). -/
def Obligations.WiredCommands : Prop :=
  -- wiredPollDue
  (∀ (port address : Nat) (s : State) (p : PollEntry) (due : Nat) (q : WiredReq) (r : List WiredReq),
      portOn s port = true →
      maySend s = true →
      pollAt s port address = some p →
      dueAt p (netSec s) = some due →
      p.suspended = false ∧ p.lastDue ≠ some due ∧ p.held = none →
      txOf s port = none →
      port < s.wir.tx.length →
      (currentKey s p.short p.id).isSome = true →
      requestsOf p.bytes = q :: r →
      ∃ t, exec (.wiredPollDue port address) s = .next t ∧
        txOf t port = some { address := address, todo := q :: r, words := [], tries := 0, change := none, waiting := [] } ∧
        (pollAt t port address).map (·.lastDue) = some (some due) ∧
        t.out = s.out ++ [.wired port address (wiredSetOf s port).rate (if u8 p.bytes 2 = 1 then 0 else (wiredSetOf s port).framing) q]) ∧
  -- wiredPollDueBusy
  (∀ (port address : Nat) (s : State) (p : PollEntry) (due : Nat) (x : WiredTx),
      portOn s port = true →
      maySend s = true →
      pollAt s port address = some p →
      dueAt p (netSec s) = some due →
      p.suspended = false ∧ p.lastDue ≠ some due →
      txOf s port = some x →
      port < s.wir.tx.length →
      ∃ t, exec (.wiredPollDue port address) s = .next t ∧
        txOf t port = some { x with waiting := x.waiting.filter (fun y => y.1 != address) ++ [(address, due)] } ∧ t.out = s.out) ∧
  -- wiredResponse
  (∀ (port : Nat) (raw : List Nat) (s : State) (x : WiredTx) (p : PollEntry) (q : WiredReq),
      isUp s 4 = true →
      maySend s = true →
      txOf s port = some x →
      x.change = none ∧ x.waiting = [] →
      x.todo = [q] →
      port < s.wir.tx.length →
      pollAt s port x.address = some p →
      scalerDiffers p.bytes q raw = false →
      (currentKey s p.short p.id).isSome = true →
      5 + port < s.ik.queues.length →
      ∃ t, exec (.wiredResponse port (.values raw)) s = .next t ∧
        txOf t port = none ∧
        (pollAt t port x.address).map (fun q => (q.counter, q.bump, q.lastResult, q.failed, q.held.isSome)) = some (nextCounter p, false, 0, 0, true) ∧
        (queueOf t (5 + port)).coming.length = (queueOf s (5 + port)).coming.length + 1) ∧
  -- wiredResponseNext
  (∀ (port : Nat) (raw : List Nat) (s : State) (x : WiredTx) (p : PollEntry) (q n : WiredReq) (r : List WiredReq),
      isUp s 4 = true →
      maySend s = true →
      txOf s port = some x →
      x.todo = q :: n :: r →
      port < s.wir.tx.length →
      pollAt s port x.address = some p →
      scalerDiffers p.bytes q raw = false →
      ∃ t, exec (.wiredResponse port (.values raw)) s = .next t ∧
        txOf t port = some { x with todo := n :: r, words := x.words ++ wordsOf q raw, tries := 0 } ∧
        t.out = s.out ++ [.wired port x.address (wiredSetOf s port).rate (if u8 p.bytes 2 = 1 then 0 else (wiredSetOf s port).framing) n]) ∧
  -- wiredResponseException
  (∀ (port code : Nat) (s : State) (x : WiredTx) (p : PollEntry),
      isUp s 4 = true →
      maySend s = true →
      txOf s port = some x →
      x.change = none ∧ x.waiting = [] →
      port < s.wir.tx.length →
      pollAt s port x.address = some p →
      ∃ t, exec (.wiredResponse port (.modbusException code)) s = .next t ∧
        txOf t port = none ∧
        (pollAt t port x.address).map (fun q => (q.lastResult, q.lastExc, q.failed)) = some (3, code, min 255 (p.failed + 1)) ∧
        ((wiredSetOf s port).silentAfter ≤ min 255 (p.failed + 1) ∧ p.silent = false → Raised 51 t)) ∧
  -- wiredRespTimeout
  (∀ (port : Nat) (s : State) (x : WiredTx) (p : PollEntry) (q : WiredReq) (r : List WiredReq),
      isUp s 4 = true →
      maySend s = true →
      txOf s port = some x →
      x.todo = q :: r →
      port < s.wir.tx.length →
      pollAt s port x.address = some p →
      x.tries < (wiredSetOf s port).retries →
      ∃ t, exec (.wiredRespTimeout port) s = .next t ∧
        txOf t port = some { x with tries := x.tries + 1 } ∧
        t.out = s.out ++ [.wired port x.address (wiredSetOf s port).rate (if u8 p.bytes 2 = 1 then 0 else (wiredSetOf s port).framing) q]) ∧
  -- wiredRespTimeoutEnd
  (∀ (port : Nat) (s : State) (x : WiredTx) (p : PollEntry),
      isUp s 4 = true →
      maySend s = true →
      txOf s port = some x →
      x.change = none ∧ x.waiting = [] →
      port < s.wir.tx.length →
      pollAt s port x.address = some p →
      (wiredSetOf s port).retries ≤ x.tries →
      ∃ t, exec (.wiredRespTimeout port) s = .next t ∧
        txOf t port = none ∧
        (pollAt t port x.address).map (fun q => (q.lastResult, q.failed)) = some (1, min 255 (p.failed + 1))) ∧
  -- wiredSet
  (∀ (d : Nat) (s : State) (x : Desc),
      Ready 0x58 d s x →
      u8 x.bytes 16 ≤ 1 ∧ u8 x.bytes 18 % 16 ≤ 7 ∧ 10 ≤ u16 x.bytes 20 ∧ u16 x.bytes 20 ≤ 2000 ∧ u8 x.bytes 22 ≤ 3 ∧ 1 ≤ u8 x.bytes 23 ∧ u8 x.bytes 23 ≤ 15 →
      isUp s 4 = true →
      ∃ t, exec (.wiredSet d) s = .next t ∧
        Done d 0 0 [] t ∧
        t.wir.set = setAt s.wir.set (u8 x.bytes 16) { enable := bit (u8 x.bytes 17) 0, term := bit (u8 x.bytes 17) 1, rate := u8 x.bytes 18 % 16, framing := u8 x.bytes 18 / 16 % 4, respTmo := u16 x.bytes 20, retries := u8 x.bytes 22, silentAfter := u8 x.bytes 23 } ∧
        t.wir.term = setAt s.wir.term (u8 x.bytes 16) (bit (u8 x.bytes 17) 1)) ∧
  -- wiredSetDown
  (∀ (d : Nat) (s : State) (x : Desc),
      Ready 0x58 d s x →
      u8 x.bytes 16 ≤ 1 ∧ u8 x.bytes 18 % 16 ≤ 7 ∧ 10 ≤ u16 x.bytes 20 ∧ u16 x.bytes 20 ≤ 2000 ∧ u8 x.bytes 22 ≤ 3 ∧ 1 ≤ u8 x.bytes 23 ∧ u8 x.bytes 23 ≤ 15 →
      isUp s 4 = false →
      ∃ t, exec (.wiredSet d) s = .next t ∧
        Done d 0x30 0 [] t ∧ t.wir = s.wir ∧ t.opt = s.opt) ∧
  -- wiredPollSet
  (∀ (d : Nat) (s : State) (x : Desc) (k : Nat) (e : MEntry) (data : Bytes),
      Ready 0x59 d s x →
      checkFaults (refChecks x.bytes) = [] →
      bit (u8 x.bytes 28) 0 = false →
      u64 x.bytes 32 % 16 = 0 →
      refMeter false s x.bytes = some (k, e) →
      isUp s 4 = true →
      x.input = some data →
      checkFaults (entryChecks data) = [] →
      (wiredSetOf s (u8 data 0)).enable = true →
      s.db.polls = [] →
      txOf s (u8 data 0) = none →
      ∃ t, exec (.wiredPollSet d) s = .next t ∧
        Done d 0 0 [] t ∧ (pollAt t (u8 data 0) (u8 data 1)).map (fun p => (p.bytes, p.short, p.id)) = some (data, k, e.id) ∧
        t.opt.polls = t.db.polls) ∧
  -- wiredPollSetRemove
  (∀ (d : Nat) (s : State) (x : Desc) (k : Nat) (e : MEntry) (n : Nat) (p : PollEntry),
      Ready 0x59 d s x →
      checkFaults (refChecks x.bytes) = [] →
      bit (u8 x.bytes 28) 0 = true →
      refMeter false s x.bytes = some (k, e) →
      isUp s 4 = true →
      pollOfMeter s k = some (n, p) →
      txOf s (n / 256) = none →
      ∃ t, exec (.wiredPollSet d) s = .next t ∧
        Done d 0 0 [] t ∧ Tab.get t.db.polls n = none) ∧
  -- wiredPollRead
  (∀ (d : Nat) (s : State) (x : Desc) (k : Nat) (e : MEntry) (n : Nat) (p : PollEntry),
      Ready 0x5A d s x →
      checkFaults (refChecks x.bytes) = [] →
      u64 x.bytes 32 % 16 = 0 →
      refMeter false s x.bytes = some (k, e) →
      isUp s 4 = true →
      pollOfMeter s k = some (n, p) →
      ∃ t, exec (.wiredPollRead d) s = .next t ∧
        Done d 0 0 (toLE 1 p.lastResult ++ toLE 1 p.lastExc) t ∧
        PutOut s (u64 x.bytes 32) (padTo 160 (padTo 144 p.bytes ++ toLE 4 p.counter ++ toLE 1 p.failed)) t) ∧
  -- wiredStats
  (∀ (d : Nat) (s : State) (x : Desc),
      Ready 0x5B d s x →
      u64 x.bytes 24 % 64 = 0 →
      isUp s 4 = true →
      ∃ t, exec (.wiredStats d) s = .next t ∧
        Done d 0 0 [] t ∧ PutOut s (u64 x.bytes 24) (padTo 128 (s.wir.stats.flatten.flatMap (toLE 4))) t ∧ t.wir.stats = if bit (u8 x.bytes 16) 0 then List.replicate 2 (List.replicate 9 0) else s.wir.stats)

/-- What each of these commands answers, under conditions on the state and its operands alone: RTC_SET_TICK (R350), PTP_MESSAGE_RX (R354),
PTP_TX_DUE (R354), PTP_SOURCE_LOST (R351), PPS_EDGE (R356), PPS_SOURCE_LOST (R351), CLOCK_STEP_ITEM (R357). In it the time line is the
model's (log 1) and outputs, journal bodies and tags are named as the model names them (log 10). -/
def Obligations.TimeSources : Prop :=
  -- rtcSetTick
  (∀ (s : State),
      timeRuns s = true →
      isUp s 1 = true →
      ∃ t, exec .rtcSetTick s = .next t ∧
        t.tm.rtc = s.tm.counter * 32768 / 1000000000 ∧ t.tm.rtcNs = 0) ∧
  -- ptpMessageRxSync
  (∀ (port gm seq speed : Nat) (origin corr stamp : Int) (s : State),
      ptpOn s port = true →
      fromMaster s port gm = true →
      ∃ t, exec (.ptpMessageRx port (.sync gm seq true origin corr speed stamp)) s = .next t ∧
        t.tm.sync = some (gm, seq, stamp - ingress s port speed, corr)) ∧
  -- ptpMessageRxFollowUp
  (∀ (port gm seq : Nat) (origin corr t2 c0 : Int) (s : State),
      ptpOn s port = true →
      fromMaster s port gm = true →
      s.tm.sync = some (gm, seq, t2, c0) →
      s.tm.pathKnown = false →
      ∃ t, exec (.ptpMessageRx port (.followUp gm seq origin corr)) s = .next t ∧
        t.tm.sync = none ∧ t.tm.t21 = some (t2 - origin - c0 - corr) ∧ t.tm.syncAt = some s.now) ∧
  -- ptpMessageRxDelayResp
  (∀ (port gm seq : Nat) (received corr t3 d : Int) (s : State),
      ptpOn s port = true →
      fromMaster s port gm = true →
      s.tm.t3 = some (seq, t3) →
      s.tm.t21 = some d →
      s.tm.cfg.peerDelay = false →
      ∃ t, exec (.ptpMessageRx port (.delayResp gm seq received corr)) s = .next t ∧
        t.tm.pathDelay = (d + (received - corr - t3)) / 2 ∧ t.tm.pathKnown = true ∧ t.tm.t3 = none) ∧
  -- ptpMessageRxAnnounce
  (∀ (port gm p1 cc p2 off : Nat) (v l61 l59 : Bool) (s : State),
      ptpOn s port = true →
      s.tm.master = none →
      s.tm.cfg.slaveOnly = true →
      ∃ t, exec (.ptpMessageRx port (.announce gm p1 cc p2 off v l61 l59)) s = .next t ∧
        t.tm.master = some { port := port, gm := gm, priority1 := p1, clockClass := cc, priority2 := p2, utcOffset := off, utcValid := v, leap61 := l61, leap59 := l59 } ∧
        t.tm.pathKnown = false) ∧
  -- ptpMessageRxDelayReq
  (∀ (port seq speed : Nat) (stamp : Int) (s : State),
      ptpOn s port = true →
      s.tm.cfg.peerDelay = true ∨ (s.tm.cfg.slaveOnly = false ∧ s.tm.master.any (fun m => m.port == port) = false) →
      ∃ t, exec (.ptpMessageRx port (.delayReq seq speed stamp)) s = .next t ∧
        t.out = s.out ++ [.ptp port (if s.tm.cfg.peerDelay then 3 else 9) seq (stamp - ingress s port speed)] ++ (if s.tm.cfg.peerDelay = true ∧ s.tm.cfg.oneStep = false then [.ptp port 10 seq (stamp - ingress s port speed)] else [])) ∧
  -- ptpTxDueSync
  (∀ (port : Nat) (s : State),
      masterOn s port = true →
      ∃ t, exec (.ptpTxDue port .sync) s = .next t ∧
        t.tm.ptpSeq = (s.tm.ptpSeq + 1) % 65536 ∧
        t.out = s.out ++ [.ptp port 0 s.tm.ptpSeq (sentStamp s port)] ++ (if s.tm.cfg.oneStep then [] else [.ptp port 8 s.tm.ptpSeq (sentStamp s port)])) ∧
  -- ptpTxDueAnnounce
  (∀ (port : Nat) (s : State),
      masterOn s port = true →
      ∃ t, exec (.ptpTxDue port .announce) s = .next t ∧
        t.tm.ptpSeq = (s.tm.ptpSeq + 1) % 65536 ∧ t.out = s.out ++ [.ptp port 11 s.tm.ptpSeq s.tm.counter, announced s]) ∧
  -- ptpTxDueDelayReq
  (∀ (port speed : Nat) (stamp : Int) (s : State),
      ptpOn s port = true →
      s.tm.cfg.peerDelay = true ∨ s.tm.master.any (fun m => m.port == port) = true →
      ∃ t, exec (.ptpTxDue port (.delayReq speed stamp)) s = .next t ∧
        t.tm.ptpSeq = (s.tm.ptpSeq + 1) % 65536 ∧ t.tm.t3 = some (s.tm.ptpSeq, stamp + egress s port speed) ∧
        t.out = s.out ++ [.ptp port (if s.tm.cfg.peerDelay then 2 else 1) s.tm.ptpSeq (stamp + egress s port speed)]) ∧
  -- ptpSourceLost
  (∀ (s : State),
      timeRuns s = true →
      s.tm.cfg.source = 1 →
      s.tm.st = 2 →
      ∃ t, exec .ptpSourceLost s = .next t ∧
        t.tm.st = 3 ∧ t.tm.master = none ∧ Raised 43 t) ∧
  -- ptpSourceLostAcquiring
  (∀ (s : State),
      timeRuns s = true →
      s.tm.cfg.source = 1 →
      s.tm.st = 1 →
      ∃ t, exec .ptpSourceLost s = .next t ∧
        t.tm.st = 0 ∧ t.tm.master = none) ∧
  -- ppsEdge
  (∀ (s : State),
      timeRuns s = true →
      s.tm.cfg.source = 2 →
      s.tm.steps = [] →
      isStep (ppsTheta s) s = true →
      s.tm.lockedOnce = false ∨ (ppsTheta s).natAbs ≤ 1000000 →
      ∃ t, exec .ppsEdge s = .next t ∧
        t.tm.ppsAt = some s.now ∧ t.tm.theta = ppsTheta s ∧
        t.tm.steps = [{ cause := 1, old := s.tm.counter, new := s.tm.counter - ppsTheta s, err := 0, desc := none }]) ∧
  -- ppsEdgeSlew
  (∀ (s : State),
      timeRuns s = true →
      s.tm.cfg.source = 2 →
      s.tm.steps = [] →
      isStep (ppsTheta s) s = false →
      s.tm.lockedOnce = false ∨ (ppsTheta s).natAbs ≤ 1000000 →
      ∃ t, exec .ppsEdge s = .next t ∧
        t.tm.ppsAt = some s.now ∧ t.tm.theta = ppsTheta s ∧ t.tm.steps = [] ∧ t.tm.counter = s.tm.counter ∧
        t.tm.integ = s.tm.integ + (if s.rs.servoCold then 4 else 1) * s.tm.cfg.ki * ppsTheta s) ∧
  -- ppsEdgeFar
  (∀ (s : State),
      timeRuns s = true →
      s.tm.cfg.source = 2 →
      s.tm.lockedOnce = true →
      1000000 < (ppsTheta s).natAbs →
      ∃ t, exec .ppsEdge s = .next t ∧
        t.tm = { s.tm with stats := bumpAt s.tm.stats 7 }) ∧
  -- ppsSourceLost
  (∀ (s : State),
      timeRuns s = true →
      s.tm.cfg.source = 2 →
      s.tm.st = 2 →
      ∃ t, exec .ppsSourceLost s = .next t ∧
        t.tm.st = 3 ∧ Raised 43 t ∧ (∀ a, s.tm.ppsAt = some a → a + 3 * secNs ≤ t.now)) ∧
  -- clockStepItem
  (∀ (s : State) (a : StepAsk) (r : List StepAsk) (i : Item),
      runningStep s = some i →
      s.tm.steps = a :: r →
      timeRuns s = true →
      isUp s 9 = true →
      mayAppend s = true →
      ∃ t, exec .clockStepItem s = .next t ∧
        t.tm.steps = r ∧ t.tm.counter = a.new + (s.tm.counter - a.old) ∧ t.tm.wasSet = true ∧ Raised 44 t) ∧
  -- clockStepItemWaits
  (∀ (s : State),
      runningStep s = none →
      ∃ t, exec .clockStepItem s = .next t ∧
        t = s) ∧
  -- clockStepItemTimeSet
  (∀ (s : State) (a : StepAsk) (r : List StepAsk) (d : Nat) (x : Desc) (i : Item),
      runningStep s = some i →
      s.tm.steps = a :: r →
      timeRuns s = true →
      isUp s 9 = true →
      mayAppend s = true →
      a.desc = some d →
      descOf s d = some x →
      x.stage = .waiting ∧ x.orphan = false →
      ∃ t, exec .clockStepItem s = .next t ∧
        Done d 0 0 (toLE 8 (stampOf a.old)) t)

/-- What each of these commands answers, under conditions on the state and its operands alone: LEAP_SECOND (R349), CLOCK_VALID_CHANGE
(R353), TIME_CHECK_DUE (R360), TPULSE_INSTANT (R361), TIME_CFG (R351), TIME_SET (R357), TIME_ZONE_SET (R358), TPULSE_SET (R361), TIME_READ
(R353), TIME_STATS (R354). In it the time line is the model's (log 1) and outputs, journal bodies and tags are named as the model names
them (log 10). -/
def Obligations.TimeCommands : Prop :=
  -- leapSecond
  (∀ (s : State) (k e : Int),
      leapPending s = some (k, e) →
      timeRuns s = true →
      ∃ t, exec .leapSecond s = .next t ∧
        t.tm.zone.utc = s.tm.zone.utc + k ∧ t.tm.zone.leap = 0 ∧ t.opt.zone = t.tm.zone) ∧
  -- clockValidChange
  (∀ (s : State),
      clockValid s ≠ s.tm.validSeen →
      mayAppend s = true ∨ isStandby s = true →
      ∃ t, exec .clockValidChange s = .next t ∧
        t.tm.validSeen = clockValid s) ∧
  -- timeCheckDue
  (∀ (tei : Nat) (s : State) (x : Station) (k : Nat) (e : MEntry),
      s.plc.stations.find? (fun t => t.tei == tei) = some x →
      stationOf s x.id = some x →
      s.tm.cfg.checkPeriod ≠ 0 →
      isUp s 12 = true →
      isStandby s = false →
      entryById s x.id = some (k, e) →
      entryOf s k = some e →
      (currentKey s k e.id).isSome = true →
      (mstateOf s k).downCounter < ctrMax →
      ∃ t, exec (.timeCheckDue tei) s = .next t ∧
        (t.plc.stations.find? (fun t => t.tei == tei)).map (fun y => (y.checkAt, y.checkSeq, y.queue.length)) = some (some t.now, some (s.plc.cmdSeq, x.txSeq, none), x.queue.length + 1) ∧
        t.plc.cmdSeq = (s.plc.cmdSeq + 1) % 65536 ∧ (mstateOf t k).downCounter = (mstateOf s k).downCounter + 1) ∧
  -- tpulseInstant
  (∀ (k : Nat) (s : State) (i : Int) (p : Tpulse),
      s.tm.nextPulse.getD k none = some i →
      timeRuns s = true →
      k < s.tm.nextPulse.length ∧ k < s.tm.fired.length →
      s.tm.pulses.getD k Tpulse.reset = p →
      p.requireValid = false →
      ∃ t, exec (.tpulseInstant k) s = .next t ∧
        t.tm.nextPulse.getD k none = (if p.periodic then some (firstOf p (i + 8)) else none) ∧
        (p.periodic = false → t.tm.fired.getD k false = true) ∧ t.out = s.out ++ [.pulse k i]) ∧
  -- timeCfg
  (∀ (d : Nat) (s : State) (x : Desc),
      Ready 0x60 d s x →
      checkFaults (cfgChecks x.bytes) = [] →
      ∃ t, exec (.timeCfg d) s = .next t ∧
        Done d 0 0 [] t ∧ t.tm.cfg = cfgOf x.bytes ∧ t.opt.time = cfgOf x.bytes ∧
        (s.tm.cfg.source ≠ u8 x.bytes 16 → t.tm.st = 0 ∧ t.tm.lockedOnce = false)) ∧
  -- timeSetStep
  (∀ (d : Nat) (s : State) (x : Desc),
      Ready 0x61 d s x →
      u32 x.bytes 24 ≤ 999999999 →
      1 ≤ u32 x.bytes 28 →
      s.tm.cfg.source ≠ 1 ∨ clockValid s = false →
      isStep (s.tm.counter - givenTime s x.bytes) s = true →
      ∃ t, exec (.timeSet d) s = .next t ∧
        Waits d t ∧
        t.tm.steps = s.tm.steps ++ [{ cause := 2, old := s.tm.counter, new := givenTime s x.bytes, err := u32 x.bytes 28 * 1000, desc := some d }]) ∧
  -- timeSetSlew
  (∀ (d : Nat) (s : State) (x : Desc),
      Ready 0x61 d s x →
      u32 x.bytes 24 ≤ 999999999 →
      1 ≤ u32 x.bytes 28 →
      s.tm.cfg.source ≠ 1 ∨ clockValid s = false →
      isStep (s.tm.counter - givenTime s x.bytes) s = false →
      ∃ t, exec (.timeSet d) s = .next t ∧
        Done d 0 0 (toLE 8 (stamp s)) t ∧ t.tm.slewLeft = (givenTime s x.bytes - s.tm.counter) * fracUnit ∧
        t.tm.counter = s.tm.counter ∧ t.tm.errSet = u32 x.bytes 28 * 1000) ∧
  -- timeSetRefused
  (∀ (d : Nat) (s : State) (x : Desc),
      Ready 0x61 d s x →
      u32 x.bytes 24 ≤ 999999999 →
      1 ≤ u32 x.bytes 28 →
      s.tm.cfg.source = 1 →
      clockValid s = true →
      ∃ t, exec (.timeSet d) s = .next t ∧
        Done d 0x20 0 [] t ∧ t.tm = s.tm) ∧
  -- timeZoneSet
  (∀ (d : Nat) (s : State) (x : Desc) (data : Bytes),
      Ready 0x62 d s x →
      u64 x.bytes 24 % 16 = 0 →
      x.input = some data →
      zoneFault data = none →
      mayAppend s = true ∨ isStandby s = true →
      ∃ t, exec (.timeZoneSet d) s = .next t ∧
        Done d 0 0 [] t ∧ t.tm.zone.utc = i16 data 2 ∧ t.tm.zone.leap = u8 data 5 ∧ t.tm.zone.leapDay = u16 data 6 ∧
        t.opt.zoneBuf = data) ∧
  -- tpulseSet
  (∀ (d : Nat) (s : State) (x : Desc),
      Ready 0x63 d s x →
      checkFaults (pulseChecks x.bytes) = [] →
      (pulseOf x.bytes).enable = false ∨ (pulseOf x.bytes).periodic = true ∨ s.tm.counter + 1000000 ≤ (pulseOf x.bytes).start →
      u8 x.bytes 16 < s.tm.nextPulse.length →
      ∃ t, exec (.tpulseSet d) s = .next t ∧
        Done d 0 0 (toLE 6 (((t.tm.nextPulse.getD (u8 x.bytes 16) none).getD 0).toNat / 1000000000) ++ toLE 4 (((t.tm.nextPulse.getD (u8 x.bytes 16) none).getD 0).toNat % 1000000000)) t ∧
        t.tm.nextPulse.getD (u8 x.bytes 16) none = (if (pulseOf x.bytes).enable then some (if (pulseOf x.bytes).periodic then firstOf (pulseOf x.bytes) (s.tm.counter + 1000000) else truncTick (pulseOf x.bytes).start) else none) ∧
        t.tm.pulses = setAt s.tm.pulses (u8 x.bytes 16) (pulseOf x.bytes)) ∧
  -- tpulseSetLate
  (∀ (d : Nat) (s : State) (x : Desc),
      Ready 0x63 d s x →
      checkFaults (pulseChecks x.bytes) = [] →
      (pulseOf x.bytes).enable = true →
      (pulseOf x.bytes).periodic = false →
      ((pulseOf x.bytes).start : Int) < s.tm.counter + 1000000 →
      ∃ t, exec (.tpulseSet d) s = .next t ∧
        Done d 0x22 0 [] t ∧ t.tm = s.tm) ∧
  -- timeRead
  (∀ (d : Nat) (s : State) (x : Desc),
      Ready 0x64 d s x →
      u64 x.bytes 24 % 64 = 0 →
      ∃ t, exec (.timeRead d) s = .next t ∧
        Done d 0 0 [] t ∧ PutOut s (u64 x.bytes 24) (timeReadBytes s) t) ∧
  -- timeStats
  (∀ (d : Nat) (s : State) (x : Desc),
      Ready 0x65 d s x →
      u64 x.bytes 24 % 64 = 0 →
      ∃ t, exec (.timeStats d) s = .next t ∧
        Done d 0 0 [] t ∧ PutOut s (u64 x.bytes 24) (padTo 64 (s.tm.stats.flatMap (toLE 4))) t ∧ t.tm.stats = if bit (u8 x.bytes 16) 0 then List.replicate 12 0 else s.tm.stats)

/-- What each of these commands answers, under conditions on the state and its operands alone: FORWARD_SEND (R376), FWD_WAIT_EXPIRE (R378),
FWD_BUSY_EXPIRE (R378), TIME_BROADCAST_DUE (R382), TARIFF_BROADCAST_DUE (R383), BCAST_HOLD_LAPSE (R383), MEM_WRITE_ZLR_DONE (R380). In it
the time line is the model's (log 1) and outputs, journal bodies and tags are named as the model names them (log 10). -/
def Obligations.ForwardingAndBroadcasts : Prop :=
  -- forwardSend
  (∀ (home : Nat) (s : State) (f : FwdFrame),
      s.arch.fwd = [f] →
      f.msgId = none →
      f.holdTo ≤ s.now →
      homeOf s f = home →
      0 < windowOfHome s home →
      engineOpen s = true →
      sessionUp s (hopOf s home) = true →
      ∃ t, exec (.forwardSend home) s = .next t ∧
        (t.arch.fwd.head?).map (fun g => (g.id, g.msgId, g.sent)) = some (f.id, some (((peerOf s home).map (·.nextId)).getD 1), s.now) ∧
        t.out.length = s.out.length + 1 ∧ t.arch.stats = bumpAt s.arch.stats 7) ∧
  -- fwdWaitExpire
  (∀ (home msgId n : Nat) (s : State) (f : FwdFrame),
      fwdIdx s home msgId = some n →
      s.arch.fwd[n]? = some f →
      engineOpen s = true →
      sessionUp s (hopOf s home) = true →
      ∃ t, exec (.fwdWaitExpire home msgId) s = .next t ∧
        (t.arch.fwd[n]?).map (fun g => (g.id, g.msgId, g.sent)) = some (f.id, some (((peerOf s home).map (·.nextId)).getD 1), t.now) ∧
        f.sent + tFwdWait ≤ t.now) ∧
  -- fwdBusyExpire
  (∀ (home meter n : Nat) (s : State) (f : FwdFrame),
      s.arch.fwd.findIdx? (fun f => f.id == meter && f.msgId.isNone && f.holdTo != 0 && homeOf s f == home) = some n →
      s.arch.fwd[n]? = some f →
      engineOpen s = true →
      sessionUp s (hopOf s home) = true →
      ∃ t, exec (.fwdBusyExpire home meter) s = .next t ∧
        (t.arch.fwd[n]?).map (fun g => (g.id, g.holdTo, g.msgId.isSome)) = some (f.id, 0, true) ∧ f.holdTo ≤ t.now) ∧
  -- timeBroadcastDue
  (∀ (s : State),
      isDesignated s = true →
      engineOpen s = true →
      ∃ t, exec .timeBroadcastDue s = .next t ∧
        t.arch.timeAt = t.now ∧ s.arch.timeAt + 16 * secNs ≤ t.now) ∧
  -- tariffBroadcastDue
  (∀ (s : State),
      isDesignated s = true →
      engineOpen s = true →
      ∃ t, exec .tariffBroadcastDue s = .next t ∧
        t.arch.tariffAt = t.now ∧ s.arch.tariffAt + 60 * secNs ≤ t.now) ∧
  -- bcastHoldLapse
  (∀ (s : State) (b : Nat × Nat × Nat),
      s.arch.bcast = some b →
      s.arch.bcastOn = true →
      ∃ t, exec .bcastHoldLapse s = .next t ∧
        t.arch.bcastOn = false ∧ b.2.2 + s.arch.set.bcastHold * secNs ≤ t.now) ∧
  -- memWriteZlrDone
  (∀ (m k : Nat) (s : State),
      isUp s 10 = true →
      s.arch.zlr.contains (m, k) = true →
      sessionUp s (hopOf s m) = true →
      ∃ t, exec (.memWriteZlrDone m k) s = .next t ∧
        t.arch.zlr = s.arch.zlr.erase (m, k) ∧ t.out.length = s.out.length + 1)

/-- What each of these commands answers, under conditions on the state and its operands alone: URR_DATAGRAM_RX (R372), HELLO_RX (R369),
HELLO_REPLY_RX (R369), CONFIRM_RX (R369), URR_RESET_RX (R372), URR_HANDSHAKE_TIMEOUT (R370), URR_REKEY (R370), URR_KEEPALIVE_DUE (R374),
URR_SESSION_DEAD (R386), URR_RESEND (R374), URR_GIVE_UP (R374), URR_JOIN_RETRY (R385). In it the time line is the model's (log 1) and
outputs, journal bodies and tags are named as the model names them (log 10). -/
def Obligations.UrraufSessions : Prop :=
  -- urrDatagramRx
  (∀ (g : Bytes) (s : State) (m : Nat) (e : Session) (plain : Bytes),
      engineOpen s = true →
      16 ≤ g.length →
      u8 g 0 = 0x10 →
      sessionFor s (beNat (slice g 2 2)) = some (m, e, false) →
      isReplay e (beNat (slice g 4 8)) = false →
      g.length = 32 + beNat (slice g 12 2) →
      gcmOpen e.rxKey (e.rxSalt ++ slice g 4 8) (g.take 16) (slice g 16 (beNat (slice g 12 2))) (slice g (16 + beNat (slice g 12 2)) 16) = some plain →
      parseMsgs plain.length plain = [] →
      ∃ t, exec (.urrDatagramRx g) s = .next t ∧
        ((peerOf t m).bind (·.session)).map (fun x => (x.rxHigh, x.rxAt, x.rxSet.contains (beNat (slice g 4 8)))) = some (max e.rxHigh (beNat (slice g 4 8)), s.now, true)) ∧
  -- urrDatagramRxReplay
  (∀ (g : Bytes) (s : State) (m : Nat) (e : Session) (old : Bool),
      engineOpen s = true →
      16 ≤ g.length →
      u8 g 0 = 0x10 →
      sessionFor s (beNat (slice g 2 2)) = some (m, e, old) →
      isReplay e (beNat (slice g 4 8)) = true →
      ∃ t, exec (.urrDatagramRx g) s = .next t ∧
        t.arch = { s.arch with stats := bumpAt s.arch.stats 0 } ∧ t.out = s.out) ∧
  -- urrDatagramRxForged
  (∀ (g : Bytes) (s : State) (m : Nat) (e : Session) (old : Bool),
      engineOpen s = true →
      16 ≤ g.length →
      u8 g 0 = 0x10 →
      sessionFor s (beNat (slice g 2 2)) = some (m, e, old) →
      isReplay e (beNat (slice g 4 8)) = false →
      g.length ≠ 32 + beNat (slice g 12 2) ∨ gcmOpen e.rxKey (e.rxSalt ++ slice g 4 8) (g.take 16) (slice g 16 (beNat (slice g 12 2))) (slice g (16 + beNat (slice g 12 2)) 16) = none →
      ∃ t, exec (.urrDatagramRx g) s = .next t ∧
        t.arch = { s.arch with stats := bumpAt s.arch.stats 1 } ∧ t.out = s.out) ∧
  -- helloRx
  (∀ (x : Hello) (s : State) (p : Nat × Nat),
      (if x.isthmus then laneOpen s else engineOpen s) = true →
      certGood x.isthmus x.cert (adoptArch x.isthmus s) = true →
      helloPoint x.body = some p →
      (ownHello (adoptArch x.isthmus s)).isSome = true →
      ∃ t, exec (.helloRx x) s = .next t ∧
        ((linkPeer x.isthmus t x.cert.member).bind (·.resp)).map (fun y => (y.initiator, y.peerRx, y.pubX, y.pubY)) = some (false, helloRx x.body, x.cert.pubX, x.cert.pubY) ∧
        t.out.length = s.out.length + 1) ∧
  -- helloReplyRx
  (∀ (x : Hello) (s : State) (p : Nat × Nat) (k : Handshake),
      x.isthmus = false →
      engineOpen s = true →
      ((peerOf s x.cert.member).bind (·.hs)) = some k →
      certGood false x.cert s = true →
      helloPoint x.body = some p →
      ecdsaVerify (x.cert.pubX, x.cert.pubY) (k.hello ++ helloPlain x.body) x.sigR x.sigS = true →
      ∃ t, exec (.helloReplyRx x) s = .next t ∧
        sessionUp t x.cert.member = true ∧ ((peerOf t x.cert.member).bind (·.hs)) = none) ∧
  -- helloReplyRxIsthmus
  (∀ (x : Hello) (s : State) (p : Nat × Nat) (k : Handshake),
      x.isthmus = true →
      laneOpen s = true →
      s.pair.isthmus.hs = some k →
      certGood true x.cert s = true →
      helloPoint x.body = some p →
      ecdsaVerify (x.cert.pubX, x.cert.pubY) (k.hello ++ helloPlain x.body) x.sigR x.sigS = true →
      s.pair.st = .active →
      s.pair.leaseRx = false →
      ∃ t, exec (.helloReplyRx x) s = .next t ∧
        t.pair.isthmus.session.isSome = true ∧ t.pair.isthmus.hs = none ∧ t.pair.st = .active ∧ t.pair.leaseAt = some s.now) ∧
  -- confirmRx
  (∀ (m r q : Nat) (s : State) (k : Handshake) (e : Session),
      engineOpen s = true →
      ((peerOf s m).bind (·.resp)) = some k →
      k.ready = some e →
      ecdsaVerify (k.pubX, k.pubY) k.h r q = true →
      ∃ t, exec (.confirmRx false m r q) s = .next t ∧
        sessionUp t m = true ∧ ((peerOf t m).bind (·.resp)) = none) ∧
  -- confirmRxIsthmus
  (∀ (m r q : Nat) (s : State) (k : Handshake) (e : Session),
      laneOpen s = true →
      s.pair.isthmus.resp = some k →
      k.ready = some e →
      ecdsaVerify (k.pubX, k.pubY) k.h r q = true →
      s.pair.st = .active →
      s.pair.leaseRx = false →
      ∃ t, exec (.confirmRx true m r q) s = .next t ∧
        t.pair.isthmus.session.isSome = true ∧ t.pair.isthmus.resp = none ∧ t.pair.st = .active ∧ t.pair.leaseAt = some s.now) ∧
  -- urrResetRx
  (∀ (m : Nat) (s : State),
      knownPeer s m = true →
      ((peerAt s m).bind (·.hs)) = none →
      canOpen (adoptArch (isIsthmus s m) s) m = true →
      (ownHello (adoptArch (isIsthmus s m) s)).isSome = true →
      ∃ t, exec (.urrResetRx m) s = .next t ∧
        ((peerAt t m).bind (·.hs)).map (fun y => (y.initiator, y.since)) = some (true, s.now) ∧ t.out.length = s.out.length + 1) ∧
  -- urrHandshakeTimeout
  (∀ (m : Nat) (s : State) (p : Peer) (k : Handshake),
      peerAt s m = some p →
      p.hs = some k →
      canOpen s m = true →
      ∃ t, exec (.urrHandshakeTimeout m) s = .next t ∧
        (peerAt t m).map (fun q => (q.hs, q.retryAt)) = some (none, some (t.now + tKa)) ∧ k.since + tUrrHs ≤ t.now) ∧
  -- urrRekey
  (∀ (m : Nat) (s : State) (p : Peer) (e : Session),
      peerAt s m = some p →
      p.session = some e →
      p.hs = none →
      canOpen s m = true →
      knownPeer s m = true →
      canOpen (adoptArch (isIsthmus s m) s) m = true →
      (ownHello (adoptArch (isIsthmus s m) s)).isSome = true →
      ∃ t, exec (.urrRekey m) s = .next t ∧
        ((peerAt t m).bind (·.hs)).map (fun y => (y.initiator, y.since)) = some (true, t.now) ∧
        (peerAt t m).map (fun q => q.session.isSome) = some true ∧
        (e.txSeq < seqLimit ∧ e.rxHigh < seqLimit → e.since + tRekey ≤ t.now)) ∧
  -- urrKeepaliveDue
  (∀ (m : Nat) (s : State) (p : Peer) (e : Session),
      isIsthmus s m = false →
      peerOf s m = some p →
      p.retryAt = none →
      p.session = some e →
      engineOpen s = true →
      hopOf s m = m →
      ∃ t, exec (.urrKeepaliveDue m) s = .next t ∧
        t.out.length = s.out.length + 1 ∧ e.txAt + tKa ≤ t.now) ∧
  -- urrKeepaliveDueRetry
  (∀ (m : Nat) (s : State) (p : Peer) (at_ : Nat),
      peerAt s m = some p →
      p.retryAt = some at_ →
      canOpen s m = true →
      canOpen (adoptArch (isIsthmus s m) s) m = true →
      (ownHello (adoptArch (isIsthmus s m) s)).isSome = true →
      ∃ t, exec (.urrKeepaliveDue m) s = .next t ∧
        ((peerAt t m).bind (·.hs)).map (·.initiator) = some true ∧ (peerAt t m).map (·.retryAt) = some none ∧ at_ ≤ t.now) ∧
  -- urrSessionDead
  (∀ (m : Nat) (s : State) (p : Peer) (e : Session),
      isIsthmus s m = false →
      isUp s 10 = true →
      peerOf s m = some p →
      p.session = some e →
      ∃ t, exec (.urrSessionDead m) s = .next t ∧
        sessionUp t m = false ∧ (p.state ≠ 0 → Raised 60 t) ∧ e.rxAt + tDead ≤ t.now) ∧
  -- urrResend
  (∀ (m k : Nat) (s : State) (o : OutMsg),
      outOf s m k = some o →
      o.ack = true →
      engineOpen s = true →
      sessionUp s (hopOf s m) = true →
      ∃ t, exec (.urrResend m k) s = .next t ∧
        (outOf t m k).map (fun x => (x.last, x.rto)) = some (t.now, min rtoMax (2 * o.rto)) ∧ t.out.length = s.out.length + 1 ∧
        o.last + o.rto * msNs ≤ t.now) ∧
  -- urrGiveUp
  (∀ (m k : Nat) (s : State) (o : OutMsg),
      outOf s m k = some o →
      o.ack = true →
      engineOpen s = true →
      ∃ t, exec (.urrGiveUp m k) s = .next t ∧
        sessionUp t (hopOf s m) = false ∧ o.first + tUrrGive ≤ t.now) ∧
  -- urrJoinRetry
  (∀ (s : State),
      s.arch.join = 3 →
      engineOpen s = true →
      isDesignated s = false →
      sessionUp s (hopOf s s.arch.set.designated) = true →
      ∃ t, exec .urrJoinRetry s = .next t ∧
        t.arch.join = 1 ∧ t.arch.joinAt = t.now ∧ s.arch.joinAt + 60 * secNs ≤ t.now ∧ t.out.length = s.out.length + 1)

/-- What each of these commands answers, under conditions on the state and its operands alone: ARCH_SET (R365), ARCH_DIR_SET (R365),
ARCH_PEERS (R386), RHOST_SET (R379), REMOTE_REG (R379), ARCH_LEAVE (R386), ARCH_STATS (R373). In it outputs, journal bodies and tags are
named as the model names them (log 10). -/
def Obligations.ArchipelagoCommands : Prop :=
  -- archSet
  (∀ (d : Nat) (s : State) (x : Desc),
      Ready 0x70 d s x →
      checkFaults (archChecks x.bytes) = [] →
      isNoHub s (u16 x.bytes 16) = false →
      (remoteHosted s = true → isNoHub s (u16 x.bytes 18) = false) →
      ¬ (u16 x.bytes 16 = s.arch.member ∧ s.arch.role = 1) →
      ∃ t, exec (.archSet d) s = .next t ∧
        Done d 0 0 (toLE 2 s.arch.member ++ toLE 1 s.arch.role) t ∧ t.opt.arch = archOf x.bytes ∧ t.arch = s.arch) ∧
  -- archSetRefused
  (∀ (d : Nat) (s : State) (x : Desc),
      Ready 0x70 d s x →
      checkFaults (archChecks x.bytes) = [] →
      isNoHub s (u16 x.bytes 16) = true →
      ∃ t, exec (.archSet d) s = .next t ∧
        Done d 0x24 0 [] t ∧ t.opt = s.opt) ∧
  -- archDirSet
  (∀ (d : Nat) (s : State) (x : Desc) (data : Bytes),
      Ready 0x71 d s x →
      1 ≤ u16 x.bytes 16 ∧ u16 x.bytes 16 ≤ 4096 →
      u64 x.bytes 24 % 16 = 0 →
      x.input = some data →
      isDesignated s = true →
      ((chunks 24 data).map entryOfBytes).all entryGood = true →
      ∃ t, exec (.archDirSet d) s = .next t ∧
        Done d 0 0 [] t ∧ t.arch.dir = ((chunks 24 data).map entryOfBytes).foldl (fun l e => putEntry e l) []) ∧
  -- archDirSetRefused
  (∀ (d : Nat) (s : State) (x : Desc),
      Ready 0x71 d s x →
      1 ≤ u16 x.bytes 16 ∧ u16 x.bytes 16 ≤ 4096 →
      u64 x.bytes 24 % 16 = 0 →
      isDesignated s = false →
      ∃ t, exec (.archDirSet d) s = .next t ∧
        Done d 0x20 0 [] t ∧ t.arch = s.arch) ∧
  -- archPeers
  (∀ (d : Nat) (s : State) (x : Desc),
      Ready 0x72 d s x →
      u64 x.bytes 24 % 64 = 0 →
      ∃ t, exec (.archPeers d) s = .next t ∧
        Done d 0 0 (toLE 2 (s.arch.peers.filter (fun p => p.state == 1)).length) t ∧ PutOut s (u64 x.bytes 24) (peersBytes s) t) ∧
  -- rhostSet
  (∀ (d : Nat) (s : State) (x : Desc),
      Ready 0x73 d s x →
      u16 x.bytes 16 ≤ 4095 →
      u8 x.bytes 18 ≤ 31 →
      (dirOf s (u16 x.bytes 16)).isSome = true →
      s.arch.role = 2 →
      windowGood s (u16 x.bytes 16) (u64 x.bytes 24) (u64 x.bytes 32) = true →
      ∃ t, exec (.rhostSet d) s = .next t ∧
        Done d 0 0 [] t ∧
        t.arch.windows = s.arch.windows.filter (fun v => v.member != u16 x.bytes 16) ++ [{ member := u16 x.bytes 16, evtPair := u8 x.bytes 18, base := u64 x.bytes 24, size := u64 x.bytes 32, prod := 0, cons := 0, phase := true }]) ∧
  -- rhostSetUnknown
  (∀ (d : Nat) (s : State) (x : Desc),
      Ready 0x73 d s x →
      u16 x.bytes 16 ≤ 4095 →
      u8 x.bytes 18 ≤ 31 →
      dirOf s (u16 x.bytes 16) = none →
      ∃ t, exec (.rhostSet d) s = .next t ∧
        Done d 0x21 0 [] t ∧ t.arch = s.arch) ∧
  -- remoteRegOwn
  (∀ (d : Nat) (s : State) (x : Desc),
      Ready 0x74 d s x →
      u16 x.bytes 16 = s.arch.member ∧ s.arch.member ≤ 4095 →
      u8 x.bytes 18 = 2 →
      u32 x.bytes 20 = evtRingCons →
      s.arch.role = 2 →
      bit (u8 x.bytes 19) 0 = false →
      ∃ t, exec (.remoteReg d) s = .next t ∧
        Done d 0 0 (toLE 4 (ringConsRead s)) t ∧ t.arch = s.arch) ∧
  -- remoteRegOwnWrite
  (∀ (d : Nat) (s : State) (x : Desc),
      Ready 0x74 d s x →
      u16 x.bytes 16 = s.arch.member ∧ s.arch.member ≤ 4095 →
      u8 x.bytes 18 = 2 →
      u32 x.bytes 20 = evtRingCons →
      s.arch.role = 2 →
      bit (u8 x.bytes 19) 0 = true →
      ∃ t, exec (.remoteReg d) s = .next t ∧
        Done d 0 0 [] t ∧ t.arch.consMember = u32 x.bytes 24 / 65536 % 4096) ∧
  -- remoteReg
  (∀ (d : Nat) (s : State) (x : Desc) (p : Peer),
      Ready 0x74 d s x →
      u16 x.bytes 16 ≠ s.arch.member ∧ u16 x.bytes 16 ≤ 4095 →
      u8 x.bytes 18 = 0 ∨ u8 x.bytes 18 = 2 →
      (dirOf s (u16 x.bytes 16)).isSome = true →
      s.opt.cert.isSome = true →
      sessionUp s (hopOf s (u16 x.bytes 16)) = true →
      peerOf s (u16 x.bytes 16) = some p →
      ∃ t, exec (.remoteReg d) s = .next t ∧
        Waits d t ∧
        ((peerOf t (u16 x.bytes 16)).bind (fun q => q.out.getLast?)).map (fun o => (o.msgId, o.type, o.use, o.ack)) = some (p.nextId, (if bit (u8 x.bytes 19) 0 then 0x22 else 0x20), .remoteReg d, true) ∧
        t.out.length = s.out.length + 1) ∧
  -- archLeave
  (∀ (d : Nat) (s : State) (x : Desc),
      Ready 0x75 d s x →
      s.arch.peers = [] →
      ∃ t, exec (.archLeave d) s = .next t ∧
        Done d 0 0 [] t ∧ t.arch.join = 0) ∧
  -- archLeaveUp
  (∀ (d : Nat) (s : State) (x : Desc) (p : Peer),
      Ready 0x75 d s x →
      remoteHosted s = false →
      s.arch.peers = [p] →
      p.session.isSome = true →
      p.out = [] →
      hopOf s p.member = p.member →
      ∃ t, exec (.archLeave d) s = .next t ∧
        Done d 0 0 [] t ∧ t.arch.join = 0 ∧ (peerOf t p.member).map (fun q => (q.session, q.out)) = some (none, [])) ∧
  -- archStats
  (∀ (d : Nat) (s : State) (x : Desc),
      Ready 0x76 d s x →
      u64 x.bytes 24 % 64 = 0 →
      ∃ t, exec (.archStats d) s = .next t ∧
        Done d 0 0 [] t ∧ PutOut s (u64 x.bytes 24) (padTo 64 (s.arch.stats.flatMap (toLE 4))) t ∧ t.arch.stats = if bit (u8 x.bytes 16) 0 then List.replicate 10 0 else s.arch.stats)

/-- What each of these commands answers, under conditions on the state and its operands alone: ISTHMUS_TRAINED (R388), ISTHMUS_DOWN (R393),
RENEW_SEND (R391), RENEW_RX (R392), RENEW_ACK_RX (R391), LEASE_EXPIRE (R391), TAKEOVER_TIMER_EXPIRE (R392), LEASE_RX_CHANGE (R392),
RELEASE_RX (R396). In it the time line is the model's (log 1) and outputs, journal bodies and tags are named as the model names them (log
10). -/
def Obligations.LeaseAndTakeover : Prop :=
  -- isthmusTrained
  (∀ (s : State),
      s.pair.trained = false →
      s.pair.cfg.isSome = true →
      isUp s 11 = true →
      6 ≤ s.rs.phase →
      (ownHello (onPair (fun p => { p with trained := true }) s)).isSome = true →
      ∃ t, exec .isthmusTrained s = .next t ∧
        t.pair.trained = true ∧ t.pair.isthmus.hs.map (fun k => (k.initiator, k.since)) = some (true, s.now) ∧
        t.out.length = s.out.length + 1) ∧
  -- isthmusDownLane
  (∀ (s : State),
      s.pair.trained = true →
      ∃ t, exec (.isthmusDown true) s = .next t ∧
        t.pair.trained = false ∧ t.pair.joined = false ∧ t.pair.isthmus.session = none ∧ t.pair.isthmus.hs = none ∧
        t.pair.isthmus.out = [] ∧ t.pair.st = s.pair.st) ∧
  -- isthmusDown
  (∀ (s : State),
      isthmusUp s = true →
      s.pair.st = .active →
      s.pair.leaseRx = false →
      ∃ t, exec (.isthmusDown false) s = .next t ∧
        t.pair.isthmus.session = none ∧ t.pair.st = .solo ∧ t.pair.leaseAt = some s.now ∧ t.pair.gate = true ∧ Raised 34 t) ∧
  -- renewSend
  (∀ (s : State) (g : PairCfg),
      s.pair.cfg = some g →
      holdsToken s = true →
      isUp s 11 = true →
      ∃ t, exec .renewSend s = .next t ∧
        t.pair.renewNo = (s.pair.renewNo + 1) % 2 ^ 32 ∧ t.pair.renewAt = some t.now ∧
        (s.pair.st = .solo → t.pair.leaseAt = some t.now) ∧
        (isthmusUp s = true → t.pair.renews = s.pair.renews ++ [((s.pair.renewNo + 1) % 2 ^ 32, t.now)] ∧ t.out.length = s.out.length + 1)) ∧
  -- renewRx
  (∀ (a b g q : Nat) (s : State),
      isUp s 11 = true →
      isthmusUp s = true →
      s.pair.st = .standby →
      ∃ t, exec (.renewRx a b g q) s = .next t ∧
        t.pair.takeover = some (s.now, b + g, g) ∧ t.pair.partnerSeq = q ∧ t.pair.joined = true ∧ isthmusUp t = true ∧
        s.out.length < t.out.length) ∧
  -- renewAckRx
  (∀ (a g : Nat) (s : State) (k : PairCfg) (n t0 l : Nat),
      isUp s 11 = true →
      isthmusUp s = true →
      s.pair.cfg = some k →
      s.pair.renews.find? (fun r => r.1 == a) = some (n, t0) →
      holdsToken s = true →
      s.pair.leaseAt = some l →
      cyclesSince s l < leaseCyc k →
      s.pair.owesRelease = false ∨ eligible g = false →
      ∃ t, exec (.renewAckRx a g) s = .next t ∧
        t.pair.leaseAt = some t0 ∧ t.pair.partner = g ∧ t.pair.renews = s.pair.renews.filter (fun r => t0 < r.2) ∧
        t.pair.st = s.pair.st) ∧
  -- renewAckRxRelease
  (∀ (a g : Nat) (s : State) (k : PairCfg) (n t0 l : Nat),
      isUp s 11 = true →
      isthmusUp s = true →
      s.pair.cfg = some k →
      s.pair.renews.find? (fun r => r.1 == a) = some (n, t0) →
      holdsToken s = true →
      s.pair.leaseAt = some l →
      cyclesSince s l < leaseCyc k →
      s.pair.owesRelease = true →
      eligible g = true →
      ∃ t, exec (.renewAckRx a g) s = .next t ∧
        t.pair.st = .standby ∧ t.pair.leaseAt = none ∧ t.pair.owesRelease = false ∧ t.pair.gate = false) ∧
  -- leaseExpire
  (∀ (s : State) (g : PairCfg) (t0 : Nat),
      s.pair.cfg = some g →
      s.pair.leaseAt = some t0 →
      holdsToken s = true →
      ∃ t, exec .leaseExpire s = .next t ∧
        t.pair.st = (if isthmusUp s then .standby else .fenced) ∧ t.pair.leaseAt = none ∧ t.pair.gate = false ∧
        t.pair.leaseTx = false ∧ Raised 34 t ∧ t0 + cyclesNs (leaseCyc g) ≤ t.now) ∧
  -- takeoverTimerExpire
  (∀ (s : State) (t0 b g : Nat),
      s.pair.takeover = some (t0, b, g) →
      s.pair.st = .standby →
      s.pair.leaseRx = false →
      isUp s 11 = true →
      eligible (ownHealth s) = true →
      t0 + cyclesNs b ≤ s.now ∧ s.pair.leaseRxAt + cyclesNs g ≤ s.now →
      b ≤ cyclesSince s t0 →
      lowFor s g = true →
      ∃ t, exec .takeoverTimerExpire s = .next t ∧
        t.pair.st = (if isthmusUp s then .active else .solo) ∧ t.pair.gate = true ∧ t.pair.leaseTx = true ∧
        t.pair.takeover = none ∧ t.pair.leaseAt = some s.now ∧ Raised 34 t) ∧
  -- leaseRxChange
  (∀ (level : Bool) (s : State),
      level ≠ s.pair.leaseRx →
      ∃ t, exec (.leaseRxChange level) s = .next t ∧
        t.pair.leaseRx = level ∧ t.pair.leaseRxAt = s.now ∧ t.pair.st = s.pair.st) ∧
  -- releaseRx
  (∀ (q : Nat) (s : State),
      isUp s 11 = true →
      isthmusUp s = true →
      s.pair.st = .standby →
      s.pair.leaseRx = false →
      eligible (ownHealth (onPair (fun p => { p with partnerSeq := q }) s)) = true →
      ∃ t, exec (.releaseRx q) s = .next t ∧
        t.pair.st = .active ∧ t.pair.gate = true ∧ t.pair.takeover = none ∧ t.pair.leaseAt = some s.now) ∧
  -- releaseRxUnfit
  (∀ (q : Nat) (s : State),
      isUp s 11 = true →
      isthmusUp s = true →
      s.pair.st = .standby →
      eligible (ownHealth (onPair (fun p => { p with partnerSeq := q }) s)) = false →
      ∃ t, exec (.releaseRx q) s = .next t ∧
        t.pair.st = .standby ∧ t.pair.takeover = some (s.now, 0, 0) ∧ t.pair.partnerSeq = q)

/-- What each of these commands answers, under conditions on the state and its operands alone: JOURNAL_RX (R402), JOURNAL_ACK_RX (R403),
MIRROR_TMO_EXPIRE (R403), CONFIRMED_RX (R405), CATCHUP_REQ_RX (R406), CATCHUP_CHECKPOINT_RX (R406), PAIR_SET (R389), PAIR_SWITCH (R397),
PAIR_FORCE (R395), PAIR_HEALTH_READ (R399), PAIR_STATS (R389). In it the time line is the model's (log 1) and outputs, journal bodies and
tags are named as the model names them (log 10). -/
def Obligations.PairJournalAndCommands : Prop :=
  -- journalRx
  (∀ (s : State) (g : JRec),
      isUp s 11 = true →
      isthmusUp s = true →
      s.pair.st = .standby →
      ledgerUp s = true →
      g.seq = s.jr.next →
      ∃ t, exec (.journalRx [g]) s = .next t ∧
        t.jr.next = s.jr.next + 1 ∧ (t.jr.open_.getLast?).map (·.seq) = some g.seq ∧ t.pair.acked = max s.pair.acked g.seq ∧
        t.out.length = s.out.length + 1) ∧
  -- journalAckRx
  (∀ (q : Nat) (s : State),
      isUp s 11 = true →
      isthmusUp s = true →
      holdsToken s = true →
      ∃ t, exec (.journalAckRx q) s = .next t ∧
        t.pair.acked = max s.pair.acked (min q (lastSeq s))) ∧
  -- mirrorTmoExpire
  (∀ (s : State) (g : PairCfg) (x : Nat × Nat) (r : List (Nat × Nat)),
      s.pair.cfg = some g →
      s.pair.sync = true →
      s.pair.waitAcks = x :: r →
      ∃ t, exec .mirrorTmoExpire s = .next t ∧
        t.pair.sync = false ∧ t.pair.waitAcks = [] ∧ Raised 35 t ∧ x.2 + g.mirrorTmo * msNs ≤ t.now) ∧
  -- confirmedRx
  (∀ (l : List Nat) (s : State),
      isUp s 11 = true →
      isthmusUp s = true →
      s.pair.st = .standby →
      ∃ t, exec (.confirmedRx l) s = .next t ∧
        t.fl.log = s.fl.log.filter (fun e => !l.contains e.seq)) ∧
  -- catchupReqRx
  (∀ (q : Nat) (s : State),
      isUp s 11 = true →
      isthmusUp s = true →
      holdsToken s = true →
      s.fl.roots = [] ∨ ((allRecs s).head?.map (·.seq)).getD s.jr.next ≤ q →
      ∃ t, exec (.catchupReqRx q) s = .next t ∧
        t.out = s.out ++ ((allRecs s).filter (fun r => q ≤ r.seq)).map (fun r => .journal [r] (recBytes r))) ∧
  -- catchupReqRxImage
  (∀ (q : Nat) (s : State) (g : Root),
      isUp s 11 = true →
      isthmusUp s = true →
      holdsToken s = true →
      s.fl.roots.head? = some g →
      q < ((allRecs s).head?.map (·.seq)).getD s.jr.next →
      ∃ t, exec (.catchupReqRx q) s = .next t ∧
        t.out = s.out ++ [.image g.n] ++ ((allRecs s).filter (fun r => g.j < r.seq)).map (fun r => .journal [r] (recBytes r))) ∧
  -- catchupCheckpointRx
  (∀ (n j q : Nat) (d : Db) (s : State),
      isUp s 11 = true →
      isthmusUp s = true →
      s.pair.st = .standby →
      s.pair.catchup = true →
      ledgerUp s = true →
      ∃ t, exec (.catchupCheckpointRx n j q d) s = .next t ∧
        t.db = { d with keys := s.db.keys, entries := ownRoutes s.db.entries d.entries } ∧ t.jr.next = j + 1 ∧
        t.jr.durable = j ∧ t.pair.acked = max s.pair.acked j ∧
        t.tbl.slots = buildSlots s.tbl.hashRoot s.tbl.epoch (ownRoutes s.db.entries d.entries)) ∧
  -- pairSet
  (∀ (d : Nat) (s : State) (x : Desc) (data : Bytes),
      Ready 0x78 d s x →
      u64 x.bytes 24 % 16 = 0 →
      x.input = some data →
      pairFault data = none →
      ∃ t, exec (.pairSet d) s = .next t ∧
        Done d 0 0 [] t ∧ t.pairStore = s.pairStore.write (macRootNow s) (pairBody data) ∧ t.pair = s.pair) ∧
  -- pairSetFault
  (∀ (d : Nat) (s : State) (x : Desc) (data : Bytes) (o : Nat),
      Ready 0x78 d s x →
      u64 x.bytes 24 % 16 = 0 →
      x.input = some data →
      pairFault data = some o →
      ∃ t, exec (.pairSet d) s = .next t ∧
        Done d 0x32 o [] t ∧ t.pairStore = s.pairStore) ∧
  -- pairSwitch
  (∀ (d : Nat) (s : State) (x : Desc),
      Ready 0x79 d s x →
      s.pair.cfg.isSome = true →
      holdsToken s = true →
      eligible s.pair.partner = true →
      bit s.pair.partner 7 = true →
      ∃ t, exec (.pairSwitch d) s = .next t ∧
        Done d 0 0 [] t ∧ t.pair.st = .standby ∧ t.pair.leaseAt = none ∧ t.pair.gate = false) ∧
  -- pairSwitchRefused
  (∀ (d : Nat) (s : State) (x : Desc),
      Ready 0x79 d s x →
      s.pair.cfg = none →
      ∃ t, exec (.pairSwitch d) s = .next t ∧
        Done d 0x30 0 [] t ∧ t.pair = s.pair) ∧
  -- pairForce
  (∀ (d : Nat) (s : State) (x : Desc),
      Ready 0x7A d s x →
      bit (u8 x.bytes 16) 0 = true →
      s.pair.cfg.isSome = true →
      s.pair.leaseRx = false →
      holdsToken s = true →
      ∃ t, exec (.pairForce d) s = .next t ∧
        Done d 0 0 (toLE 1 (pairNo s.pair.st)) t ∧ t.pair = s.pair) ∧
  -- pairForceTake
  (∀ (d : Nat) (s : State) (x : Desc),
      Ready 0x7A d s x →
      bit (u8 x.bytes 16) 0 = true →
      s.pair.cfg.isSome = true →
      s.pair.leaseRx = false →
      holdsToken s = false →
      ∃ t, exec (.pairForce d) s = .next t ∧
        t.pair.st = .solo ∧ t.pair.gate = true ∧ t.pair.leaseTx = true ∧ t.pair.leaseAt = some s.now ∧ Raised 34 t) ∧
  -- pairHealthRead
  (∀ (d : Nat) (s : State) (x : Desc),
      Ready 0x7B d s x →
      s.pair.cfg.isSome = true →
      ∃ t, exec (.pairHealthRead d) s = .next t ∧
        Done d 0 0 (toLE 4 (ownHealth s) ++ toLE 4 s.pair.partner ++ toLE 4 (pairLag s)) t ∧ t.pair.health = ownHealth s) ∧
  -- pairStats
  (∀ (d : Nat) (s : State) (x : Desc),
      Ready 0x7C d s x →
      u64 x.bytes 24 % 64 = 0 →
      ∃ t, exec (.pairStats d) s = .next t ∧
        Done d 0 0 [] t ∧ PutOut s (u64 x.bytes 24) (padTo 64 (s.pair.stats.flatMap (toLE 4))) t ∧ t.pair.stats = if bit (u8 x.bytes 16) 0 then List.replicate 8 0 else s.pair.stats)

/-- What each of these commands answers, under conditions on the state and its operands alone: KEY_UPDATE (R416), KEY_ENTRY_APPLY (R419).
In it outputs, journal bodies and tags are named as the model names them (log 10). -/
def Obligations.KeyUpdates : Prop :=
  -- keyUpdateCommission
  (∀ (d : Nat) (s : State) (x : Desc) (m : Bytes),
      Ready 0x80 d s x →
      u64 x.bytes 24 % 16 = 0 →
      160 ≤ u32 x.bytes 32 ∧ u32 x.bytes 32 ≤ 16264 →
      x.input = some m →
      msgStatus s m = 0 →
      u8 m 4 = 1 →
      s.keys.st = 0 →
      ∃ t, exec (.keyUpdate d) s = .next t ∧
        Done d 0 0 (toLE 2 0 ++ toLE 2 0 ++ toLE 4 s.keys.c) t ∧ t.keys.st = 1 ∧ t.opt.authority = pointOf (msgBody m) ∧
        t.opt.debugAllowed = bit (u8 (msgBody m) 97) 0) ∧
  -- keyUpdateRecommission
  (∀ (d : Nat) (s : State) (x : Desc) (m : Bytes),
      Ready 0x80 d s x →
      u64 x.bytes 24 % 16 = 0 →
      160 ≤ u32 x.bytes 32 ∧ u32 x.bytes 32 ≤ 16264 →
      x.input = some m →
      msgStatus s m = 0 →
      u8 m 4 = 1 →
      s.keys.st = 2 →
      ledgerUp s = true →
      ∃ t, exec (.keyUpdate d) s = .next t ∧
        Waits d t ∧ t.keys.st = 1 ∧ t.keys.cache = [] ∧ t.keys.unlocked = true ∧ t.opt.authority = pointOf (msgBody m) ∧
        t.opt.cert = none ∧ t.tbl.state = 2 ∧ t.tbl.reseed.isSome = true) ∧
  -- keyUpdateKeys
  (∀ (d : Nat) (s : State) (x : Desc) (m : Bytes),
      Ready 0x80 d s x →
      u64 x.bytes 24 % 16 = 0 →
      160 ≤ u32 x.bytes 32 ∧ u32 x.bytes 32 ≤ 16264 →
      x.input = some m →
      msgStatus s m = 0 →
      u8 m 4 = 2 →
      ∃ t, exec (.keyUpdate d) s = .next t ∧
        Waits d t ∧ t.keys.c = u32 m 20 ∧
        (t.keys.msgs.getLast?).map (fun k => (k.desc, k.counter, k.entries.length, k.status)) = some (d, u32 m 20, u16 m 6, List.replicate (u16 m 6) none)) ∧
  -- keyUpdateCertificate
  (∀ (d : Nat) (s : State) (x : Desc) (m : Bytes) (k : Nat),
      Ready 0x80 d s x →
      u64 x.bytes 24 % 16 = 0 →
      160 ≤ u32 x.bytes 32 ∧ u32 x.bytes 32 ≤ 16264 →
      x.input = some m →
      msgStatus s m = 0 →
      u8 m 4 = 3 →
      deviceScalar s = some k →
      holds (msgBody m) (spkiOf (ecPub k)) = false →
      ∃ t, exec (.keyUpdate d) s = .next t ∧
        Done d 0x28 0 [] t ∧ t.keys.c = u32 m 20 ∧ t.opt.cert = s.opt.cert) ∧
  -- keyUpdateTamper
  (∀ (d : Nat) (s : State) (x : Desc) (m : Bytes),
      Ready 0x80 d s x →
      u64 x.bytes 24 % 16 = 0 →
      160 ≤ u32 x.bytes 32 ∧ u32 x.bytes 32 ≤ 16264 →
      x.input = some m →
      msgStatus s m = 0 →
      u8 m 4 = 4 →
      ∃ t, exec (.keyUpdate d) s = .next t ∧
        Done d 0 0 (toLE 2 0 ++ toLE 2 0 ++ toLE 4 (u32 m 20)) t ∧ t.keys.c = u32 m 20 ∧
        t.keys.live = some (tamperOf (msgBody m)) ∧ t.opt.tamper = some (tamperOf (msgBody m))) ∧
  -- keyUpdateRefused
  (∀ (d : Nat) (s : State) (x : Desc) (m : Bytes),
      Ready 0x80 d s x →
      u64 x.bytes 24 % 16 = 0 →
      160 ≤ u32 x.bytes 32 ∧ u32 x.bytes 32 ≤ 16264 →
      x.input = some m →
      msgStatus s m ≠ 0 →
      ∃ t, exec (.keyUpdate d) s = .next t ∧
        Done d (msgStatus s m) 0 [] t ∧ t.keys = { s.keys with stats := bumpAt s.keys.stats 1 } ∧ t.opt = s.opt) ∧
  -- keyEntryApply
  (∀ (d n st : Nat) (s : State) (m : KeyMsg) (e : KeyEntry),
      s.keys.msgs.find? (fun m => m.desc == d) = some m →
      m.entries[n]? = some e →
      m.status.getD n none = none →
      ledgerUp s = true →
      isUp s 2 = true →
      isUp s 9 = true →
      (entryItemOf (ensureEntry d n e s) d n).any (flowTurn (ensureEntry d n e s)) = true →
      st = entryStatus s e →
      st ≠ 0 →
      (setAt m.status n (some st)).any (·.isNone) = true →
      ∃ t, exec (.keyEntryApply d n) s = .next t ∧
        (t.keys.msgs.find? (fun m => m.desc == d)).map (·.status) = some (setAt m.status n (some st)) ∧ t.db = s.db) ∧
  -- keyEntryApplyRemove
  (∀ (d n k : Nat) (s : State) (m : KeyMsg) (e : KeyEntry) (g : MEntry),
      s.keys.msgs.find? (fun m => m.desc == d) = some m →
      m.entries[n]? = some e →
      m.status.getD n none = none →
      ledgerUp s = true →
      isUp s 2 = true →
      isUp s 9 = true →
      (entryItemOf (ensureEntry d n e s) d n).any (flowTurn (ensureEntry d n e s)) = true →
      entryStatus s e = 0 →
      bit e.mode 2 = true →
      entryById s e.id = some (k, g) →
      isStandby s = false →
      ∃ t, exec (.keyEntryApply d n) s = .next t ∧
        LastBody (.keyState 4 0 m.counter []) t ∧ (Tab.getD t.db.keys k Wrapped.empty).current = none ∧
        t.keys.cache = s.keys.cache.filter (fun c => c.1 != k)) ∧
  -- keyEntryApplySet
  (∀ (d n k : Nat) (s : State) (m : KeyMsg) (e : KeyEntry) (g : MEntry) (key : Bytes),
      s.keys.msgs.find? (fun m => m.desc == d) = some m →
      m.entries[n]? = some e →
      m.status.getD n none = none →
      ledgerUp s = true →
      isUp s 2 = true →
      isUp s 9 = true →
      (entryItemOf (ensureEntry d n e s) d n).any (flowTurn (ensureEntry d n e s)) = true →
      entryStatus s e = 0 →
      bit e.mode 1 = false ∧ bit e.mode 2 = false →
      e.key = some key →
      entryById s e.id = some (k, g) →
      isStandby s = false →
      ∃ t, exec (.keyEntryApply d n) s = .next t ∧
        LastBody (.keyState 1 (b2n (bit e.mode 0)) m.counter ((wrapKey s key g.id).getD [])) t ∧
        (Tab.getD t.db.keys k Wrapped.empty).current = some ((wrapKey s key g.id).getD []))

/-- What each of these commands answers, under conditions on the state and its operands alone: KILL_SEQUENCE_DONE (R428),
TAMPER_SOURCE_ACTIVE (R427), KEY_STATUS_READ (R411), DEVICE_KEY_READ (R412), TAMPER_CLEAR (R427), TAMPER_LATCH_W1C (R427), DEBUG_CHALLENGE
(R430), DEBUG_UNLOCK (R430), DEBUG_LOCK (R430), KEY_STATS (R412), CHALLENGE_EXPIRE (R430). In it the time line is the model's (log 1) and
outputs, journal bodies and tags are named as the model names them (log 10). -/
def Obligations.KeyCommands : Prop :=
  -- killSequenceDone
  (∀ (s : State),
      s.keys.killing = true →
      s.pw.lastCommit = false →
      ∃ t, exec .killSequenceDone s = .next t ∧
        t.keys.killed = s.keys.pendSources ∧ t.keys.killTime = s.keys.pendTime ∧ t.keys.pendState = 0 ∧
        t.keys.killing = false ∧ t.rs.cause = setBit s.rs.cause 5) ∧
  -- tamperSourceActive
  (∀ (n : Nat) (s : State),
      isUp s 0 = true →
      watched s n = true →
      levelOf s.keys n = 1 ∨ levelOf s.keys n = 2 →
      bit s.keys.active n = false →
      ∃ t, exec (.tamperSourceActive n true) s = .next t ∧
        bit t.keys.latch n = true) ∧
  -- keyStatusRead
  (∀ (d : Nat) (s : State) (x : Desc),
      Ready 0x81 d s x →
      u64 x.bytes 24 % 64 = 0 →
      ∃ t, exec (.keyStatusRead d) s = .next t ∧
        Done d 0 0 [] t ∧
        PutOut s (u64 x.bytes 24) (padTo 64 ([BitVec.ofNat 8 s.keys.st, BitVec.ofNat 8 (lastSlot s.keys), BitVec.ofNat 8 (deadMask s.keys), BitVec.ofNat 8 (b2n s.opt.cert.isSome + 2 * b2n s.keys.debug + 4 * b2n s.opt.debugAllowed)] ++ toLE 4 s.keys.c ++ toLE 4 s.keys.hwm ++ toLE 4 (s.db.keys.filter (fun p => p.2.current.isSome)).length ++ toLE 4 (s.db.keys.filter (fun p => p.2.pending.isSome)).length ++ toLE 4 s.keys.cache.length ++ unitBytes s ++ toLE 2 s.keys.latch ++ toLE 2 s.keys.killed ++ toLE 8 s.keys.killTime)) t) ∧
  -- deviceKeyRead
  (∀ (d : Nat) (s : State) (x : Desc) (k : Nat),
      Ready 0x82 d s x →
      u64 x.bytes 24 % 64 = 0 →
      s.keys.st ≤ 1 →
      deviceScalar s = some k →
      ∃ t, exec (.deviceKeyRead d) s = .next t ∧
        Done d 0 0 [] t ∧ PutOut s (u64 x.bytes 24) (padTo 128 (padTo 100 (pointBytes (ecPub k)) ++ unitBytes s)) t) ∧
  -- deviceKeyReadRefused
  (∀ (d : Nat) (s : State) (x : Desc),
      Ready 0x82 d s x →
      u64 x.bytes 24 % 64 = 0 →
      1 < s.keys.st →
      ∃ t, exec (.deviceKeyRead d) s = .next t ∧
        Done d 0x0A 0 [] t ∧ t.out = s.out) ∧
  -- tamperClear
  (∀ (d : Nat) (s : State) (x : Desc),
      Ready 0x83 d s x →
      ∃ t, exec (.tamperClear d) s = .next t ∧
        Done d 0 0 (toLE 2 t.keys.latch) t ∧
        t.keys.latch = ((List.range 10).filter (fun n => bit (u16 x.bytes 16 % 1024) n && bit s.keys.active n)).foldl setBit (andNot 10 s.keys.latch (u16 x.bytes 16 % 1024))) ∧
  -- tamperLatchW1c
  (∀ (v : BitVec 32) (s : State),
      regOpen s 0 = true →
      ∃ t, exec (.tamperLatchW1c v) s = .next t ∧
        t.keys.latch = ((List.range 10).filter (fun n => bit (v.toNat % 1024) n && bit s.keys.active n)).foldl setBit (andNot 10 s.keys.latch (v.toNat % 1024))) ∧
  -- debugChallenge
  (∀ (d : Nat) (s : State) (x : Desc),
      Ready 0x84 d s x →
      u64 x.bytes 24 % 64 = 0 →
      ∃ t, exec (.debugChallenge d) s = .next t ∧
        Done d 0 0 [] t ∧ t.keys.challenge = some ((newChallenge s).1, s.now) ∧ PutOut s (u64 x.bytes 24) (newChallenge s).1 t) ∧
  -- debugUnlock
  (∀ (d : Nat) (s : State) (x : Desc) (b g : Bytes) (t0 : Nat) (p : Nat × Nat),
      Ready 0x85 d s x →
      x.input = some b →
      s.keys.st = 1 →
      s.opt.debugAllowed = true →
      s.keys.fails < 3 →
      s.keys.challenge = some (g, t0) →
      s.opt.authority = some p →
      s.now ≤ t0 + 60 * secNs →
      ecdsaVerify p g (beNat (slice b 0 48)) (beNat (slice b 48 48)) = true →
      ∃ t, exec (.debugUnlock d) s = .next t ∧
        Done d 0 0 [] t ∧ t.keys.debug = true ∧ t.keys.challenge = none ∧ Raised 63 t) ∧
  -- debugUnlockWrong
  (∀ (d : Nat) (s : State) (x : Desc) (b g : Bytes) (t0 : Nat) (p : Nat × Nat),
      Ready 0x85 d s x →
      x.input = some b →
      s.keys.st = 1 →
      s.opt.debugAllowed = true →
      s.keys.fails < 3 →
      s.keys.challenge = some (g, t0) →
      s.opt.authority = some p →
      s.now ≤ t0 + 60 * secNs →
      ecdsaVerify p g (beNat (slice b 0 48)) (beNat (slice b 48 48)) = false →
      ∃ t, exec (.debugUnlock d) s = .next t ∧
        Done d 0x22 0 [] t ∧ t.keys.debug = s.keys.debug ∧ t.keys.fails = s.keys.fails + 1 ∧ t.keys.challenge = none) ∧
  -- debugLock
  (∀ (d : Nat) (s : State) (x : Desc),
      Ready 0x86 d s x →
      ∃ t, exec (.debugLock d) s = .next t ∧
        Done d 0 0 [] t ∧ t.keys.debug = false) ∧
  -- keyStats
  (∀ (d : Nat) (s : State) (x : Desc),
      Ready 0x87 d s x →
      u64 x.bytes 24 % 64 = 0 →
      ∃ t, exec (.keyStats d) s = .next t ∧
        Done d 0 0 [] t ∧ PutOut s (u64 x.bytes 24) (padTo 64 (s.keys.stats.flatMap (toLE 4))) t ∧ t.keys.stats = if bit (u8 x.bytes 16) 0 then List.replicate 9 0 else s.keys.stats) ∧
  -- challengeExpire
  (∀ (s : State) (g : Bytes) (t0 : Nat),
      s.keys.challenge = some (g, t0) →
      ∃ t, exec .challengeExpire s = .next t ∧
        t.keys.challenge = none ∧ t0 + 60 * secNs ≤ t.now)

/-- What each of these commands answers, under conditions on the state and its operands alone: PHASE_P4_END (R441), CHECKPOINT_START
(R439), CHECKPOINT_DONE (R440), FLASH_PAGE_PROGRAM (R437), COLLECTION (R444), PROGRAM_FAIL (R446), ERASE_FAIL (R446), DIE_FAIL (R450),
NAND_TEMP_SAMPLE (R449), POOL_RECLAIM (R455). In it open values are free constants of Config (log 5) and outputs, journal bodies and tags
are named as the model names them (log 10). -/
def Obligations.FlashOperations : Prop :=
  -- phaseP4End
  (∀ (s : State),
      inPhase 4 s = true →
      readyToRun s [3] = true →
      ∃ t, exec .phaseP4End s = .next t ∧
        t.rs.phase = 5 ∧ t.rs.dramTrainCold = true) ∧
  -- checkpointStart
  (∀ (s : State),
      mayCheckpoint s = true →
      ∃ t, exec .checkpointStart s = .next t ∧
        t.fl.running.map (fun p => (p.1.n, p.1.j, p.2)) = some (s.fl.lastN + 1, lastSeq s, none) ∧
        t.fl.lastN = s.fl.lastN + 1 ∧ t.fl.cpBytes = 0) ∧
  -- checkpointDone
  (∀ (s : State) (root : Root) (o : Option Nat),
      isUp s 3 = true →
      s.fl.readOnly = false →
      s.fl.running = some (root, o) →
      root.j ≤ s.jr.programmed →
      ∃ t, exec .checkpointDone s = .next t ∧
        t.fl.running = none ∧ t.fl.roots = (root :: s.fl.roots).take 2) ∧
  -- checkpointDoneHost
  (∀ (d : Nat) (s : State) (root : Root) (x : Desc),
      isUp s 3 = true →
      s.fl.readOnly = false →
      s.fl.running = some (root, some d) →
      root.j ≤ s.jr.programmed →
      descOf s d = some x →
      x.stage = .waiting →
      x.orphan = false →
      ∃ t, exec .checkpointDone s = .next t ∧
        Done d 0 0 (toLE 4 root.n) t) ∧
  -- flashPageProgram
  (∀ (stream : Nat) (s u : State) (p : Nat × Block),
      stream < 3 →
      isUp s 3 = true →
      s.fl.mount ≠ 0 →
      s.fl.readOnly = false →
      u = (List.range 4).foldl (fun s k => openBlock stream k s) s →
      pageDie u stream = some p →
      (nextPage stream u).1 ≠ [] →
      ∃ t, exec (.flashPageProgram stream) s = .next t ∧
        t.fl.cpBytes = s.fl.cpBytes + 16384 ∧ t.fl.queues = modAt s.fl.queues stream (·.drop 4)) ∧
  -- collection
  (∀ (die : Nat) (s : State) (b : Block),
      isUp s 3 = true →
      s.fl.readOnly = false →
      s.fl.mount ≠ 0 →
      freeCount s die < 128 →
      victim s die = some b →
      ∃ t, exec (.collection die) s = .next t ∧
        t.fl.stats = (statFl 2 s).fl.stats ∧ t.fl.queues = (copyOut 2 b s).fl.queues) ∧
  -- programFail
  (∀ (die block : Nat) (s : State) (b : Block),
      isUp s 3 = true →
      blockOf s die block = some b →
      b.st = .open_ →
      ∃ t, exec (.programFail die block) s = .next t ∧
        t.fl.programFail = bump32 s.fl.programFail ∧ t.fl.grown = s.fl.grown + 1 ∧
        (blockOf t die block).map (·.st) = some .bad ∧ Raised 38 t) ∧
  -- eraseFail
  (∀ (die block : Nat) (s : State) (p : Nat × Nat),
      isUp s 3 = true →
      (s.fl.free.getD die []).find? (fun p => p.1 == block) = some p →
      ∃ t, exec (.eraseFail die block) s = .next t ∧
        t.fl.eraseFail = bump32 s.fl.eraseFail ∧ t.fl.grown = s.fl.grown + 1 ∧
        (t.fl.free.getD die []).find? (fun p => p.1 == block) = none ∧ Raised 38 t) ∧
  -- eraseFailDeferred
  (∀ (die block : Nat) (s : State) (b : Block),
      isUp s 3 = true →
      (s.fl.free.getD die []).find? (fun p => p.1 == block) = none →
      blockOf s die block = some b →
      b.st = .deferred →
      ∃ t, exec (.eraseFail die block) s = .next t ∧
        t.fl.eraseFail = bump32 s.fl.eraseFail ∧ t.fl.grown = s.fl.grown + 1 ∧ (blockOf t die block).map (·.st) = some .bad ∧
        Raised 38 t) ∧
  -- dieFail
  (∀ (die : Nat) (s : State),
      s.fl.deadDies.contains die = false →
      ∃ t, exec (.dieFail die) s = .next t ∧
        t.fl.deadDies = s.fl.deadDies ++ [die] ∧ t.fl.readOnly = true ∧ (s.fl.readOnly = false → Raised 39 t)) ∧
  -- nandTempSample
  (∀ (y : Int) (s : State),
      isUp s 3 = true →
      ∃ t, exec (.nandTempSample y) s = .next t ∧
        t.fl.temps = modAt s.fl.temps (tempBin y) bump32) ∧
  -- poolReclaim
  (∀ (s : State),
      isUp s 3 = true →
      170 ≤ s.fl.settled →
      ∃ t, exec .poolReclaim s = .next t ∧
        t.fl.settled = if s.fl.log.isEmpty && s.arch.fwd.isEmpty && s.db.quars.isEmpty then 0 else s.fl.settled - 170)

/-- What each of these commands answers, under conditions on the state and its operands alone: HOSTNS_SET (R433), HOSTNS_READ (R436),
HOSTNS_WRITE (R435), HOSTNS_DISCARD (R451), FLASH_HEALTH_READ (R450), FLASH_CHECKPOINT (R439), FLASH_STATS (R451). -/
def Obligations.HostStoreCommands : Prop :=
  -- hostnsSet
  (∀ (d : Nat) (s : State) (x : Desc),
      Ready 0x90 d s x →
      u32 x.bytes 16 % 64 = 0 →
      u32 x.bytes 16 ≤ 16384 →
      s.fl.readOnly = false →
      ∃ t, exec (.hostnsSet d) s = .next t ∧
        Done d 0 0 (toLE 4 (u32 x.bytes 16)) t ∧ t.fl.hostMiB = u32 x.bytes 16 ∧ t.opt.hostMiB = u32 x.bytes 16) ∧
  -- hostnsSetBad
  (∀ (d : Nat) (s : State) (x : Desc),
      Ready 0x90 d s x →
      u32 x.bytes 16 % 64 ≠ 0 ∨ 16384 < u32 x.bytes 16 →
      ∃ t, exec (.hostnsSet d) s = .next t ∧
        Done d 0x23 0 [] t ∧ t.fl = s.fl) ∧
  -- hostnsRead
  (∀ (d : Nat) (corrected : List Nat) (s : State) (x : Desc),
      Ready 0x91 d s x →
      inRange (u16 x.bytes 20) 1 256 = true →
      u64 x.bytes 24 % 4096 = 0 →
      u32 x.bytes 16 + u16 x.bytes 20 ≤ s.fl.hostMiB * 256 →
      corrected.all (· ≤ 40) = true →
      ∃ t, exec (.hostnsRead d corrected) s = .next t ∧
        Done d 0 0 [] t ∧
        PutOut s (u64 x.bytes 24) ((List.range (u16 x.bytes 20)).flatMap (fun k => ((Tab.get s.fl.host (u32 x.bytes 16 + k)).map (·.data)).getD (List.replicate 4096 0))) t) ∧
  -- hostnsReadPast
  (∀ (d : Nat) (corrected : List Nat) (s : State) (x : Desc),
      Ready 0x91 d s x →
      inRange (u16 x.bytes 20) 1 256 = true →
      u64 x.bytes 24 % 4096 = 0 →
      s.fl.hostMiB * 256 < u32 x.bytes 16 + u16 x.bytes 20 →
      ∃ t, exec (.hostnsRead d corrected) s = .next t ∧
        Done d 0x20 0 [] t ∧ t.fl = s.fl) ∧
  -- hostnsWrite
  (∀ (d : Nat) (s : State) (x : Desc),
      Ready 0x92 d s x →
      inRange (u16 x.bytes 20) 1 256 = true →
      u64 x.bytes 24 % 4096 = 0 →
      s.fl.readOnly = false →
      u32 x.bytes 16 + u16 x.bytes 20 ≤ s.fl.hostMiB * 256 →
      ∃ t, exec (.hostnsWrite d) s = .next t ∧
        Waits d t ∧ t.fl.seq = s.fl.seq + u16 x.bytes 20 ∧
        (t.fl.hostWrites.getLast?).map (fun w => (w.desc, w.result)) = some (d, toLE 8 s.fl.seq)) ∧
  -- hostnsDiscard
  (∀ (d : Nat) (s : State) (x : Desc),
      Ready 0x93 d s x →
      inRange (u32 x.bytes 20) 1 4194304 = true →
      s.fl.readOnly = false →
      u32 x.bytes 16 + u32 x.bytes 20 ≤ s.fl.hostMiB * 256 →
      ∃ t, exec (.hostnsDiscard d) s = .next t ∧
        Waits d t ∧ t.fl.seq = s.fl.seq + 1 ∧ t.fl.hostWrites.getLast? = some { desc := d, left := [s.fl.seq], result := [] }) ∧
  -- flashHealthRead
  (∀ (d : Nat) (s : State) (x : Desc),
      Ready 0x94 d s x →
      u64 x.bytes 24 % 64 = 0 →
      ∃ t, exec (.flashHealthRead d) s = .next t ∧
        Done d 0 0 (toLE 4 (spareLeft s)) t ∧
        PutOut s (u64 x.bytes 24) (padTo 256 (toLE 4 (spareLeft s) ++ toLE 2 (min 65535 (wearUsed s)) ++ [0, 0] ++ toLE 4 (maxErase s) ++ toLE 4 (minErase s) ++ toLE 4 s.fl.grown ++ toLE 4 factoryBadAll ++ toLE 4 s.fl.uncorrectable ++ toLE 4 s.fl.programFail ++ toLE 4 s.fl.eraseFail ++ s.fl.bits.flatMap (toLE 4) ++ s.fl.temps.flatMap (toLE 4))) t) ∧
  -- flashCheckpoint
  (∀ (d : Nat) (s : State) (x : Desc),
      Ready 0x95 d s x →
      s.fl.readOnly = false →
      s.fl.running = none →
      s.fl.mount ≠ 0 →
      ∃ t, exec (.flashCheckpoint d) s = .next t ∧
        Waits d t ∧ t.fl.running.map (fun p => (p.1.n, p.2)) = some (s.fl.lastN + 1, some d)) ∧
  -- flashStats
  (∀ (d : Nat) (s : State) (x : Desc),
      Ready 0x96 d s x →
      u64 x.bytes 24 % 64 = 0 →
      ∃ t, exec (.flashStats d) s = .next t ∧
        Done d 0 0 [] t ∧ PutOut s (u64 x.bytes 24) (padTo 64 (s.fl.stats.flatMap (toLE 4))) t ∧ t.fl.stats = if bit (u8 x.bytes 16) 0 then List.replicate 10 0 else s.fl.stats)

/-- What each of these commands answers, under conditions on the state and its operands alone: IMAGE_BEGIN (R460), IMAGE_DATA (R462),
IMAGE_END (R462), IMAGE_ACTIVATE (R463), ACTIVATION_GROUP_DONE (R463), IMAGE_REVERT (R465), TRIAL_WINDOW_END (R465), IMAGE_CONFIRM (R466),
IMAGE_STATUS_READ (R464). In it open values are free constants of Config (log 5) and outputs, journal bodies and tags are named as the
model names them (log 10). -/
def Obligations.ImageCommands : Prop :=
  -- imageBegin
  (∀ (d : Nat) (s : State) (x : Desc) (m : Bytes) (n : Nat),
      Ready 0xA0 d s x →
      u64 x.bytes 24 % 64 = 0 →
      isUp s 2 = true →
      x.input = some m →
      headerStatus s m = 0 →
      s.fl.readOnly = false →
      imgType m ≤ 7 ∧ imgType m ≤ s.img.types.length →
      inactiveSlot s (imgType m) = some n →
      s.img.act.any (fun a => a.type == imgType m) = false →
      ∃ t, exec (.imageBegin d) s = .next t ∧
        Done d 0 0 (toLE 1 (imgType m) ++ toLE 1 n) t ∧
        slotOf (typeOf t (imgType m)) n = some { header := m, body := [], complete := false } ∧
        (typeOf t (imgType m)).receiving = true) ∧
  -- imageBeginStaged
  (∀ (d : Nat) (s : State) (x : Desc) (m : Bytes) (k : Nat),
      Ready 0xA0 d s x →
      u64 x.bytes 24 % 64 = 0 →
      isUp s 2 = true →
      x.input = some m →
      headerStatus s m = 0 →
      s.fl.readOnly = false →
      7 < imgType m →
      (List.range 64).find? (fun k => (stagedOf (abandonStaged (imgType m) s) k).isNone) = some k →
      stagingUsed (abandonStaged (imgType m) s) + imgLength m ≤ 382 * 1048576 →
      ∃ t, exec (.imageBegin d) s = .next t ∧
        Done d 0 0 (toLE 1 (imgType m) ++ toLE 1 k) t ∧ stagedOf t k = some { header := m, body := [], complete := false } ∧
        t.img.stagingRx.contains k = true) ∧
  -- imageBeginBad
  (∀ (d : Nat) (s : State) (x : Desc) (m : Bytes),
      Ready 0xA0 d s x →
      u64 x.bytes 24 % 64 = 0 →
      isUp s 2 = true →
      x.input = some m →
      headerStatus s m ≠ 0 →
      ∃ t, exec (.imageBegin d) s = .next t ∧
        Done d (headerStatus s m) 0 [] t ∧ t.img = s.img) ∧
  -- imageData
  (∀ (d : Nat) (s : State) (x : Desc) (m : Bytes) (y : ImgSlot),
      Ready 0xA1 d s x →
      inRange (u32 x.bytes 20) 1 65536 = true →
      u64 x.bytes 24 % 64 = 0 →
      (placeCheck x.bytes 32).1 = true →
      isUp s 2 = true →
      x.input = some m →
      placeSlot s (imgPlace x.bytes 32) = some y →
      placeRx s (imgPlace x.bytes 32) = true →
      u32 x.bytes 16 = y.body.length →
      y.body.length + m.length ≤ imgLength y.header →
      ∃ t, exec (.imageData d) s = .next t ∧
        Done d 0 0 (toLE 4 (y.body.length + m.length)) t ∧
        placeSlot t (imgPlace x.bytes 32) = some { y with body := y.body ++ m }) ∧
  -- imageDataOffset
  (∀ (d : Nat) (s : State) (x : Desc) (y : ImgSlot),
      Ready 0xA1 d s x →
      inRange (u32 x.bytes 20) 1 65536 = true →
      u64 x.bytes 24 % 64 = 0 →
      (placeCheck x.bytes 32).1 = true →
      isUp s 2 = true →
      placeSlot s (imgPlace x.bytes 32) = some y →
      placeRx s (imgPlace x.bytes 32) = true →
      u32 x.bytes 16 ≠ y.body.length →
      ∃ t, exec (.imageData d) s = .next t ∧
        Done d 0x28 0 [] t ∧ t.img = s.img) ∧
  -- imageEnd
  (∀ (d : Nat) (s : State) (x : Desc) (y : ImgSlot),
      Ready 0xA2 d s x →
      (placeCheck x.bytes 32).1 = true →
      isUp s 2 = true →
      placeSlot s (imgPlace x.bytes 32) = some y →
      placeRx s (imgPlace x.bytes 32) = true →
      y.body.length = imgLength y.header →
      sha384 y.body = slice y.header 40 48 →
      imgPlace x.bytes 32 ≠ (false, 7) →
      ∃ t, exec (.imageEnd d) s = .next t ∧
        Done d 0 0 (toLE 4 (imgLength y.header)) t ∧ placeSlot t (imgPlace x.bytes 32) = some { y with complete := true } ∧
        placeRx t (imgPlace x.bytes 32) = false) ∧
  -- imageEndRecovery
  (∀ (d : Nat) (s : State) (x : Desc) (y : ImgSlot),
      Ready 0xA2 d s x →
      imgPlace x.bytes 32 = (false, 7) →
      isUp s 2 = true →
      placeSlot s (false, 7) = some y →
      placeRx s (false, 7) = true →
      y.body.length = imgLength y.header →
      sha384 y.body = slice y.header 40 48 →
      ∃ t, exec (.imageEnd d) s = .next t ∧
        Done d 0 0 (toLE 4 (imgLength y.header)) t ∧ (typeOf t 7).slotA = some { y with complete := true } ∧
        (typeOf t 7).slotB = some { y with complete := true } ∧ t.img.floors = modAt s.img.floors 6 (max (u8 y.header 24))) ∧
  -- imageEndBad
  (∀ (d : Nat) (s : State) (x : Desc) (y : ImgSlot),
      Ready 0xA2 d s x →
      (placeCheck x.bytes 32).1 = true →
      isUp s 2 = true →
      placeSlot s (imgPlace x.bytes 32) = some y →
      placeRx s (imgPlace x.bytes 32) = true →
      y.body.length ≠ imgLength y.header ∨ sha384 y.body ≠ slice y.header 40 48 →
      ∃ t, exec (.imageEnd d) s = .next t ∧
        Done d 0x29 0 [] t ∧ placeSlot t (imgPlace x.bytes 32) = none) ∧
  -- imageActivate
  (∀ (d : Nat) (s : State) (x : Desc) (n : Nat) (y : ImgSlot),
      Ready 0xA3 d s x →
      inRange (u8 x.bytes 16) 1 5 = true →
      u32 x.bytes 20 = 0 ∨ inRange (u32 x.bytes 20) 60 3600 = true →
      s.img.act = none →
      s.img.types.any (fun y => y.state == 1) = false →
      inactiveSlot s (u8 x.bytes 16) = some n →
      slotOf (typeOf s (u8 x.bytes 16)) n = some y →
      y.complete = true →
      ∃ t, exec (.imageActivate d) s = .next t ∧
        Waits d t ∧
        t.img.act.map (fun a => (a.type, a.step, a.desc, a.trial, a.back)) = some (u8 x.bytes 16, 0, d, (if u32 x.bytes 20 = 0 then 600 else u32 x.bytes 20), false)) ∧
  -- imageActivateConfig
  (∀ (d : Nat) (s : State) (x : Desc) (n : Nat) (y : ImgSlot),
      Ready 0xA3 d s x →
      u8 x.bytes 16 = 6 →
      u32 x.bytes 20 = 0 ∨ inRange (u32 x.bytes 20) 60 3600 = true →
      s.img.act = none →
      s.img.types.any (fun y => y.state == 1) = false →
      inactiveSlot s 6 = some n →
      slotOf (typeOf s 6) n = some y →
      y.complete = true →
      ∃ t, exec (.imageActivate d) s = .next t ∧
        (match Config.configBody y.body s.opt with | .error o => Done d 0x2C o [] t ∧ t.opt = s.opt | .ok _ => Done d 0 0 (toLE 1 n) t ∧ (typeOf t 6).confirmed = n ∧ (typeOf t 6).running = n)) ∧
  -- imageActivateBusy
  (∀ (d : Nat) (s : State) (x : Desc),
      Ready 0xA3 d s x →
      inRange (u8 x.bytes 16) 1 6 = true →
      u32 x.bytes 20 = 0 ∨ inRange (u32 x.bytes 20) 60 3600 = true →
      s.img.act.isSome = true ∨ s.img.types.any (fun y => y.state == 1) = true →
      ∃ t, exec (.imageActivate d) s = .next t ∧
        Done d 0x27 0 [] t ∧ t.img = s.img) ∧
  -- activationGroupDoneCape
  (∀ (s : State) (a : Activation) (x : Desc),
      s.img.act = some a →
      a.type = 1 →
      a.back = false →
      isUp s 1 = true →
      descOf s a.desc = some x →
      x.stage = .waiting →
      x.orphan = false →
      0 < s.img.types.length →
      ∃ t, exec .activationGroupDone s = .next t ∧
        Done a.desc 0 0 (toLE 1 (typeOf s 1).running) t ∧ t.img.act = none ∧ (typeOf t 1).state = 1 ∧
        (typeOf t 1).deadline = some (s.rs.opSeconds + a.trial) ∧ Raised 56 t) ∧
  -- activationGroupDoneAtoll
  (∀ (s : State) (a : Activation),
      s.img.act = some a →
      a.type = 2 →
      a.step < 5 →
      isUp s 9 = true →
      (groupCores a.step).all (fun c => (s.sch.cores.getD c Core.reset).drained) = true →
      ∃ t, exec .activationGroupDone s = .next t ∧
        t.img.act = some { a with step := a.step + 1 } ∧ ∀ c ∈ groupCores a.step, c < s.sch.cores.length → (t.sch.cores.getD c Core.reset).powered = true ∧ (t.sch.cores.getD c Core.reset).drained = false) ∧
  -- activationGroupDoneCalc
  (∀ (s : State) (a : Activation),
      s.img.act = some a →
      a.type = 5 →
      a.step = 0 →
      a.back = false →
      isUp s 6 = true →
      s.cv.okA = true →
      ∃ t, exec .activationGroupDone s = .next t ∧
        t.img.act = some { a with step := 1, loaded := false } ∧ t.cv.okB = false ∧ t.cv.verB = runningConv s ∧ Raised 56 t) ∧
  -- activationGroupDoneBeacon
  (∀ (s : State) (a : Activation),
      s.img.act = some a →
      a.type = 3 ∨ a.type = 4 →
      a.step = 0 →
      isUp s (islandOf a.type) = true →
      beaconPassed s a.type = true →
      s.rs.episode = false →
      ∃ t, exec .activationGroupDone s = .next t ∧
        t.img.act = some { a with step := 1 } ∧ t.img.bound = s.plc.stations.map (·.tei) ∧ isUp t (islandOf a.type) = false) ∧
  -- activationGroupDoneBack
  (∀ (s : State) (a : Activation) (x : Desc),
      s.img.act = some a →
      a.type = 3 ∨ a.type = 4 →
      a.step ≠ 0 →
      a.back = false →
      isUp s (islandOf a.type) = true →
      descOf s a.desc = some x →
      x.stage = .waiting →
      x.orphan = false →
      a.type ≤ s.img.types.length →
      ∃ t, exec .activationGroupDone s = .next t ∧
        Done a.desc 0 0 (toLE 1 (typeOf s a.type).running) t ∧ t.img.act = none ∧ (typeOf t a.type).state = 1 ∧ Raised 56 t) ∧
  -- imageRevert
  (∀ (d : Nat) (s : State) (x : Desc),
      Ready 0xA4 d s x →
      inRange (u8 x.bytes 16) 1 5 = true →
      (typeOf s (u8 x.bytes 16)).state = 1 →
      s.img.act = none →
      ∃ t, exec (.imageRevert d) s = .next t ∧
        Done d 0 0 [] t ∧ (typeOf t (u8 x.bytes 16)).running = (typeOf s (u8 x.bytes 16)).confirmed ∧
        (typeOf t (u8 x.bytes 16)).state = 2 ∧ Raised 57 t) ∧
  -- imageRevertNone
  (∀ (d : Nat) (s : State) (x : Desc),
      Ready 0xA4 d s x →
      inRange (u8 x.bytes 16) 1 5 = true →
      (typeOf s (u8 x.bytes 16)).state ≠ 1 →
      ∃ t, exec (.imageRevert d) s = .next t ∧
        Done d 0x2D 0 [] t ∧ t.img = s.img) ∧
  -- trialWindowEnd
  (∀ (k : Nat) (s : State) (e : Nat),
      inRange k 1 5 = true →
      (typeOf s k).state = 1 →
      (typeOf s k).deadline = some e →
      ∃ t, exec (.trialWindowEnd k) s = .next t ∧
        (typeOf t k).running = (typeOf s k).confirmed ∧ (typeOf t k).state = 2 ∧ (typeOf t k).deadline = none ∧ Raised 57 t) ∧
  -- imageConfirm
  (∀ (k : Nat) (s : State),
      isUp s 1 = true →
      inRange k 1 5 = true →
      (typeOf s k).state = 1 →
      criterionMet s k = true →
      ∃ t, exec (.imageConfirm k) s = .next t ∧
        (typeOf t k).confirmed = (typeOf s k).running ∧ (typeOf t k).state = 0 ∧ (typeOf t k).deadline = none ∧
        t.opt.confirmed = setAt s.opt.confirmed (k - 1) (typeOf s k).running ∧ Raised 56 t) ∧
  -- imageStatusRead
  (∀ (d : Nat) (s : State) (x : Desc),
      Ready 0xA5 d s x →
      u64 x.bytes 24 % 64 = 0 →
      ∃ t, exec (.imageStatusRead d) s = .next t ∧
        Done d 0 0 [] t ∧ PutOut s (u64 x.bytes 24) (padTo 256 ((List.range 7).flatMap (fun k => statusOfType s (k + 1)))) t)

/-- What each of these commands answers, under conditions on the state and its operands alone: STAGE_FREE (R457), STAGE_FORWARD (R467),
CAMPAIGN_START (R468), CAMPAIGN_QUERY_ROUND (R469), CAMPAIGN_STATUS (R469), CAMPAIGN_CANCEL (R469). In it outputs, journal bodies and tags
are named as the model names them (log 10). -/
def Obligations.CampaignCommands : Prop :=
  -- stageFree
  (∀ (d : Nat) (s : State) (x : Desc) (y : ImgSlot),
      Ready 0xAA d s x →
      u8 x.bytes 16 < 64 →
      stagedOf s (u8 x.bytes 16) = some y →
      s.img.campaigns.any (fun c => c.entry == u8 x.bytes 16 && !c.finished) = false →
      ∃ t, exec (.stageFree d) s = .next t ∧
        Done d 0 0 [] t ∧ stagedOf t (u8 x.bytes 16) = none) ∧
  -- stageFreeKept
  (∀ (d : Nat) (s : State) (x : Desc) (y : ImgSlot),
      Ready 0xAA d s x →
      u8 x.bytes 16 < 64 →
      stagedOf s (u8 x.bytes 16) = some y →
      s.img.campaigns.any (fun c => c.entry == u8 x.bytes 16 && !c.finished) = true →
      ∃ t, exec (.stageFree d) s = .next t ∧
        Done d 0x27 0 [] t ∧ t.img = s.img) ∧
  -- stageForward
  (∀ (d : Nat) (s : State) (x : Desc) (y : ImgSlot),
      Ready 0xA9 d s x →
      (placeCheck x.bytes 16).1 = true →
      u16 x.bytes 18 < 4096 →
      forwardImage s (imgPlace x.bytes 16) = some y →
      sessionUp s (hopOf s (u16 x.bytes 18)) = true →
      ∃ t, exec (.stageForward d) s = .next t ∧
        Waits d t ∧ t.img.stageTx = s.img.stageTx ++ [(s.img.nextStage % 65536, d, u16 x.bytes 18, 0)] ∧
        t.img.nextStage = s.img.nextStage + 1) ∧
  -- campaignStart
  (∀ (d : Nat) (s : State) (x : Desc) (y : ImgSlot) (m : Bytes) (l : List Target) (n : Nat),
      Ready 0xA6 d s x →
      u8 x.bytes 16 < 64 →
      u8 x.bytes 17 % 32 ≠ 0 →
      u8 x.bytes 18 ≤ 15 →
      u8 x.bytes 19 ≤ 64 →
      inRange (u32 x.bytes 32) 1 3072 = true →
      isStandby s = false →
      stagedOf s (u8 x.bytes 16) = some y →
      y.complete = true →
      x.input = some m →
      l = targetsOf s (u8 x.bytes 17 % 32) (u16 y.header 6) m (u32 x.bytes 32) →
      n = (l.filter (fun k => k.state == 1)).length →
      n ≠ 0 →
      ∃ t, exec (.campaignStart d) s = .next t ∧
        Done d 0 0 (toLE 2 (s.img.nextCampaign % 65536) ++ toLE 4 n ++ toLE 4 (l.length - n)) t ∧
        t.img.nextCampaign = s.img.nextCampaign + 1 ∧
        (t.img.campaigns.getLast?).map (fun c => (c.id, c.entry, c.round, c.finished)) = some (s.img.nextCampaign % 65536, u8 x.bytes 16, 1, false)) ∧
  -- campaignStartNone
  (∀ (d : Nat) (s : State) (x : Desc) (y : ImgSlot) (m : Bytes),
      Ready 0xA6 d s x →
      u8 x.bytes 16 < 64 →
      u8 x.bytes 17 % 32 ≠ 0 →
      u8 x.bytes 18 ≤ 15 →
      u8 x.bytes 19 ≤ 64 →
      inRange (u32 x.bytes 32) 1 3072 = true →
      isStandby s = false →
      stagedOf s (u8 x.bytes 16) = some y →
      y.complete = true →
      x.input = some m →
      (targetsOf s (u8 x.bytes 17 % 32) (u16 y.header 6) m (u32 x.bytes 32)).all (fun k => k.state != 1) = true →
      ∃ t, exec (.campaignStart d) s = .next t ∧
        Done d 0x2F 0 [] t ∧ t.img = s.img) ∧
  -- campaignQueryRoundNext
  (∀ (k : Nat) (s : State) (y : Campaign),
      isUp s 1 = true →
      campOf s k = some y →
      y.applyAt = none →
      campSends s y = true →
      roundSent s y = true →
      (openTargets y).all (·.heard) = true →
      unionMissing s y ≠ [] →
      y.round < y.rounds →
      ∃ t, exec (.campaignQueryRound k) s = .next t ∧
        t.img.campaigns = modWhere (fun c => c.id == y.id) (startRound (y.round + 1) (unionMissing s y)) s.img.campaigns) ∧
  -- campaignQueryRoundAsk
  (∀ (k : Nat) (s : State) (y : Campaign),
      isUp s 1 = true →
      campOf s k = some y →
      y.applyAt = none →
      campSends s y = true →
      roundSent s y = true →
      (openTargets y).any (fun z => !z.heard && z.asked.isNone) = true →
      ∃ t, exec (.campaignQueryRound k) s = .next t ∧
        (campOf t k).map (fun c => c.targets.map (fun z => (z.short, z.asked))) = some (y.targets.map (fun z => (z.short, if (openTargets y).any (fun o => o.short == z.short && !o.heard && o.asked.isNone) then some 0 else z.asked)))) ∧
  -- campaignQueryRoundApply
  (∀ (k : Nat) (s : State) (y : Campaign),
      isUp s 1 = true →
      campOf s k = some y →
      y.applyAt = none →
      campSends s y = true →
      roundSent s y = true →
      y.targets.all (fun z => z.state != 1) = true →
      ∃ t, exec (.campaignQueryRound k) s = .next t ∧
        (campOf t k).map (fun c => (c.applyAt, c.finished)) = some (some (y.lastDone + y.delay * 32768), y.targets.all (fun z => z.state != 2))) ∧
  -- campaignStatus
  (∀ (d : Nat) (s : State) (x : Desc) (y : Campaign),
      Ready 0xA7 d s x →
      u64 x.bytes 24 % 64 = 0 ∧ u32 x.bytes 32 % 4096 = 0 ∧ inRange (u32 x.bytes 32) 4096 65536 = true →
      campOf s (u16 x.bytes 16) = some y →
      ∃ t, exec (.campaignStatus d) s = .next t ∧
        Done d 0 0 (toLE 4 (y.targets.take (u32 x.bytes 32 / 8)).length ++ toLE 1 y.round) t ∧
        PutOut s (u64 x.bytes 24) ((y.targets.take (u32 x.bytes 32 / 8)).flatMap statusEntry) t) ∧
  -- campaignCancel
  (∀ (d : Nat) (s : State) (x : Desc) (y : Campaign),
      Ready 0xA8 d s x →
      campOf s (u16 x.bytes 16) = some y →
      ∃ t, exec (.campaignCancel d) s = .next t ∧
        Done d 0 0 [] t ∧ campOf t (u16 x.bytes 16) = none) ∧
  -- campaignCancelNone
  (∀ (d : Nat) (s : State) (x : Desc),
      Ready 0xA8 d s x →
      campOf s (u16 x.bytes 16) = none →
      ∃ t, exec (.campaignCancel d) s = .next t ∧
        Done d 0x2E 0 [] t ∧ t.img = s.img)

/-- What each of these commands answers, under conditions on the state and its operands alone: RECORDER_SAMPLE (R475), RECORDER_FLUSH_DUE
(R477), RECORDER_THAW_DUE (R479), RECORDER_FREEZE (R479), RECORDER_THAW (R479), RECORDER_FLUSH (R477), RECORDER_EXT_RESET (R476),
REC_CURSOR_WRITE (R480), REC_WINDOW_LOADED (R480), REC_WINDOW_AUTO_INC (R480), REC_STATUS_CLEAR (R478), RECORDER_READ (R477). In it the
time line is the model's (log 1). -/
def Obligations.RecorderCommands : Prop :=
  -- recorderSample
  (∀ (ch : Nat) (y : Int) (s : State),
      ch < 30 ∧ ch < s.tel.live.length →
      isUp s 1 = true →
      isUp s (recIsland ch) = true →
      s.tel.frozen = false →
      ∃ t, exec (.recorderSample ch y) s = .next t ∧
        liveCh t ch = recSample ch (recValue s ch y) (stamp s) (!clockValid s) (liveCh s ch) ∧ t.tel.shadow = s.tel.shadow) ∧
  -- recorderSampleFrozen
  (∀ (ch : Nat) (y : Int) (s : State),
      ch < 30 →
      isUp s 1 = true →
      isUp s (recIsland ch) = true →
      s.tel.frozen = true →
      ∃ t, exec (.recorderSample ch y) s = .next t ∧
        t.tel.shadow = modAt s.tel.shadow ch (recSample ch (recValue s ch y) (stamp s) (!clockValid s)) ∧
        t.tel.live = s.tel.live) ∧
  -- recorderFlushDue
  (∀ (s : State),
      mayFlush s = true →
      s.tel.lastHour < s.rs.opSeconds / 3600 →
      s.tel.frozen = false →
      ∃ t, exec .recorderFlushDue s = .next t ∧
        t.tel.lastHour = s.rs.opSeconds / 3600 ∧ t.tel.generation = (s.tel.generation + 1) % 65536) ∧
  -- recorderFlushDueFrozen
  (∀ (s : State),
      mayFlush s = true →
      s.tel.lastHour < s.rs.opSeconds / 3600 →
      s.tel.frozen = true →
      ∃ t, exec .recorderFlushDue s = .next t ∧
        t.tel.lastHour = s.rs.opSeconds / 3600 ∧ t.tel.flushDue = true ∧ t.tel.generation = s.tel.generation) ∧
  -- recorderThawDue
  (∀ (s : State) (e : Nat),
      s.tel.thawAt = some e →
      s.tel.frozen = true →
      ∃ t, exec .recorderThawDue s = .next t ∧
        t.tel.frozen = false ∧ t.tel.thawAt = none ∧ e ≤ t.now) ∧
  -- recorderFreeze
  (∀ (d : Nat) (s : State) (x : Desc),
      Ready 0x44 d s x →
      ∃ t, exec (.recorderFreeze d) s = .next t ∧
        Done d 0 0 [] t ∧ t.tel.frozen = true ∧ t.tel.thawAt = some (s.now + 10 * secNs) ∧ t.tel.shadow = if s.tel.frozen then s.tel.shadow else List.replicate 30 RecCh.empty) ∧
  -- recorderThaw
  (∀ (d : Nat) (s : State) (x : Desc),
      Ready 0x45 d s x →
      s.tel.frozen = true →
      ∃ t, exec (.recorderThaw d) s = .next t ∧
        Done d 0 0 [] t ∧ t.tel.frozen = false ∧ t.tel.thawAt = none ∧ t.tel.shadow = List.replicate 30 RecCh.empty) ∧
  -- recorderFlush
  (∀ (d : Nat) (s : State) (x : Desc),
      Ready 0x46 d s x →
      s.tel.frozen = false →
      mayFlush s = true →
      ∃ t, exec (.recorderFlush d) s = .next t ∧
        Done d 0 0 (toLE 2 ((s.tel.generation + 1) % 65536)) t ∧ t.tel.generation = (s.tel.generation + 1) % 65536) ∧
  -- recorderExtReset
  (∀ (d : Nat) (s : State) (x : Desc),
      Ready 0x47 d s x →
      ∃ t, exec (.recorderExtReset d) s = .next t ∧
        Done d 0 0 [] t ∧
        t.tel.live = s.tel.live.zipIdx.map (fun p => if bit (u32 x.bytes 16) p.2 then { p.1 with fresh := true } else p.1)) ∧
  -- recCursorWrite
  (∀ (y : BitVec 32) (s : State),
      regOpen s 1 = true →
      ∃ t, exec (.recCursorWrite y) s = .next t ∧
        t.tel.index = y.toNat % 512 ∧ t.tel.liveSel = y.getLsbD 15 ∧ t.tel.autoInc = y.getLsbD 16 ∧ t.tel.loading = true) ∧
  -- recWindowLoaded
  (∀ (s : State),
      isUp s 1 = true →
      s.tel.loading = true →
      ∃ t, exec .recWindowLoaded s = .next t ∧
        t.tel.loading = false ∧
        t.tel.window = recordAt s s.tel.liveSel s.tel.index ++ recordAt s s.tel.liveSel ((s.tel.index + 1) % 512)) ∧
  -- recWindowAutoInc
  (∀ (s : State),
      regOpen s 1 = true →
      s.tel.autoInc = true →
      ∃ t, exec .recWindowAutoInc s = .next t ∧
        t.tel.index = (s.tel.index + 2) % 512 ∧ t.tel.loading = true) ∧
  -- recStatusClear
  (∀ (y : BitVec 32) (s : State),
      regOpen s 1 = true →
      ∃ t, exec (.recStatusClear y) s = .next t ∧
        t.tel.countStuck = (s.tel.countStuck && !y.getLsbD 19) ∧ t.tel.countLost = (s.tel.countLost && !y.getLsbD 18)) ∧
  -- recorderRead
  (∀ (d : Nat) (s : State) (x : Desc) (n : Nat),
      Ready 0x43 d s x →
      inRange (u16 x.bytes 20) 1 512 = true →
      u64 x.bytes 24 % 64 = 0 →
      n = min (u16 x.bytes 20) ((if bit (u8 x.bytes 16) 0 then 30 else 512) - u16 x.bytes 18) →
      ∃ t, exec (.recorderRead d) s = .next t ∧
        Done d 0 0 (toLE 2 n ++ toLE 2 s.tel.generation) t ∧
        PutOut s (u64 x.bytes 24) ((List.range n).flatMap (fun k => recordAt s (bit (u8 x.bytes 16) 0) (u16 x.bytes 18 + k))) t)

/-- What each of these commands answers, under conditions on the state and its operands alone: EVT_STATUS_CLEAR (R471), CNT_SAT_CLEAR
(R473), ECC_LOG_READ (R474), ECC_STATS (R474), ECC_SET (R474), BG_ACTIVITY_DISPATCH (R481), BG_PERIOD_END (R481), DRAM_RETRAIN (R481),
BG_STATS (R481). In it the time line is the model's (log 1). -/
def Obligations.ErrorsAndBackgroundWork : Prop :=
  -- evtStatusClear
  (∀ (half : Nat) (v : BitVec 32) (s : State) (k : Nat),
      isUp s 10 = true →
      half < 2 →
      k < 64 →
      ∃ t, exec (.evtStatusClear half v) s = .next t ∧
        t.host.evt.getLsbD k = (s.host.evt.getLsbD k && !(decide (k / 32 = half) && v.getLsbD (k % 32)))) ∧
  -- cntSatClear
  (∀ (y : BitVec 32) (s : State),
      regOpen s 1 = true →
      ∃ t, exec (.cntSatClear y) s = .next t ∧
        t.tel.cntSat = andNot 16 s.tel.cntSat y.toNat) ∧
  -- eccLogRead
  (∀ (d : Nat) (s : State) (x : Desc) (l : List (Nat × BitVec 64)),
      Ready 0x48 d s x →
      u64 x.bytes 24 % 64 = 0 ∧ u32 x.bytes 32 % 4096 = 0 ∧ inRange (u32 x.bytes 32) 4096 65536 = true →
      l = (s.tel.eccLog.filter (fun e => u64 x.bytes 40 ≤ e.1)).take (u32 x.bytes 32 / 8) →
      ∃ t, exec (.eccLogRead d) s = .next t ∧
        Done d 0 0 (toLE 4 l.length ++ toLE 8 (((l.getLast?).map (fun e => e.1 + 1)).getD (u64 x.bytes 40))) t ∧
        PutOut s (u64 x.bytes 24) (l.flatMap (fun e => toLE 8 e.2.toNat)) t) ∧
  -- eccStats
  (∀ (d : Nat) (s : State) (x : Desc),
      Ready 0x49 d s x →
      u64 x.bytes 24 % 64 = 0 →
      ∃ t, exec (.eccStats d) s = .next t ∧
        Done d 0 0 [] t ∧ PutOut s (u64 x.bytes 24) (padTo 512 ((eccWords s).flatMap (toLE 4))) t ∧
        (bit (u8 x.bytes 16) 0 = true → t.fab.corrected = [] ∧ t.fab.uncorrected = [])) ∧
  -- eccSet
  (∀ (d : Nat) (s : State) (x : Desc),
      Ready 0x4A d s x →
      inRange (u8 x.bytes 16) 1 13 = true →
      u32 x.bytes 20 ≠ 0 →
      ∃ t, exec (.eccSet d) s = .next t ∧
        Done d 0 0 [] t ∧ t.fab.eccLimit = setAt s.fab.eccLimit (u8 x.bytes 16) (u32 x.bytes 20)) ∧
  -- bgActivityDispatch
  (∀ (b : BgRun) (s : State) (k : Nat),
      isUp s 1 = true →
      isUp s 9 = true →
      freeSlot s (poolOf false 1) = some k →
      ∃ t, exec (.bgActivityDispatch b) s = .next t ∧
        t.tel.bgDone = (List.range 11).map (fun k => if k = 7 || k = 10 then s.tel.bgDone.getD k 0 else min 10000 (b.progress.getD k 0)) ∧
        (itemAt t k).map (fun i => (i.space, i.cls)) = some (0, 1)) ∧
  -- bgPeriodEnd
  (∀ (k : Nat) (s : State),
      k < 11 →
      isUp s 1 = true →
      bgPeriod s k ≠ 0 →
      ∃ t, exec (.bgPeriodEnd k) s = .next t ∧
        t.tel.bgDone = setAt s.tel.bgDone k 0 ∧ t.tel.bgSince = setAt s.tel.bgSince k t.now ∧ s.tel.bgSince.getD k 0 + bgPeriod s k ≤ t.now ∧ t.tel.bgLate = if bgActive s k && s.tel.bgDone.getD k 0 < 10000 then bumpAt s.tel.bgLate k else s.tel.bgLate) ∧
  -- dramRetrain
  (∀ (s : State),
      isUp s 3 = true →
      ∃ t, exec .dramRetrain s = .next t ∧
        t.tel.bgDone = setAt s.tel.bgDone 7 10000 ∧ t.rs.dramTrainCold = (s.rs.dramTrainCold && !inService s)) ∧
  -- bgStats
  (∀ (d : Nat) (s : State) (x : Desc),
      Ready 0x4B d s x →
      u64 x.bytes 24 % 64 = 0 →
      ∃ t, exec (.bgStats d) s = .next t ∧
        Done d 0 0 [] t ∧ PutOut s (u64 x.bytes 24) (padTo 64 (s.tel.bgLate.flatMap (toLE 4))) t ∧ t.tel.bgLate = if bit (u8 x.bytes 16) 0 then List.replicate 11 0 else s.tel.bgLate)

/-- What each of these commands answers, under conditions on the state and its operands alone: DBG_ITEM_0_READ (R488), REGISTER_WRITE
(R482), SETUP_DONE_WRITE (R483), SLEW_CTRL_WRITE (R486), TIME_NOW_NS_READ (R484), JTAG_DBG_CHAL (R490), JTAG_DBG_RESP (R490), JTAG_SCAN
(R490), JTAG_BYPASS (R490). In it the time line is the model's (log 1) and outputs, journal bodies and tags are named as the model names
them (log 10). -/
def Obligations.RegisterCommands : Prop :=
  -- dbgItem0Read
  (∀ (s : State),
      regOpen s 1 = true →
      s.keys.debug = true →
      ∃ t, exec .dbgItem0Read s = .next t ∧
        t.tel.itemCopy = ((s.sch.items.find? (fun i => i.slot == s.tel.itemSel)).map itemBytes).getD (List.replicate 32 0)) ∧
  -- registerWriteDropped
  (∀ (bar off : Nat) (v : RegData) (s : State),
      isUp s 10 = true →
      bar ≠ 6 →
      accessOk bar off v.size = false →
      ∃ t, exec (.registerWrite bar off v) s = .next t ∧
        t = answerUr s) ∧
  -- registerWriteBkp
  (∀ (k : Nat) (v : BitVec 32) (s : State),
      isUp s 10 = true →
      isUp s 0 = true →
      k < 8 →
      ∃ t, exec (.registerWrite 0 (0x40 + 4 * k) ⟨4, v.setWidth 64⟩) s = .next t ∧
        t.rs.bkp = setAt s.rs.bkp k v) ∧
  -- registerWriteCap
  (∀ (v : BitVec 32) (s : State),
      isUp s 10 = true →
      isUp s 0 = true →
      s.tel.locked = false →
      ∃ t, exec (.registerWrite 0 0x2C ⟨4, v.setWidth 64⟩) s = .next t ∧
        t.pw.cap = min 160 (max 40 (v.toNat % 256))) ∧
  -- registerWriteRoute
  (∀ (n : Nat) (v : BitVec 32) (s : State),
      isUp s 10 = true →
      n < 64 →
      s.host.evtVector.length = 64 →
      ∃ t, exec (.registerWrite 0 (0xD900 + 4 * n) ⟨4, v.setWidth 64⟩) s = .next t ∧
        t.host.evtEnable.getLsbD n = bit v.toNat 7 ∧ t.host.evtVector.getD n 0 = v.toNat % 64) ∧
  -- registerWriteRing
  (∀ (n : Nat) (v : BitVec 32) (s : State),
      isUp s 10 = true →
      n < 32 →
      s.host.rings.length = 32 →
      (ringOf s n).state = .disabled →
      ∃ t, exec (.registerWrite 0 (0xD010 + 64 * n) ⟨4, v.setWidth 64⟩) s = .next t ∧
        (ringOf t n).sqLog = ringLog (bits v.toNat 4 0) ∧ (ringOf t n).cqLog = ringLog (bits v.toNat 12 8)) ∧
  -- setupDoneWrite
  (∀ (s : State),
      isUp s 10 = true →
      ∃ t, exec .setupDoneWrite s = .next t ∧
        t.host.setupDone = true ∧ t.tel.locked = true) ∧
  -- slewCtrlWrite
  (∀ (v : BitVec 32) (s : State),
      isUp s 10 = true →
      isUp s 1 = true →
      ∃ t, exec (.slewCtrlWrite v) s = .next t ∧
        t.tel.slewNew = v ∧ t.tel.slewAt = s.now + 1000) ∧
  -- timeNowNsRead
  (∀ (s : State),
      isUp s 10 = true →
      ∃ t, exec .timeNowNsRead s = .next t ∧
        t.tm.latched = (s.tm.counter / 1000000000 % 2 ^ 48).toNat ∧ t.tm.counter = s.tm.counter) ∧
  -- jtagDbgChal
  (∀ (s : State),
      isUp s 2 = true →
      ∃ t, exec .jtagDbgChal s = .next t ∧
        t.keys.jtagIr = 0x10 ∧ t.keys.challenge = some ((newChallenge s).1, s.now) ∧
        t.out = s.out ++ [.jtag (newChallenge s).1]) ∧
  -- jtagDbgResp
  (∀ (r q : Nat) (s : State) (g : Bytes) (t0 : Nat) (p : Nat × Nat),
      isUp s 2 = true →
      s.keys.st = 1 →
      s.opt.debugAllowed = true →
      s.keys.fails < 3 →
      s.keys.challenge = some (g, t0) →
      s.opt.authority = some p →
      s.now ≤ t0 + 60 * secNs →
      ecdsaVerify p g r q = true →
      ∃ t, exec (.jtagDbgResp r q) s = .next t ∧
        t.keys.jtagIr = 0x11 ∧ t.keys.debug = true ∧ t.keys.challenge = none ∧ Raised 63 t) ∧
  -- jtagScan
  (∀ (s : State),
      ∃ t, exec .jtagScan s = .next t ∧
        t.keys.jtagIr = if s.keys.debug then 0x20 else 0xFF) ∧
  -- jtagBypass
  (∀ (k : Nat) (s : State),
      k ≠ 0x10 ∧ k ≠ 0x11 ∧ k ≠ 0x20 →
      ∃ t, exec (.jtagBypass k) s = .next t ∧
        t.keys.jtagIr = 0xFF)
end

