-- ==== Sys2Proof/Laws/Frames.lean ====
section
/-! SUPPORT. What the shared operations leave as it was: how OnlyParts composes, one lemma for each updater of Machine/Ops.lean (the parts of
the updated record that stay are shown by the caller), and one for each operation that every family uses. -/
namespace Sys2Proof.Machine
open Sys2Proof

/-! ### How it composes -/

/-- A state differs from itself in nothing. -/
theorem only_refl (l : List Part) (s : State) : OnlyParts l s s := fun p _ =>
  match p with
  | .pending => rfl
  | .free => rfl
  | .out => rfl
  | .now => rfl
  | .lanes => rfl
  | .sound => ⟨rfl, rfl, rfl, rfl, rfl⟩
  | .dram => ⟨rfl, rfl⟩
  | .eccCounts => ⟨rfl, rfl, rfl⟩
  | .islands => rfl
  | .power => rfl
  | .resets => ⟨rfl, rfl, rfl, rfl, rfl, rfl, rfl, rfl⟩
  | .startUp => ⟨rfl, rfl, rfl, rfl, rfl, rfl, rfl, rfl, rfl, rfl, rfl⟩
  | .counts => ⟨rfl, rfl, rfl⟩
  | .backup => rfl
  | .lagoon => ⟨rfl, rfl, rfl⟩
  | .episodes => ⟨rfl, rfl, rfl, rfl⟩
  | .coldFlags => ⟨rfl, rfl, rfl⟩
  | .link => ⟨rfl, rfl, rfl, rfl, rfl, rfl, rfl, rfl, rfl, rfl⟩
  | .setup => ⟨rfl, rfl⟩
  | .rings => ⟨rfl, rfl⟩
  | .descs => ⟨rfl, rfl⟩
  | .dma => ⟨rfl, rfl, rfl⟩
  | .steer => rfl
  | .bufs => rfl
  | .events => ⟨rfl, rfl, rfl, rfl, rfl, rfl⟩
  | .msix => ⟨rfl, rfl, rfl, rfl, rfl⟩
  | .table => rfl
  | .sched => rfl
  | .queues => ⟨rfl, rfl⟩
  | .intake => ⟨rfl, rfl, rfl, rfl, rfl, rfl, rfl, rfl⟩
  | .conv => rfl
  | .meters => ⟨rfl, rfl, rfl, rfl⟩
  | .meterKeys => rfl
  | .stdRecs => rfl
  | .custody => ⟨rfl, rfl, rfl⟩
  | .closes => ⟨rfl, rfl⟩
  | .tariffLog => ⟨rfl, rfl, rfl⟩
  | .valves => ⟨rfl, rfl⟩
  | .balance => ⟨rfl, rfl, rfl, rfl⟩
  | .indicators => ⟨rfl, rfl⟩
  | .polls => rfl
  | .profiles => ⟨rfl, rfl, rfl⟩
  | .quarantine => rfl
  | .journal => ⟨rfl, rfl⟩
  | .tariff => ⟨rfl, rfl, rfl, rfl, rfl, rfl, rfl, rfl, rfl, rfl⟩
  | .ledgerWork => ⟨rfl, rfl, rfl, rfl, rfl, rfl, rfl⟩
  | .ledgerStats => ⟨rfl, rfl, rfl⟩
  | .plc => rfl
  | .radio => rfl
  | .wired => rfl
  | .time => rfl
  | .arch => rfl
  | .pair => rfl
  | .pairStore => rfl
  | .fuses => ⟨rfl, rfl⟩
  | .roots => ⟨rfl, rfl⟩
  | .counter => ⟨rfl, rfl, rfl⟩
  | .keyState => ⟨rfl, rfl, rfl, rfl⟩
  | .tamper => ⟨rfl, rfl, rfl, rfl, rfl, rfl, rfl, rfl, rfl, rfl, rfl, rfl, rfl⟩
  | .unlock => ⟨rfl, rfl, rfl, rfl⟩
  | .keyStats => rfl
  | .blocks => ⟨rfl, rfl, rfl, rfl, rfl, rfl, rfl, rfl, rfl, rfl, rfl, rfl⟩
  | .checkpoint => ⟨rfl, rfl, rfl, rfl, rfl, rfl, rfl⟩
  | .hostns => ⟨rfl, rfl, rfl⟩
  | .backlog => ⟨rfl, rfl, rfl, rfl⟩
  | .flashStats => ⟨rfl, rfl, rfl, rfl, rfl, rfl⟩
  | .images => ⟨rfl, rfl, rfl, rfl, rfl, rfl, rfl, rfl⟩
  | .campaigns => ⟨rfl, rfl⟩
  | .health => ⟨rfl, rfl, rfl⟩
  | .recorder => ⟨rfl, rfl, rfl, rfl, rfl, rfl, rfl, rfl, rfl, rfl⟩
  | .recCursor => ⟨rfl, rfl, rfl, rfl, rfl⟩
  | .cntSat => rfl
  | .eccLog => ⟨rfl, rfl, rfl⟩
  | .background => ⟨rfl, rfl, rfl⟩
  | .boardRegs => ⟨rfl, rfl, rfl, rfl, rfl, rfl, rfl, rfl⟩
  | .optStatus => ⟨rfl, rfl⟩
  | .ethLinks => ⟨rfl, rfl⟩
  | .dbgItem => ⟨rfl, rfl⟩
  | .options => rfl
  | .optStore => rfl

/-- A part that stays twice stays. -/
theorem Part.same_trans {p : Part} {s t u : State} (h : p.same s t) (g : p.same t u) : p.same s u :=
  match p, h, g with
  | .pending, h, g => g.trans h
  | .free, h, g => g.trans h
  | .out, h, g => g.trans h
  | .now, h, g => g.trans h
  | .lanes, h, g => g.trans h
  | .sound, ⟨h0, h1, h2, h3, h4⟩, ⟨g0, g1, g2, g3, g4⟩ => ⟨g0.trans h0, g1.trans h1, g2.trans h2, g3.trans h3, g4.trans h4⟩
  | .dram, ⟨h0, h1⟩, ⟨g0, g1⟩ => ⟨g0.trans h0, g1.trans h1⟩
  | .eccCounts, ⟨h0, h1, h2⟩, ⟨g0, g1, g2⟩ => ⟨g0.trans h0, g1.trans h1, g2.trans h2⟩
  | .islands, h, g => g.trans h
  | .power, h, g => g.trans h
  | .resets, ⟨h0, h1, h2, h3, h4, h5, h6, h7⟩, ⟨g0, g1, g2, g3, g4, g5, g6, g7⟩ => ⟨g0.trans h0, g1.trans h1, g2.trans h2, g3.trans h3, g4.trans
      h4, g5.trans h5, g6.trans h6, g7.trans h7⟩
  | .startUp, ⟨h0, h1, h2, h3, h4, h5, h6, h7, h8, h9, h10⟩, ⟨g0, g1, g2, g3, g4, g5, g6, g7, g8, g9, g10⟩ => ⟨g0.trans h0, g1.trans h1, g2.trans
      h2, g3.trans h3, g4.trans h4, g5.trans h5, g6.trans h6, g7.trans h7, g8.trans h8, g9.trans h9, g10.trans h10⟩
  | .counts, ⟨h0, h1, h2⟩, ⟨g0, g1, g2⟩ => ⟨g0.trans h0, g1.trans h1, g2.trans h2⟩
  | .backup, h, g => g.trans h
  | .lagoon, ⟨h0, h1, h2⟩, ⟨g0, g1, g2⟩ => ⟨g0.trans h0, g1.trans h1, g2.trans h2⟩
  | .episodes, ⟨h0, h1, h2, h3⟩, ⟨g0, g1, g2, g3⟩ => ⟨g0.trans h0, g1.trans h1, g2.trans h2, g3.trans h3⟩
  | .coldFlags, ⟨h0, h1, h2⟩, ⟨g0, g1, g2⟩ => ⟨g0.trans h0, g1.trans h1, g2.trans h2⟩
  | .link, ⟨h0, h1, h2, h3, h4, h5, h6, h7, h8, h9⟩, ⟨g0, g1, g2, g3, g4, g5, g6, g7, g8, g9⟩ => ⟨g0.trans h0, g1.trans h1, g2.trans h2, g3.trans
      h3, g4.trans h4, g5.trans h5, g6.trans h6, g7.trans h7, g8.trans h8, g9.trans h9⟩
  | .setup, ⟨h0, h1⟩, ⟨g0, g1⟩ => ⟨g0.trans h0, g1.trans h1⟩
  | .rings, ⟨h0, h1⟩, ⟨g0, g1⟩ => ⟨g0.trans h0, g1.trans h1⟩
  | .descs, ⟨h0, h1⟩, ⟨g0, g1⟩ => ⟨g0.trans h0, g1.trans h1⟩
  | .dma, ⟨h0, h1, h2⟩, ⟨g0, g1, g2⟩ => ⟨g0.trans h0, g1.trans h1, g2.trans h2⟩
  | .steer, h, g => g.trans h
  | .bufs, h, g => g.trans h
  | .events, ⟨h0, h1, h2, h3, h4, h5⟩, ⟨g0, g1, g2, g3, g4, g5⟩ => ⟨g0.trans h0, g1.trans h1, g2.trans h2, g3.trans h3, g4.trans h4, g5.trans h5⟩
  | .msix, ⟨h0, h1, h2, h3, h4⟩, ⟨g0, g1, g2, g3, g4⟩ => ⟨g0.trans h0, g1.trans h1, g2.trans h2, g3.trans h3, g4.trans h4⟩
  | .table, h, g => g.trans h
  | .sched, h, g => g.trans h
  | .queues, ⟨h0, h1⟩, ⟨g0, g1⟩ => ⟨g0.trans h0, g1.trans h1⟩
  | .intake, ⟨h0, h1, h2, h3, h4, h5, h6, h7⟩, ⟨g0, g1, g2, g3, g4, g5, g6, g7⟩ => ⟨g0.trans h0, g1.trans h1, g2.trans h2, g3.trans h3, g4.trans
      h4, g5.trans h5, g6.trans h6, g7.trans h7⟩
  | .conv, h, g => g.trans h
  | .meters, ⟨h0, h1, h2, h3⟩, ⟨g0, g1, g2, g3⟩ => ⟨g0.trans h0, g1.trans h1, g2.trans h2, g3.trans h3⟩
  | .meterKeys, h, g => g.trans h
  | .stdRecs, h, g => g.trans h
  | .custody, ⟨h0, h1, h2⟩, ⟨g0, g1, g2⟩ => ⟨g0.trans h0, g1.trans h1, g2.trans h2⟩
  | .closes, ⟨h0, h1⟩, ⟨g0, g1⟩ => ⟨g0.trans h0, g1.trans h1⟩
  | .tariffLog, ⟨h0, h1, h2⟩, ⟨g0, g1, g2⟩ => ⟨g0.trans h0, g1.trans h1, g2.trans h2⟩
  | .valves, ⟨h0, h1⟩, ⟨g0, g1⟩ => ⟨g0.trans h0, g1.trans h1⟩
  | .balance, ⟨h0, h1, h2, h3⟩, ⟨g0, g1, g2, g3⟩ => ⟨g0.trans h0, g1.trans h1, g2.trans h2, g3.trans h3⟩
  | .indicators, ⟨h0, h1⟩, ⟨g0, g1⟩ => ⟨g0.trans h0, g1.trans h1⟩
  | .polls, h, g => g.trans h
  | .profiles, ⟨h0, h1, h2⟩, ⟨g0, g1, g2⟩ => ⟨g0.trans h0, g1.trans h1, g2.trans h2⟩
  | .quarantine, h, g => g.trans h
  | .journal, ⟨h0, h1⟩, ⟨g0, g1⟩ => ⟨g0.trans h0, g1.trans h1⟩
  | .tariff, ⟨h0, h1, h2, h3, h4, h5, h6, h7, h8, h9⟩, ⟨g0, g1, g2, g3, g4, g5, g6, g7, g8, g9⟩ => ⟨g0.trans h0, g1.trans h1, g2.trans h2, g3.trans
      h3, g4.trans h4, g5.trans h5, g6.trans h6, g7.trans h7, g8.trans h8, g9.trans h9⟩
  | .ledgerWork, ⟨h0, h1, h2, h3, h4, h5, h6⟩, ⟨g0, g1, g2, g3, g4, g5, g6⟩ => ⟨g0.trans h0, g1.trans h1, g2.trans h2, g3.trans h3, g4.trans h4,
      g5.trans h5, g6.trans h6⟩
  | .ledgerStats, ⟨h0, h1, h2⟩, ⟨g0, g1, g2⟩ => ⟨g0.trans h0, g1.trans h1, g2.trans h2⟩
  | .plc, h, g => g.trans h
  | .radio, h, g => g.trans h
  | .wired, h, g => g.trans h
  | .time, h, g => g.trans h
  | .arch, h, g => g.trans h
  | .pair, h, g => g.trans h
  | .pairStore, h, g => g.trans h
  | .fuses, ⟨h0, h1⟩, ⟨g0, g1⟩ => ⟨g0.trans h0, g1.trans h1⟩
  | .roots, ⟨h0, h1⟩, ⟨g0, g1⟩ => ⟨g0.trans h0, g1.trans h1⟩
  | .counter, ⟨h0, h1, h2⟩, ⟨g0, g1, g2⟩ => ⟨g0.trans h0, g1.trans h1, g2.trans h2⟩
  | .keyState, ⟨h0, h1, h2, h3⟩, ⟨g0, g1, g2, g3⟩ => ⟨g0.trans h0, g1.trans h1, g2.trans h2, g3.trans h3⟩
  | .tamper, ⟨h0, h1, h2, h3, h4, h5, h6, h7, h8, h9, h10, h11, h12⟩, ⟨g0, g1, g2, g3, g4, g5, g6, g7, g8, g9, g10, g11, g12⟩ => ⟨g0.trans h0,
      g1.trans h1, g2.trans h2, g3.trans h3, g4.trans h4, g5.trans h5, g6.trans h6, g7.trans h7, g8.trans h8, g9.trans h9, g10.trans h10, g11.trans
      h11, g12.trans h12⟩
  | .unlock, ⟨h0, h1, h2, h3⟩, ⟨g0, g1, g2, g3⟩ => ⟨g0.trans h0, g1.trans h1, g2.trans h2, g3.trans h3⟩
  | .keyStats, h, g => g.trans h
  | .blocks, ⟨h0, h1, h2, h3, h4, h5, h6, h7, h8, h9, h10, h11⟩, ⟨g0, g1, g2, g3, g4, g5, g6, g7, g8, g9, g10, g11⟩ => ⟨g0.trans h0, g1.trans h1,
      g2.trans h2, g3.trans h3, g4.trans h4, g5.trans h5, g6.trans h6, g7.trans h7, g8.trans h8, g9.trans h9, g10.trans h10, g11.trans h11⟩
  | .checkpoint, ⟨h0, h1, h2, h3, h4, h5, h6⟩, ⟨g0, g1, g2, g3, g4, g5, g6⟩ => ⟨g0.trans h0, g1.trans h1, g2.trans h2, g3.trans h3, g4.trans h4,
      g5.trans h5, g6.trans h6⟩
  | .hostns, ⟨h0, h1, h2⟩, ⟨g0, g1, g2⟩ => ⟨g0.trans h0, g1.trans h1, g2.trans h2⟩
  | .backlog, ⟨h0, h1, h2, h3⟩, ⟨g0, g1, g2, g3⟩ => ⟨g0.trans h0, g1.trans h1, g2.trans h2, g3.trans h3⟩
  | .flashStats, ⟨h0, h1, h2, h3, h4, h5⟩, ⟨g0, g1, g2, g3, g4, g5⟩ => ⟨g0.trans h0, g1.trans h1, g2.trans h2, g3.trans h3, g4.trans h4, g5.trans h5⟩
  | .images, ⟨h0, h1, h2, h3, h4, h5, h6, h7⟩, ⟨g0, g1, g2, g3, g4, g5, g6, g7⟩ => ⟨g0.trans h0, g1.trans h1, g2.trans h2, g3.trans h3, g4.trans
      h4, g5.trans h5, g6.trans h6, g7.trans h7⟩
  | .campaigns, ⟨h0, h1⟩, ⟨g0, g1⟩ => ⟨g0.trans h0, g1.trans h1⟩
  | .health, ⟨h0, h1, h2⟩, ⟨g0, g1, g2⟩ => ⟨g0.trans h0, g1.trans h1, g2.trans h2⟩
  | .recorder, ⟨h0, h1, h2, h3, h4, h5, h6, h7, h8, h9⟩, ⟨g0, g1, g2, g3, g4, g5, g6, g7, g8, g9⟩ => ⟨g0.trans h0, g1.trans h1, g2.trans h2,
      g3.trans h3, g4.trans h4, g5.trans h5, g6.trans h6, g7.trans h7, g8.trans h8, g9.trans h9⟩
  | .recCursor, ⟨h0, h1, h2, h3, h4⟩, ⟨g0, g1, g2, g3, g4⟩ => ⟨g0.trans h0, g1.trans h1, g2.trans h2, g3.trans h3, g4.trans h4⟩
  | .cntSat, h, g => g.trans h
  | .eccLog, ⟨h0, h1, h2⟩, ⟨g0, g1, g2⟩ => ⟨g0.trans h0, g1.trans h1, g2.trans h2⟩
  | .background, ⟨h0, h1, h2⟩, ⟨g0, g1, g2⟩ => ⟨g0.trans h0, g1.trans h1, g2.trans h2⟩
  | .boardRegs, ⟨h0, h1, h2, h3, h4, h5, h6, h7⟩, ⟨g0, g1, g2, g3, g4, g5, g6, g7⟩ => ⟨g0.trans h0, g1.trans h1, g2.trans h2, g3.trans h3, g4.trans
      h4, g5.trans h5, g6.trans h6, g7.trans h7⟩
  | .optStatus, ⟨h0, h1⟩, ⟨g0, g1⟩ => ⟨g0.trans h0, g1.trans h1⟩
  | .ethLinks, ⟨h0, h1⟩, ⟨g0, g1⟩ => ⟨g0.trans h0, g1.trans h1⟩
  | .dbgItem, ⟨h0, h1⟩, ⟨g0, g1⟩ => ⟨g0.trans h0, g1.trans h1⟩
  | .options, h, g => g.trans h
  | .optStore, h, g => g.trans h

theorem only_trans {l : List Part} {s t u : State} (h : OnlyParts l s t) (g : OnlyParts l t u) : OnlyParts l s u :=
  fun p hp => Part.same_trans (h p hp) (g p hp)

theorem only_mono {l m : List Part} {s t : State} (h : OnlyParts l s t) (hl : l ⊆ m) : OnlyParts m s t :=
  fun p hp => h p (fun hq => hp (hl hq))

/-- One operation more: what it may change is among the parts allowed. -/
theorem only_step {l m : List Part} {s t u : State} (g : OnlyParts l t u) (hl : l ⊆ m) (h : OnlyParts m s t) : OnlyParts m s u :=
  only_trans h (only_mono g hl)

theorem only_ite {l : List Part} {c : Prop} [Decidable c] {s t u : State} (h : OnlyParts l s t) (g : OnlyParts l s u) :
    OnlyParts l s (if c then t else u) := by
  split
  · exact h
  · exact g

/-- A change made once for each element of a list. -/
theorem only_foldl {α : Type} {l : List Part} {f : State → α → State} (h : ∀ s x, OnlyParts l s (f s x)) (xs : List α) (s : State) :
    OnlyParts l s (xs.foldl f s) := by
  induction xs generalizing s with
  | nil => exact only_refl l s
  | cons x r ih => exact only_trans (h s x) (ih (f s x))

/-! ### The updaters -/

theorem only_onFab {l : List Part} {f} {s : State} (hlanes : Part.lanes ∈ l ∨ Part.lanes.same s (onFab f s)) (hsound : Part.sound ∈ l ∨
    Part.sound.same s (onFab f s)) (hdram : Part.dram ∈ l ∨ Part.dram.same s (onFab f s)) (heccCounts : Part.eccCounts ∈ l ∨ Part.eccCounts.same s
    (onFab f s)) :
    OnlyParts l s (onFab f s) := fun p hp =>
  match p, hp with
  | .pending, _ => rfl
  | .free, _ => rfl
  | .out, _ => rfl
  | .now, _ => rfl
  | .lanes, hp => hlanes.resolve_left hp
  | .sound, hp => hsound.resolve_left hp
  | .dram, hp => hdram.resolve_left hp
  | .eccCounts, hp => heccCounts.resolve_left hp
  | .islands, _ => rfl
  | .power, _ => rfl
  | .resets, _ => ⟨rfl, rfl, rfl, rfl, rfl, rfl, rfl, rfl⟩
  | .startUp, _ => ⟨rfl, rfl, rfl, rfl, rfl, rfl, rfl, rfl, rfl, rfl, rfl⟩
  | .counts, _ => ⟨rfl, rfl, rfl⟩
  | .backup, _ => rfl
  | .lagoon, _ => ⟨rfl, rfl, rfl⟩
  | .episodes, _ => ⟨rfl, rfl, rfl, rfl⟩
  | .coldFlags, _ => ⟨rfl, rfl, rfl⟩
  | .link, _ => ⟨rfl, rfl, rfl, rfl, rfl, rfl, rfl, rfl, rfl, rfl⟩
  | .setup, _ => ⟨rfl, rfl⟩
  | .rings, _ => ⟨rfl, rfl⟩
  | .descs, _ => ⟨rfl, rfl⟩
  | .dma, _ => ⟨rfl, rfl, rfl⟩
  | .steer, _ => rfl
  | .bufs, _ => rfl
  | .events, _ => ⟨rfl, rfl, rfl, rfl, rfl, rfl⟩
  | .msix, _ => ⟨rfl, rfl, rfl, rfl, rfl⟩
  | .table, _ => rfl
  | .sched, _ => rfl
  | .queues, _ => ⟨rfl, rfl⟩
  | .intake, _ => ⟨rfl, rfl, rfl, rfl, rfl, rfl, rfl, rfl⟩
  | .conv, _ => rfl
  | .meters, _ => ⟨rfl, rfl, rfl, rfl⟩
  | .meterKeys, _ => rfl
  | .stdRecs, _ => rfl
  | .custody, _ => ⟨rfl, rfl, rfl⟩
  | .closes, _ => ⟨rfl, rfl⟩
  | .tariffLog, _ => ⟨rfl, rfl, rfl⟩
  | .valves, _ => ⟨rfl, rfl⟩
  | .balance, _ => ⟨rfl, rfl, rfl, rfl⟩
  | .indicators, _ => ⟨rfl, rfl⟩
  | .polls, _ => rfl
  | .profiles, _ => ⟨rfl, rfl, rfl⟩
  | .quarantine, _ => rfl
  | .journal, _ => ⟨rfl, rfl⟩
  | .tariff, _ => ⟨rfl, rfl, rfl, rfl, rfl, rfl, rfl, rfl, rfl, rfl⟩
  | .ledgerWork, _ => ⟨rfl, rfl, rfl, rfl, rfl, rfl, rfl⟩
  | .ledgerStats, _ => ⟨rfl, rfl, rfl⟩
  | .plc, _ => rfl
  | .radio, _ => rfl
  | .wired, _ => rfl
  | .time, _ => rfl
  | .arch, _ => rfl
  | .pair, _ => rfl
  | .pairStore, _ => rfl
  | .fuses, _ => ⟨rfl, rfl⟩
  | .roots, _ => ⟨rfl, rfl⟩
  | .counter, _ => ⟨rfl, rfl, rfl⟩
  | .keyState, _ => ⟨rfl, rfl, rfl, rfl⟩
  | .tamper, _ => ⟨rfl, rfl, rfl, rfl, rfl, rfl, rfl, rfl, rfl, rfl, rfl, rfl, rfl⟩
  | .unlock, _ => ⟨rfl, rfl, rfl, rfl⟩
  | .keyStats, _ => rfl
  | .blocks, _ => ⟨rfl, rfl, rfl, rfl, rfl, rfl, rfl, rfl, rfl, rfl, rfl, rfl⟩
  | .checkpoint, _ => ⟨rfl, rfl, rfl, rfl, rfl, rfl, rfl⟩
  | .hostns, _ => ⟨rfl, rfl, rfl⟩
  | .backlog, _ => ⟨rfl, rfl, rfl, rfl⟩
  | .flashStats, _ => ⟨rfl, rfl, rfl, rfl, rfl, rfl⟩
  | .images, _ => ⟨rfl, rfl, rfl, rfl, rfl, rfl, rfl, rfl⟩
  | .campaigns, _ => ⟨rfl, rfl⟩
  | .health, _ => ⟨rfl, rfl, rfl⟩
  | .recorder, _ => ⟨rfl, rfl, rfl, rfl, rfl, rfl, rfl, rfl, rfl, rfl⟩
  | .recCursor, _ => ⟨rfl, rfl, rfl, rfl, rfl⟩
  | .cntSat, _ => rfl
  | .eccLog, _ => ⟨rfl, rfl, rfl⟩
  | .background, _ => ⟨rfl, rfl, rfl⟩
  | .boardRegs, _ => ⟨rfl, rfl, rfl, rfl, rfl, rfl, rfl, rfl⟩
  | .optStatus, _ => ⟨rfl, rfl⟩
  | .ethLinks, _ => ⟨rfl, rfl⟩
  | .dbgItem, _ => ⟨rfl, rfl⟩
  | .options, _ => rfl
  | .optStore, _ => rfl

theorem only_onPw {l : List Part} {f} {s : State} (hpower : Part.power ∈ l) :
    OnlyParts l s (onPw f s) := fun p hp =>
  match p, hp with
  | .pending, _ => rfl
  | .free, _ => rfl
  | .out, _ => rfl
  | .now, _ => rfl
  | .lanes, _ => rfl
  | .sound, _ => ⟨rfl, rfl, rfl, rfl, rfl⟩
  | .dram, _ => ⟨rfl, rfl⟩
  | .eccCounts, _ => ⟨rfl, rfl, rfl⟩
  | .islands, _ => rfl
  | .power, hp => absurd hpower hp
  | .resets, _ => ⟨rfl, rfl, rfl, rfl, rfl, rfl, rfl, rfl⟩
  | .startUp, _ => ⟨rfl, rfl, rfl, rfl, rfl, rfl, rfl, rfl, rfl, rfl, rfl⟩
  | .counts, _ => ⟨rfl, rfl, rfl⟩
  | .backup, _ => rfl
  | .lagoon, _ => ⟨rfl, rfl, rfl⟩
  | .episodes, _ => ⟨rfl, rfl, rfl, rfl⟩
  | .coldFlags, _ => ⟨rfl, rfl, rfl⟩
  | .link, _ => ⟨rfl, rfl, rfl, rfl, rfl, rfl, rfl, rfl, rfl, rfl⟩
  | .setup, _ => ⟨rfl, rfl⟩
  | .rings, _ => ⟨rfl, rfl⟩
  | .descs, _ => ⟨rfl, rfl⟩
  | .dma, _ => ⟨rfl, rfl, rfl⟩
  | .steer, _ => rfl
  | .bufs, _ => rfl
  | .events, _ => ⟨rfl, rfl, rfl, rfl, rfl, rfl⟩
  | .msix, _ => ⟨rfl, rfl, rfl, rfl, rfl⟩
  | .table, _ => rfl
  | .sched, _ => rfl
  | .queues, _ => ⟨rfl, rfl⟩
  | .intake, _ => ⟨rfl, rfl, rfl, rfl, rfl, rfl, rfl, rfl⟩
  | .conv, _ => rfl
  | .meters, _ => ⟨rfl, rfl, rfl, rfl⟩
  | .meterKeys, _ => rfl
  | .stdRecs, _ => rfl
  | .custody, _ => ⟨rfl, rfl, rfl⟩
  | .closes, _ => ⟨rfl, rfl⟩
  | .tariffLog, _ => ⟨rfl, rfl, rfl⟩
  | .valves, _ => ⟨rfl, rfl⟩
  | .balance, _ => ⟨rfl, rfl, rfl, rfl⟩
  | .indicators, _ => ⟨rfl, rfl⟩
  | .polls, _ => rfl
  | .profiles, _ => ⟨rfl, rfl, rfl⟩
  | .quarantine, _ => rfl
  | .journal, _ => ⟨rfl, rfl⟩
  | .tariff, _ => ⟨rfl, rfl, rfl, rfl, rfl, rfl, rfl, rfl, rfl, rfl⟩
  | .ledgerWork, _ => ⟨rfl, rfl, rfl, rfl, rfl, rfl, rfl⟩
  | .ledgerStats, _ => ⟨rfl, rfl, rfl⟩
  | .plc, _ => rfl
  | .radio, _ => rfl
  | .wired, _ => rfl
  | .time, _ => rfl
  | .arch, _ => rfl
  | .pair, _ => rfl
  | .pairStore, _ => rfl
  | .fuses, _ => ⟨rfl, rfl⟩
  | .roots, _ => ⟨rfl, rfl⟩
  | .counter, _ => ⟨rfl, rfl, rfl⟩
  | .keyState, _ => ⟨rfl, rfl, rfl, rfl⟩
  | .tamper, _ => ⟨rfl, rfl, rfl, rfl, rfl, rfl, rfl, rfl, rfl, rfl, rfl, rfl, rfl⟩
  | .unlock, _ => ⟨rfl, rfl, rfl, rfl⟩
  | .keyStats, _ => rfl
  | .blocks, _ => ⟨rfl, rfl, rfl, rfl, rfl, rfl, rfl, rfl, rfl, rfl, rfl, rfl⟩
  | .checkpoint, _ => ⟨rfl, rfl, rfl, rfl, rfl, rfl, rfl⟩
  | .hostns, _ => ⟨rfl, rfl, rfl⟩
  | .backlog, _ => ⟨rfl, rfl, rfl, rfl⟩
  | .flashStats, _ => ⟨rfl, rfl, rfl, rfl, rfl, rfl⟩
  | .images, _ => ⟨rfl, rfl, rfl, rfl, rfl, rfl, rfl, rfl⟩
  | .campaigns, _ => ⟨rfl, rfl⟩
  | .health, _ => ⟨rfl, rfl, rfl⟩
  | .recorder, _ => ⟨rfl, rfl, rfl, rfl, rfl, rfl, rfl, rfl, rfl, rfl⟩
  | .recCursor, _ => ⟨rfl, rfl, rfl, rfl, rfl⟩
  | .cntSat, _ => rfl
  | .eccLog, _ => ⟨rfl, rfl, rfl⟩
  | .background, _ => ⟨rfl, rfl, rfl⟩
  | .boardRegs, _ => ⟨rfl, rfl, rfl, rfl, rfl, rfl, rfl, rfl⟩
  | .optStatus, _ => ⟨rfl, rfl⟩
  | .ethLinks, _ => ⟨rfl, rfl⟩
  | .dbgItem, _ => ⟨rfl, rfl⟩
  | .options, _ => rfl
  | .optStore, _ => rfl

theorem only_onRs {l : List Part} {f} {s : State} (hresets : Part.resets ∈ l ∨ Part.resets.same s (onRs f s)) (hstartUp : Part.startUp ∈ l ∨
    Part.startUp.same s (onRs f s)) (hcounts : Part.counts ∈ l ∨ Part.counts.same s (onRs f s)) (hbackup : Part.backup ∈ l ∨ Part.backup.same s
    (onRs f s)) (hlagoon : Part.lagoon ∈ l ∨ Part.lagoon.same s (onRs f s)) (hepisodes : Part.episodes ∈ l ∨ Part.episodes.same s (onRs f s))
    (hcoldFlags : Part.coldFlags ∈ l ∨ Part.coldFlags.same s (onRs f s)) :
    OnlyParts l s (onRs f s) := fun p hp =>
  match p, hp with
  | .pending, _ => rfl
  | .free, _ => rfl
  | .out, _ => rfl
  | .now, _ => rfl
  | .lanes, _ => rfl
  | .sound, _ => ⟨rfl, rfl, rfl, rfl, rfl⟩
  | .dram, _ => ⟨rfl, rfl⟩
  | .eccCounts, _ => ⟨rfl, rfl, rfl⟩
  | .islands, _ => rfl
  | .power, _ => rfl
  | .resets, hp => hresets.resolve_left hp
  | .startUp, hp => hstartUp.resolve_left hp
  | .counts, hp => hcounts.resolve_left hp
  | .backup, hp => hbackup.resolve_left hp
  | .lagoon, hp => hlagoon.resolve_left hp
  | .episodes, hp => hepisodes.resolve_left hp
  | .coldFlags, hp => hcoldFlags.resolve_left hp
  | .link, _ => ⟨rfl, rfl, rfl, rfl, rfl, rfl, rfl, rfl, rfl, rfl⟩
  | .setup, _ => ⟨rfl, rfl⟩
  | .rings, _ => ⟨rfl, rfl⟩
  | .descs, _ => ⟨rfl, rfl⟩
  | .dma, _ => ⟨rfl, rfl, rfl⟩
  | .steer, _ => rfl
  | .bufs, _ => rfl
  | .events, _ => ⟨rfl, rfl, rfl, rfl, rfl, rfl⟩
  | .msix, _ => ⟨rfl, rfl, rfl, rfl, rfl⟩
  | .table, _ => rfl
  | .sched, _ => rfl
  | .queues, _ => ⟨rfl, rfl⟩
  | .intake, _ => ⟨rfl, rfl, rfl, rfl, rfl, rfl, rfl, rfl⟩
  | .conv, _ => rfl
  | .meters, _ => ⟨rfl, rfl, rfl, rfl⟩
  | .meterKeys, _ => rfl
  | .stdRecs, _ => rfl
  | .custody, _ => ⟨rfl, rfl, rfl⟩
  | .closes, _ => ⟨rfl, rfl⟩
  | .tariffLog, _ => ⟨rfl, rfl, rfl⟩
  | .valves, _ => ⟨rfl, rfl⟩
  | .balance, _ => ⟨rfl, rfl, rfl, rfl⟩
  | .indicators, _ => ⟨rfl, rfl⟩
  | .polls, _ => rfl
  | .profiles, _ => ⟨rfl, rfl, rfl⟩
  | .quarantine, _ => rfl
  | .journal, _ => ⟨rfl, rfl⟩
  | .tariff, _ => ⟨rfl, rfl, rfl, rfl, rfl, rfl, rfl, rfl, rfl, rfl⟩
  | .ledgerWork, _ => ⟨rfl, rfl, rfl, rfl, rfl, rfl, rfl⟩
  | .ledgerStats, _ => ⟨rfl, rfl, rfl⟩
  | .plc, _ => rfl
  | .radio, _ => rfl
  | .wired, _ => rfl
  | .time, _ => rfl
  | .arch, _ => rfl
  | .pair, _ => rfl
  | .pairStore, _ => rfl
  | .fuses, _ => ⟨rfl, rfl⟩
  | .roots, _ => ⟨rfl, rfl⟩
  | .counter, _ => ⟨rfl, rfl, rfl⟩
  | .keyState, _ => ⟨rfl, rfl, rfl, rfl⟩
  | .tamper, _ => ⟨rfl, rfl, rfl, rfl, rfl, rfl, rfl, rfl, rfl, rfl, rfl, rfl, rfl⟩
  | .unlock, _ => ⟨rfl, rfl, rfl, rfl⟩
  | .keyStats, _ => rfl
  | .blocks, _ => ⟨rfl, rfl, rfl, rfl, rfl, rfl, rfl, rfl, rfl, rfl, rfl, rfl⟩
  | .checkpoint, _ => ⟨rfl, rfl, rfl, rfl, rfl, rfl, rfl⟩
  | .hostns, _ => ⟨rfl, rfl, rfl⟩
  | .backlog, _ => ⟨rfl, rfl, rfl, rfl⟩
  | .flashStats, _ => ⟨rfl, rfl, rfl, rfl, rfl, rfl⟩
  | .images, _ => ⟨rfl, rfl, rfl, rfl, rfl, rfl, rfl, rfl⟩
  | .campaigns, _ => ⟨rfl, rfl⟩
  | .health, _ => ⟨rfl, rfl, rfl⟩
  | .recorder, _ => ⟨rfl, rfl, rfl, rfl, rfl, rfl, rfl, rfl, rfl, rfl⟩
  | .recCursor, _ => ⟨rfl, rfl, rfl, rfl, rfl⟩
  | .cntSat, _ => rfl
  | .eccLog, _ => ⟨rfl, rfl, rfl⟩
  | .background, _ => ⟨rfl, rfl, rfl⟩
  | .boardRegs, _ => ⟨rfl, rfl, rfl, rfl, rfl, rfl, rfl, rfl⟩
  | .optStatus, _ => ⟨rfl, rfl⟩
  | .ethLinks, _ => ⟨rfl, rfl⟩
  | .dbgItem, _ => ⟨rfl, rfl⟩
  | .options, _ => rfl
  | .optStore, _ => rfl

theorem only_onHost {l : List Part} {f} {s : State} (hlink : Part.link ∈ l ∨ Part.link.same s (onHost f s)) (hsetup : Part.setup ∈ l ∨
    Part.setup.same s (onHost f s)) (hrings : Part.rings ∈ l ∨ Part.rings.same s (onHost f s)) (hdescs : Part.descs ∈ l ∨ Part.descs.same s (onHost
    f s)) (hdma : Part.dma ∈ l ∨ Part.dma.same s (onHost f s)) (hsteer : Part.steer ∈ l ∨ Part.steer.same s (onHost f s)) (hbufs : Part.bufs ∈ l ∨
    Part.bufs.same s (onHost f s)) (hevents : Part.events ∈ l ∨ Part.events.same s (onHost f s)) (hmsix : Part.msix ∈ l ∨ Part.msix.same s (onHost
    f s)) :
    OnlyParts l s (onHost f s) := fun p hp =>
  match p, hp with
  | .pending, _ => rfl
  | .free, _ => rfl
  | .out, _ => rfl
  | .now, _ => rfl
  | .lanes, _ => rfl
  | .sound, _ => ⟨rfl, rfl, rfl, rfl, rfl⟩
  | .dram, _ => ⟨rfl, rfl⟩
  | .eccCounts, _ => ⟨rfl, rfl, rfl⟩
  | .islands, _ => rfl
  | .power, _ => rfl
  | .resets, _ => ⟨rfl, rfl, rfl, rfl, rfl, rfl, rfl, rfl⟩
  | .startUp, _ => ⟨rfl, rfl, rfl, rfl, rfl, rfl, rfl, rfl, rfl, rfl, rfl⟩
  | .counts, _ => ⟨rfl, rfl, rfl⟩
  | .backup, _ => rfl
  | .lagoon, _ => ⟨rfl, rfl, rfl⟩
  | .episodes, _ => ⟨rfl, rfl, rfl, rfl⟩
  | .coldFlags, _ => ⟨rfl, rfl, rfl⟩
  | .link, hp => hlink.resolve_left hp
  | .setup, hp => hsetup.resolve_left hp
  | .rings, hp => hrings.resolve_left hp
  | .descs, hp => hdescs.resolve_left hp
  | .dma, hp => hdma.resolve_left hp
  | .steer, hp => hsteer.resolve_left hp
  | .bufs, hp => hbufs.resolve_left hp
  | .events, hp => hevents.resolve_left hp
  | .msix, hp => hmsix.resolve_left hp
  | .table, _ => rfl
  | .sched, _ => rfl
  | .queues, _ => ⟨rfl, rfl⟩
  | .intake, _ => ⟨rfl, rfl, rfl, rfl, rfl, rfl, rfl, rfl⟩
  | .conv, _ => rfl
  | .meters, _ => ⟨rfl, rfl, rfl, rfl⟩
  | .meterKeys, _ => rfl
  | .stdRecs, _ => rfl
  | .custody, _ => ⟨rfl, rfl, rfl⟩
  | .closes, _ => ⟨rfl, rfl⟩
  | .tariffLog, _ => ⟨rfl, rfl, rfl⟩
  | .valves, _ => ⟨rfl, rfl⟩
  | .balance, _ => ⟨rfl, rfl, rfl, rfl⟩
  | .indicators, _ => ⟨rfl, rfl⟩
  | .polls, _ => rfl
  | .profiles, _ => ⟨rfl, rfl, rfl⟩
  | .quarantine, _ => rfl
  | .journal, _ => ⟨rfl, rfl⟩
  | .tariff, _ => ⟨rfl, rfl, rfl, rfl, rfl, rfl, rfl, rfl, rfl, rfl⟩
  | .ledgerWork, _ => ⟨rfl, rfl, rfl, rfl, rfl, rfl, rfl⟩
  | .ledgerStats, _ => ⟨rfl, rfl, rfl⟩
  | .plc, _ => rfl
  | .radio, _ => rfl
  | .wired, _ => rfl
  | .time, _ => rfl
  | .arch, _ => rfl
  | .pair, _ => rfl
  | .pairStore, _ => rfl
  | .fuses, _ => ⟨rfl, rfl⟩
  | .roots, _ => ⟨rfl, rfl⟩
  | .counter, _ => ⟨rfl, rfl, rfl⟩
  | .keyState, _ => ⟨rfl, rfl, rfl, rfl⟩
  | .tamper, _ => ⟨rfl, rfl, rfl, rfl, rfl, rfl, rfl, rfl, rfl, rfl, rfl, rfl, rfl⟩
  | .unlock, _ => ⟨rfl, rfl, rfl, rfl⟩
  | .keyStats, _ => rfl
  | .blocks, _ => ⟨rfl, rfl, rfl, rfl, rfl, rfl, rfl, rfl, rfl, rfl, rfl, rfl⟩
  | .checkpoint, _ => ⟨rfl, rfl, rfl, rfl, rfl, rfl, rfl⟩
  | .hostns, _ => ⟨rfl, rfl, rfl⟩
  | .backlog, _ => ⟨rfl, rfl, rfl, rfl⟩
  | .flashStats, _ => ⟨rfl, rfl, rfl, rfl, rfl, rfl⟩
  | .images, _ => ⟨rfl, rfl, rfl, rfl, rfl, rfl, rfl, rfl⟩
  | .campaigns, _ => ⟨rfl, rfl⟩
  | .health, _ => ⟨rfl, rfl, rfl⟩
  | .recorder, _ => ⟨rfl, rfl, rfl, rfl, rfl, rfl, rfl, rfl, rfl, rfl⟩
  | .recCursor, _ => ⟨rfl, rfl, rfl, rfl, rfl⟩
  | .cntSat, _ => rfl
  | .eccLog, _ => ⟨rfl, rfl, rfl⟩
  | .background, _ => ⟨rfl, rfl, rfl⟩
  | .boardRegs, _ => ⟨rfl, rfl, rfl, rfl, rfl, rfl, rfl, rfl⟩
  | .optStatus, _ => ⟨rfl, rfl⟩
  | .ethLinks, _ => ⟨rfl, rfl⟩
  | .dbgItem, _ => ⟨rfl, rfl⟩
  | .options, _ => rfl
  | .optStore, _ => rfl

theorem only_onTbl {l : List Part} {f} {s : State} (htable : Part.table ∈ l) :
    OnlyParts l s (onTbl f s) := fun p hp =>
  match p, hp with
  | .pending, _ => rfl
  | .free, _ => rfl
  | .out, _ => rfl
  | .now, _ => rfl
  | .lanes, _ => rfl
  | .sound, _ => ⟨rfl, rfl, rfl, rfl, rfl⟩
  | .dram, _ => ⟨rfl, rfl⟩
  | .eccCounts, _ => ⟨rfl, rfl, rfl⟩
  | .islands, _ => rfl
  | .power, _ => rfl
  | .resets, _ => ⟨rfl, rfl, rfl, rfl, rfl, rfl, rfl, rfl⟩
  | .startUp, _ => ⟨rfl, rfl, rfl, rfl, rfl, rfl, rfl, rfl, rfl, rfl, rfl⟩
  | .counts, _ => ⟨rfl, rfl, rfl⟩
  | .backup, _ => rfl
  | .lagoon, _ => ⟨rfl, rfl, rfl⟩
  | .episodes, _ => ⟨rfl, rfl, rfl, rfl⟩
  | .coldFlags, _ => ⟨rfl, rfl, rfl⟩
  | .link, _ => ⟨rfl, rfl, rfl, rfl, rfl, rfl, rfl, rfl, rfl, rfl⟩
  | .setup, _ => ⟨rfl, rfl⟩
  | .rings, _ => ⟨rfl, rfl⟩
  | .descs, _ => ⟨rfl, rfl⟩
  | .dma, _ => ⟨rfl, rfl, rfl⟩
  | .steer, _ => rfl
  | .bufs, _ => rfl
  | .events, _ => ⟨rfl, rfl, rfl, rfl, rfl, rfl⟩
  | .msix, _ => ⟨rfl, rfl, rfl, rfl, rfl⟩
  | .table, hp => absurd htable hp
  | .sched, _ => rfl
  | .queues, _ => ⟨rfl, rfl⟩
  | .intake, _ => ⟨rfl, rfl, rfl, rfl, rfl, rfl, rfl, rfl⟩
  | .conv, _ => rfl
  | .meters, _ => ⟨rfl, rfl, rfl, rfl⟩
  | .meterKeys, _ => rfl
  | .stdRecs, _ => rfl
  | .custody, _ => ⟨rfl, rfl, rfl⟩
  | .closes, _ => ⟨rfl, rfl⟩
  | .tariffLog, _ => ⟨rfl, rfl, rfl⟩
  | .valves, _ => ⟨rfl, rfl⟩
  | .balance, _ => ⟨rfl, rfl, rfl, rfl⟩
  | .indicators, _ => ⟨rfl, rfl⟩
  | .polls, _ => rfl
  | .profiles, _ => ⟨rfl, rfl, rfl⟩
  | .quarantine, _ => rfl
  | .journal, _ => ⟨rfl, rfl⟩
  | .tariff, _ => ⟨rfl, rfl, rfl, rfl, rfl, rfl, rfl, rfl, rfl, rfl⟩
  | .ledgerWork, _ => ⟨rfl, rfl, rfl, rfl, rfl, rfl, rfl⟩
  | .ledgerStats, _ => ⟨rfl, rfl, rfl⟩
  | .plc, _ => rfl
  | .radio, _ => rfl
  | .wired, _ => rfl
  | .time, _ => rfl
  | .arch, _ => rfl
  | .pair, _ => rfl
  | .pairStore, _ => rfl
  | .fuses, _ => ⟨rfl, rfl⟩
  | .roots, _ => ⟨rfl, rfl⟩
  | .counter, _ => ⟨rfl, rfl, rfl⟩
  | .keyState, _ => ⟨rfl, rfl, rfl, rfl⟩
  | .tamper, _ => ⟨rfl, rfl, rfl, rfl, rfl, rfl, rfl, rfl, rfl, rfl, rfl, rfl, rfl⟩
  | .unlock, _ => ⟨rfl, rfl, rfl, rfl⟩
  | .keyStats, _ => rfl
  | .blocks, _ => ⟨rfl, rfl, rfl, rfl, rfl, rfl, rfl, rfl, rfl, rfl, rfl, rfl⟩
  | .checkpoint, _ => ⟨rfl, rfl, rfl, rfl, rfl, rfl, rfl⟩
  | .hostns, _ => ⟨rfl, rfl, rfl⟩
  | .backlog, _ => ⟨rfl, rfl, rfl, rfl⟩
  | .flashStats, _ => ⟨rfl, rfl, rfl, rfl, rfl, rfl⟩
  | .images, _ => ⟨rfl, rfl, rfl, rfl, rfl, rfl, rfl, rfl⟩
  | .campaigns, _ => ⟨rfl, rfl⟩
  | .health, _ => ⟨rfl, rfl, rfl⟩
  | .recorder, _ => ⟨rfl, rfl, rfl, rfl, rfl, rfl, rfl, rfl, rfl, rfl⟩
  | .recCursor, _ => ⟨rfl, rfl, rfl, rfl, rfl⟩
  | .cntSat, _ => rfl
  | .eccLog, _ => ⟨rfl, rfl, rfl⟩
  | .background, _ => ⟨rfl, rfl, rfl⟩
  | .boardRegs, _ => ⟨rfl, rfl, rfl, rfl, rfl, rfl, rfl, rfl⟩
  | .optStatus, _ => ⟨rfl, rfl⟩
  | .ethLinks, _ => ⟨rfl, rfl⟩
  | .dbgItem, _ => ⟨rfl, rfl⟩
  | .options, _ => rfl
  | .optStore, _ => rfl

theorem only_onSch {l : List Part} {f} {s : State} (hsched : Part.sched ∈ l) :
    OnlyParts l s (onSch f s) := fun p hp =>
  match p, hp with
  | .pending, _ => rfl
  | .free, _ => rfl
  | .out, _ => rfl
  | .now, _ => rfl
  | .lanes, _ => rfl
  | .sound, _ => ⟨rfl, rfl, rfl, rfl, rfl⟩
  | .dram, _ => ⟨rfl, rfl⟩
  | .eccCounts, _ => ⟨rfl, rfl, rfl⟩
  | .islands, _ => rfl
  | .power, _ => rfl
  | .resets, _ => ⟨rfl, rfl, rfl, rfl, rfl, rfl, rfl, rfl⟩
  | .startUp, _ => ⟨rfl, rfl, rfl, rfl, rfl, rfl, rfl, rfl, rfl, rfl, rfl⟩
  | .counts, _ => ⟨rfl, rfl, rfl⟩
  | .backup, _ => rfl
  | .lagoon, _ => ⟨rfl, rfl, rfl⟩
  | .episodes, _ => ⟨rfl, rfl, rfl, rfl⟩
  | .coldFlags, _ => ⟨rfl, rfl, rfl⟩
  | .link, _ => ⟨rfl, rfl, rfl, rfl, rfl, rfl, rfl, rfl, rfl, rfl⟩
  | .setup, _ => ⟨rfl, rfl⟩
  | .rings, _ => ⟨rfl, rfl⟩
  | .descs, _ => ⟨rfl, rfl⟩
  | .dma, _ => ⟨rfl, rfl, rfl⟩
  | .steer, _ => rfl
  | .bufs, _ => rfl
  | .events, _ => ⟨rfl, rfl, rfl, rfl, rfl, rfl⟩
  | .msix, _ => ⟨rfl, rfl, rfl, rfl, rfl⟩
  | .table, _ => rfl
  | .sched, hp => absurd hsched hp
  | .queues, _ => ⟨rfl, rfl⟩
  | .intake, _ => ⟨rfl, rfl, rfl, rfl, rfl, rfl, rfl, rfl⟩
  | .conv, _ => rfl
  | .meters, _ => ⟨rfl, rfl, rfl, rfl⟩
  | .meterKeys, _ => rfl
  | .stdRecs, _ => rfl
  | .custody, _ => ⟨rfl, rfl, rfl⟩
  | .closes, _ => ⟨rfl, rfl⟩
  | .tariffLog, _ => ⟨rfl, rfl, rfl⟩
  | .valves, _ => ⟨rfl, rfl⟩
  | .balance, _ => ⟨rfl, rfl, rfl, rfl⟩
  | .indicators, _ => ⟨rfl, rfl⟩
  | .polls, _ => rfl
  | .profiles, _ => ⟨rfl, rfl, rfl⟩
  | .quarantine, _ => rfl
  | .journal, _ => ⟨rfl, rfl⟩
  | .tariff, _ => ⟨rfl, rfl, rfl, rfl, rfl, rfl, rfl, rfl, rfl, rfl⟩
  | .ledgerWork, _ => ⟨rfl, rfl, rfl, rfl, rfl, rfl, rfl⟩
  | .ledgerStats, _ => ⟨rfl, rfl, rfl⟩
  | .plc, _ => rfl
  | .radio, _ => rfl
  | .wired, _ => rfl
  | .time, _ => rfl
  | .arch, _ => rfl
  | .pair, _ => rfl
  | .pairStore, _ => rfl
  | .fuses, _ => ⟨rfl, rfl⟩
  | .roots, _ => ⟨rfl, rfl⟩
  | .counter, _ => ⟨rfl, rfl, rfl⟩
  | .keyState, _ => ⟨rfl, rfl, rfl, rfl⟩
  | .tamper, _ => ⟨rfl, rfl, rfl, rfl, rfl, rfl, rfl, rfl, rfl, rfl, rfl, rfl, rfl⟩
  | .unlock, _ => ⟨rfl, rfl, rfl, rfl⟩
  | .keyStats, _ => rfl
  | .blocks, _ => ⟨rfl, rfl, rfl, rfl, rfl, rfl, rfl, rfl, rfl, rfl, rfl, rfl⟩
  | .checkpoint, _ => ⟨rfl, rfl, rfl, rfl, rfl, rfl, rfl⟩
  | .hostns, _ => ⟨rfl, rfl, rfl⟩
  | .backlog, _ => ⟨rfl, rfl, rfl, rfl⟩
  | .flashStats, _ => ⟨rfl, rfl, rfl, rfl, rfl, rfl⟩
  | .images, _ => ⟨rfl, rfl, rfl, rfl, rfl, rfl, rfl, rfl⟩
  | .campaigns, _ => ⟨rfl, rfl⟩
  | .health, _ => ⟨rfl, rfl, rfl⟩
  | .recorder, _ => ⟨rfl, rfl, rfl, rfl, rfl, rfl, rfl, rfl, rfl, rfl⟩
  | .recCursor, _ => ⟨rfl, rfl, rfl, rfl, rfl⟩
  | .cntSat, _ => rfl
  | .eccLog, _ => ⟨rfl, rfl, rfl⟩
  | .background, _ => ⟨rfl, rfl, rfl⟩
  | .boardRegs, _ => ⟨rfl, rfl, rfl, rfl, rfl, rfl, rfl, rfl⟩
  | .optStatus, _ => ⟨rfl, rfl⟩
  | .ethLinks, _ => ⟨rfl, rfl⟩
  | .dbgItem, _ => ⟨rfl, rfl⟩
  | .options, _ => rfl
  | .optStore, _ => rfl

theorem only_onIk {l : List Part} {f} {s : State} (hqueues : Part.queues ∈ l ∨ Part.queues.same s (onIk f s)) (hintake : Part.intake ∈ l ∨
    Part.intake.same s (onIk f s)) :
    OnlyParts l s (onIk f s) := fun p hp =>
  match p, hp with
  | .pending, _ => rfl
  | .free, _ => rfl
  | .out, _ => rfl
  | .now, _ => rfl
  | .lanes, _ => rfl
  | .sound, _ => ⟨rfl, rfl, rfl, rfl, rfl⟩
  | .dram, _ => ⟨rfl, rfl⟩
  | .eccCounts, _ => ⟨rfl, rfl, rfl⟩
  | .islands, _ => rfl
  | .power, _ => rfl
  | .resets, _ => ⟨rfl, rfl, rfl, rfl, rfl, rfl, rfl, rfl⟩
  | .startUp, _ => ⟨rfl, rfl, rfl, rfl, rfl, rfl, rfl, rfl, rfl, rfl, rfl⟩
  | .counts, _ => ⟨rfl, rfl, rfl⟩
  | .backup, _ => rfl
  | .lagoon, _ => ⟨rfl, rfl, rfl⟩
  | .episodes, _ => ⟨rfl, rfl, rfl, rfl⟩
  | .coldFlags, _ => ⟨rfl, rfl, rfl⟩
  | .link, _ => ⟨rfl, rfl, rfl, rfl, rfl, rfl, rfl, rfl, rfl, rfl⟩
  | .setup, _ => ⟨rfl, rfl⟩
  | .rings, _ => ⟨rfl, rfl⟩
  | .descs, _ => ⟨rfl, rfl⟩
  | .dma, _ => ⟨rfl, rfl, rfl⟩
  | .steer, _ => rfl
  | .bufs, _ => rfl
  | .events, _ => ⟨rfl, rfl, rfl, rfl, rfl, rfl⟩
  | .msix, _ => ⟨rfl, rfl, rfl, rfl, rfl⟩
  | .table, _ => rfl
  | .sched, _ => rfl
  | .queues, hp => hqueues.resolve_left hp
  | .intake, hp => hintake.resolve_left hp
  | .conv, _ => rfl
  | .meters, _ => ⟨rfl, rfl, rfl, rfl⟩
  | .meterKeys, _ => rfl
  | .stdRecs, _ => rfl
  | .custody, _ => ⟨rfl, rfl, rfl⟩
  | .closes, _ => ⟨rfl, rfl⟩
  | .tariffLog, _ => ⟨rfl, rfl, rfl⟩
  | .valves, _ => ⟨rfl, rfl⟩
  | .balance, _ => ⟨rfl, rfl, rfl, rfl⟩
  | .indicators, _ => ⟨rfl, rfl⟩
  | .polls, _ => rfl
  | .profiles, _ => ⟨rfl, rfl, rfl⟩
  | .quarantine, _ => rfl
  | .journal, _ => ⟨rfl, rfl⟩
  | .tariff, _ => ⟨rfl, rfl, rfl, rfl, rfl, rfl, rfl, rfl, rfl, rfl⟩
  | .ledgerWork, _ => ⟨rfl, rfl, rfl, rfl, rfl, rfl, rfl⟩
  | .ledgerStats, _ => ⟨rfl, rfl, rfl⟩
  | .plc, _ => rfl
  | .radio, _ => rfl
  | .wired, _ => rfl
  | .time, _ => rfl
  | .arch, _ => rfl
  | .pair, _ => rfl
  | .pairStore, _ => rfl
  | .fuses, _ => ⟨rfl, rfl⟩
  | .roots, _ => ⟨rfl, rfl⟩
  | .counter, _ => ⟨rfl, rfl, rfl⟩
  | .keyState, _ => ⟨rfl, rfl, rfl, rfl⟩
  | .tamper, _ => ⟨rfl, rfl, rfl, rfl, rfl, rfl, rfl, rfl, rfl, rfl, rfl, rfl, rfl⟩
  | .unlock, _ => ⟨rfl, rfl, rfl, rfl⟩
  | .keyStats, _ => rfl
  | .blocks, _ => ⟨rfl, rfl, rfl, rfl, rfl, rfl, rfl, rfl, rfl, rfl, rfl, rfl⟩
  | .checkpoint, _ => ⟨rfl, rfl, rfl, rfl, rfl, rfl, rfl⟩
  | .hostns, _ => ⟨rfl, rfl, rfl⟩
  | .backlog, _ => ⟨rfl, rfl, rfl, rfl⟩
  | .flashStats, _ => ⟨rfl, rfl, rfl, rfl, rfl, rfl⟩
  | .images, _ => ⟨rfl, rfl, rfl, rfl, rfl, rfl, rfl, rfl⟩
  | .campaigns, _ => ⟨rfl, rfl⟩
  | .health, _ => ⟨rfl, rfl, rfl⟩
  | .recorder, _ => ⟨rfl, rfl, rfl, rfl, rfl, rfl, rfl, rfl, rfl, rfl⟩
  | .recCursor, _ => ⟨rfl, rfl, rfl, rfl, rfl⟩
  | .cntSat, _ => rfl
  | .eccLog, _ => ⟨rfl, rfl, rfl⟩
  | .background, _ => ⟨rfl, rfl, rfl⟩
  | .boardRegs, _ => ⟨rfl, rfl, rfl, rfl, rfl, rfl, rfl, rfl⟩
  | .optStatus, _ => ⟨rfl, rfl⟩
  | .ethLinks, _ => ⟨rfl, rfl⟩
  | .dbgItem, _ => ⟨rfl, rfl⟩
  | .options, _ => rfl
  | .optStore, _ => rfl

theorem only_onCv {l : List Part} {f} {s : State} (hconv : Part.conv ∈ l) :
    OnlyParts l s (onCv f s) := fun p hp =>
  match p, hp with
  | .pending, _ => rfl
  | .free, _ => rfl
  | .out, _ => rfl
  | .now, _ => rfl
  | .lanes, _ => rfl
  | .sound, _ => ⟨rfl, rfl, rfl, rfl, rfl⟩
  | .dram, _ => ⟨rfl, rfl⟩
  | .eccCounts, _ => ⟨rfl, rfl, rfl⟩
  | .islands, _ => rfl
  | .power, _ => rfl
  | .resets, _ => ⟨rfl, rfl, rfl, rfl, rfl, rfl, rfl, rfl⟩
  | .startUp, _ => ⟨rfl, rfl, rfl, rfl, rfl, rfl, rfl, rfl, rfl, rfl, rfl⟩
  | .counts, _ => ⟨rfl, rfl, rfl⟩
  | .backup, _ => rfl
  | .lagoon, _ => ⟨rfl, rfl, rfl⟩
  | .episodes, _ => ⟨rfl, rfl, rfl, rfl⟩
  | .coldFlags, _ => ⟨rfl, rfl, rfl⟩
  | .link, _ => ⟨rfl, rfl, rfl, rfl, rfl, rfl, rfl, rfl, rfl, rfl⟩
  | .setup, _ => ⟨rfl, rfl⟩
  | .rings, _ => ⟨rfl, rfl⟩
  | .descs, _ => ⟨rfl, rfl⟩
  | .dma, _ => ⟨rfl, rfl, rfl⟩
  | .steer, _ => rfl
  | .bufs, _ => rfl
  | .events, _ => ⟨rfl, rfl, rfl, rfl, rfl, rfl⟩
  | .msix, _ => ⟨rfl, rfl, rfl, rfl, rfl⟩
  | .table, _ => rfl
  | .sched, _ => rfl
  | .queues, _ => ⟨rfl, rfl⟩
  | .intake, _ => ⟨rfl, rfl, rfl, rfl, rfl, rfl, rfl, rfl⟩
  | .conv, hp => absurd hconv hp
  | .meters, _ => ⟨rfl, rfl, rfl, rfl⟩
  | .meterKeys, _ => rfl
  | .stdRecs, _ => rfl
  | .custody, _ => ⟨rfl, rfl, rfl⟩
  | .closes, _ => ⟨rfl, rfl⟩
  | .tariffLog, _ => ⟨rfl, rfl, rfl⟩
  | .valves, _ => ⟨rfl, rfl⟩
  | .balance, _ => ⟨rfl, rfl, rfl, rfl⟩
  | .indicators, _ => ⟨rfl, rfl⟩
  | .polls, _ => rfl
  | .profiles, _ => ⟨rfl, rfl, rfl⟩
  | .quarantine, _ => rfl
  | .journal, _ => ⟨rfl, rfl⟩
  | .tariff, _ => ⟨rfl, rfl, rfl, rfl, rfl, rfl, rfl, rfl, rfl, rfl⟩
  | .ledgerWork, _ => ⟨rfl, rfl, rfl, rfl, rfl, rfl, rfl⟩
  | .ledgerStats, _ => ⟨rfl, rfl, rfl⟩
  | .plc, _ => rfl
  | .radio, _ => rfl
  | .wired, _ => rfl
  | .time, _ => rfl
  | .arch, _ => rfl
  | .pair, _ => rfl
  | .pairStore, _ => rfl
  | .fuses, _ => ⟨rfl, rfl⟩
  | .roots, _ => ⟨rfl, rfl⟩
  | .counter, _ => ⟨rfl, rfl, rfl⟩
  | .keyState, _ => ⟨rfl, rfl, rfl, rfl⟩
  | .tamper, _ => ⟨rfl, rfl, rfl, rfl, rfl, rfl, rfl, rfl, rfl, rfl, rfl, rfl, rfl⟩
  | .unlock, _ => ⟨rfl, rfl, rfl, rfl⟩
  | .keyStats, _ => rfl
  | .blocks, _ => ⟨rfl, rfl, rfl, rfl, rfl, rfl, rfl, rfl, rfl, rfl, rfl, rfl⟩
  | .checkpoint, _ => ⟨rfl, rfl, rfl, rfl, rfl, rfl, rfl⟩
  | .hostns, _ => ⟨rfl, rfl, rfl⟩
  | .backlog, _ => ⟨rfl, rfl, rfl, rfl⟩
  | .flashStats, _ => ⟨rfl, rfl, rfl, rfl, rfl, rfl⟩
  | .images, _ => ⟨rfl, rfl, rfl, rfl, rfl, rfl, rfl, rfl⟩
  | .campaigns, _ => ⟨rfl, rfl⟩
  | .health, _ => ⟨rfl, rfl, rfl⟩
  | .recorder, _ => ⟨rfl, rfl, rfl, rfl, rfl, rfl, rfl, rfl, rfl, rfl⟩
  | .recCursor, _ => ⟨rfl, rfl, rfl, rfl, rfl⟩
  | .cntSat, _ => rfl
  | .eccLog, _ => ⟨rfl, rfl, rfl⟩
  | .background, _ => ⟨rfl, rfl, rfl⟩
  | .boardRegs, _ => ⟨rfl, rfl, rfl, rfl, rfl, rfl, rfl, rfl⟩
  | .optStatus, _ => ⟨rfl, rfl⟩
  | .ethLinks, _ => ⟨rfl, rfl⟩
  | .dbgItem, _ => ⟨rfl, rfl⟩
  | .options, _ => rfl
  | .optStore, _ => rfl

theorem only_onDb {l : List Part} {f} {s : State} (hmeters : Part.meters ∈ l ∨ Part.meters.same s (onDb f s)) (hmeterKeys : Part.meterKeys ∈ l ∨
    Part.meterKeys.same s (onDb f s)) (hstdRecs : Part.stdRecs ∈ l ∨ Part.stdRecs.same s (onDb f s)) (hcustody : Part.custody ∈ l ∨
    Part.custody.same s (onDb f s)) (hcloses : Part.closes ∈ l ∨ Part.closes.same s (onDb f s)) (htariffLog : Part.tariffLog ∈ l ∨
    Part.tariffLog.same s (onDb f s)) (hvalves : Part.valves ∈ l ∨ Part.valves.same s (onDb f s)) (hbalance : Part.balance ∈ l ∨ Part.balance.same
    s (onDb f s)) (hindicators : Part.indicators ∈ l ∨ Part.indicators.same s (onDb f s)) (hpolls : Part.polls ∈ l ∨ Part.polls.same s (onDb f s))
    (hprofiles : Part.profiles ∈ l ∨ Part.profiles.same s (onDb f s)) (hquarantine : Part.quarantine ∈ l ∨ Part.quarantine.same s (onDb f s))
    (hjournal : Part.journal ∈ l ∨ Part.journal.same s (onDb f s)) :
    OnlyParts l s (onDb f s) := fun p hp =>
  match p, hp with
  | .pending, _ => rfl
  | .free, _ => rfl
  | .out, _ => rfl
  | .now, _ => rfl
  | .lanes, _ => rfl
  | .sound, _ => ⟨rfl, rfl, rfl, rfl, rfl⟩
  | .dram, _ => ⟨rfl, rfl⟩
  | .eccCounts, _ => ⟨rfl, rfl, rfl⟩
  | .islands, _ => rfl
  | .power, _ => rfl
  | .resets, _ => ⟨rfl, rfl, rfl, rfl, rfl, rfl, rfl, rfl⟩
  | .startUp, _ => ⟨rfl, rfl, rfl, rfl, rfl, rfl, rfl, rfl, rfl, rfl, rfl⟩
  | .counts, _ => ⟨rfl, rfl, rfl⟩
  | .backup, _ => rfl
  | .lagoon, _ => ⟨rfl, rfl, rfl⟩
  | .episodes, _ => ⟨rfl, rfl, rfl, rfl⟩
  | .coldFlags, _ => ⟨rfl, rfl, rfl⟩
  | .link, _ => ⟨rfl, rfl, rfl, rfl, rfl, rfl, rfl, rfl, rfl, rfl⟩
  | .setup, _ => ⟨rfl, rfl⟩
  | .rings, _ => ⟨rfl, rfl⟩
  | .descs, _ => ⟨rfl, rfl⟩
  | .dma, _ => ⟨rfl, rfl, rfl⟩
  | .steer, _ => rfl
  | .bufs, _ => rfl
  | .events, _ => ⟨rfl, rfl, rfl, rfl, rfl, rfl⟩
  | .msix, _ => ⟨rfl, rfl, rfl, rfl, rfl⟩
  | .table, _ => rfl
  | .sched, _ => rfl
  | .queues, _ => ⟨rfl, rfl⟩
  | .intake, _ => ⟨rfl, rfl, rfl, rfl, rfl, rfl, rfl, rfl⟩
  | .conv, _ => rfl
  | .meters, hp => hmeters.resolve_left hp
  | .meterKeys, hp => hmeterKeys.resolve_left hp
  | .stdRecs, hp => hstdRecs.resolve_left hp
  | .custody, hp => hcustody.resolve_left hp
  | .closes, hp => hcloses.resolve_left hp
  | .tariffLog, hp => htariffLog.resolve_left hp
  | .valves, hp => hvalves.resolve_left hp
  | .balance, hp => hbalance.resolve_left hp
  | .indicators, hp => hindicators.resolve_left hp
  | .polls, hp => hpolls.resolve_left hp
  | .profiles, hp => hprofiles.resolve_left hp
  | .quarantine, hp => hquarantine.resolve_left hp
  | .journal, hp => hjournal.resolve_left hp
  | .tariff, _ => ⟨rfl, rfl, rfl, rfl, rfl, rfl, rfl, rfl, rfl, rfl⟩
  | .ledgerWork, _ => ⟨rfl, rfl, rfl, rfl, rfl, rfl, rfl⟩
  | .ledgerStats, _ => ⟨rfl, rfl, rfl⟩
  | .plc, _ => rfl
  | .radio, _ => rfl
  | .wired, _ => rfl
  | .time, _ => rfl
  | .arch, _ => rfl
  | .pair, _ => rfl
  | .pairStore, _ => rfl
  | .fuses, _ => ⟨rfl, rfl⟩
  | .roots, _ => ⟨rfl, rfl⟩
  | .counter, _ => ⟨rfl, rfl, rfl⟩
  | .keyState, _ => ⟨rfl, rfl, rfl, rfl⟩
  | .tamper, _ => ⟨rfl, rfl, rfl, rfl, rfl, rfl, rfl, rfl, rfl, rfl, rfl, rfl, rfl⟩
  | .unlock, _ => ⟨rfl, rfl, rfl, rfl⟩
  | .keyStats, _ => rfl
  | .blocks, _ => ⟨rfl, rfl, rfl, rfl, rfl, rfl, rfl, rfl, rfl, rfl, rfl, rfl⟩
  | .checkpoint, _ => ⟨rfl, rfl, rfl, rfl, rfl, rfl, rfl⟩
  | .hostns, _ => ⟨rfl, rfl, rfl⟩
  | .backlog, _ => ⟨rfl, rfl, rfl, rfl⟩
  | .flashStats, _ => ⟨rfl, rfl, rfl, rfl, rfl, rfl⟩
  | .images, _ => ⟨rfl, rfl, rfl, rfl, rfl, rfl, rfl, rfl⟩
  | .campaigns, _ => ⟨rfl, rfl⟩
  | .health, _ => ⟨rfl, rfl, rfl⟩
  | .recorder, _ => ⟨rfl, rfl, rfl, rfl, rfl, rfl, rfl, rfl, rfl, rfl⟩
  | .recCursor, _ => ⟨rfl, rfl, rfl, rfl, rfl⟩
  | .cntSat, _ => rfl
  | .eccLog, _ => ⟨rfl, rfl, rfl⟩
  | .background, _ => ⟨rfl, rfl, rfl⟩
  | .boardRegs, _ => ⟨rfl, rfl, rfl, rfl, rfl, rfl, rfl, rfl⟩
  | .optStatus, _ => ⟨rfl, rfl⟩
  | .ethLinks, _ => ⟨rfl, rfl⟩
  | .dbgItem, _ => ⟨rfl, rfl⟩
  | .options, _ => rfl
  | .optStore, _ => rfl

theorem only_onJr {l : List Part} {f} {s : State} (hjournal : Part.journal ∈ l ∨ Part.journal.same s (onJr f s)) :
    OnlyParts l s (onJr f s) := fun p hp =>
  match p, hp with
  | .pending, _ => rfl
  | .free, _ => rfl
  | .out, _ => rfl
  | .now, _ => rfl
  | .lanes, _ => rfl
  | .sound, _ => ⟨rfl, rfl, rfl, rfl, rfl⟩
  | .dram, _ => ⟨rfl, rfl⟩
  | .eccCounts, _ => ⟨rfl, rfl, rfl⟩
  | .islands, _ => rfl
  | .power, _ => rfl
  | .resets, _ => ⟨rfl, rfl, rfl, rfl, rfl, rfl, rfl, rfl⟩
  | .startUp, _ => ⟨rfl, rfl, rfl, rfl, rfl, rfl, rfl, rfl, rfl, rfl, rfl⟩
  | .counts, _ => ⟨rfl, rfl, rfl⟩
  | .backup, _ => rfl
  | .lagoon, _ => ⟨rfl, rfl, rfl⟩
  | .episodes, _ => ⟨rfl, rfl, rfl, rfl⟩
  | .coldFlags, _ => ⟨rfl, rfl, rfl⟩
  | .link, _ => ⟨rfl, rfl, rfl, rfl, rfl, rfl, rfl, rfl, rfl, rfl⟩
  | .setup, _ => ⟨rfl, rfl⟩
  | .rings, _ => ⟨rfl, rfl⟩
  | .descs, _ => ⟨rfl, rfl⟩
  | .dma, _ => ⟨rfl, rfl, rfl⟩
  | .steer, _ => rfl
  | .bufs, _ => rfl
  | .events, _ => ⟨rfl, rfl, rfl, rfl, rfl, rfl⟩
  | .msix, _ => ⟨rfl, rfl, rfl, rfl, rfl⟩
  | .table, _ => rfl
  | .sched, _ => rfl
  | .queues, _ => ⟨rfl, rfl⟩
  | .intake, _ => ⟨rfl, rfl, rfl, rfl, rfl, rfl, rfl, rfl⟩
  | .conv, _ => rfl
  | .meters, _ => ⟨rfl, rfl, rfl, rfl⟩
  | .meterKeys, _ => rfl
  | .stdRecs, _ => rfl
  | .custody, _ => ⟨rfl, rfl, rfl⟩
  | .closes, _ => ⟨rfl, rfl⟩
  | .tariffLog, _ => ⟨rfl, rfl, rfl⟩
  | .valves, _ => ⟨rfl, rfl⟩
  | .balance, _ => ⟨rfl, rfl, rfl, rfl⟩
  | .indicators, _ => ⟨rfl, rfl⟩
  | .polls, _ => rfl
  | .profiles, _ => ⟨rfl, rfl, rfl⟩
  | .quarantine, _ => rfl
  | .journal, hp => hjournal.resolve_left hp
  | .tariff, _ => ⟨rfl, rfl, rfl, rfl, rfl, rfl, rfl, rfl, rfl, rfl⟩
  | .ledgerWork, _ => ⟨rfl, rfl, rfl, rfl, rfl, rfl, rfl⟩
  | .ledgerStats, _ => ⟨rfl, rfl, rfl⟩
  | .plc, _ => rfl
  | .radio, _ => rfl
  | .wired, _ => rfl
  | .time, _ => rfl
  | .arch, _ => rfl
  | .pair, _ => rfl
  | .pairStore, _ => rfl
  | .fuses, _ => ⟨rfl, rfl⟩
  | .roots, _ => ⟨rfl, rfl⟩
  | .counter, _ => ⟨rfl, rfl, rfl⟩
  | .keyState, _ => ⟨rfl, rfl, rfl, rfl⟩
  | .tamper, _ => ⟨rfl, rfl, rfl, rfl, rfl, rfl, rfl, rfl, rfl, rfl, rfl, rfl, rfl⟩
  | .unlock, _ => ⟨rfl, rfl, rfl, rfl⟩
  | .keyStats, _ => rfl
  | .blocks, _ => ⟨rfl, rfl, rfl, rfl, rfl, rfl, rfl, rfl, rfl, rfl, rfl, rfl⟩
  | .checkpoint, _ => ⟨rfl, rfl, rfl, rfl, rfl, rfl, rfl⟩
  | .hostns, _ => ⟨rfl, rfl, rfl⟩
  | .backlog, _ => ⟨rfl, rfl, rfl, rfl⟩
  | .flashStats, _ => ⟨rfl, rfl, rfl, rfl, rfl, rfl⟩
  | .images, _ => ⟨rfl, rfl, rfl, rfl, rfl, rfl, rfl, rfl⟩
  | .campaigns, _ => ⟨rfl, rfl⟩
  | .health, _ => ⟨rfl, rfl, rfl⟩
  | .recorder, _ => ⟨rfl, rfl, rfl, rfl, rfl, rfl, rfl, rfl, rfl, rfl⟩
  | .recCursor, _ => ⟨rfl, rfl, rfl, rfl, rfl⟩
  | .cntSat, _ => rfl
  | .eccLog, _ => ⟨rfl, rfl, rfl⟩
  | .background, _ => ⟨rfl, rfl, rfl⟩
  | .boardRegs, _ => ⟨rfl, rfl, rfl, rfl, rfl, rfl, rfl, rfl⟩
  | .optStatus, _ => ⟨rfl, rfl⟩
  | .ethLinks, _ => ⟨rfl, rfl⟩
  | .dbgItem, _ => ⟨rfl, rfl⟩
  | .options, _ => rfl
  | .optStore, _ => rfl

theorem only_onLg {l : List Part} {f} {s : State} (htariff : Part.tariff ∈ l ∨ Part.tariff.same s (onLg f s)) (hledgerWork : Part.ledgerWork ∈ l ∨
    Part.ledgerWork.same s (onLg f s)) (hledgerStats : Part.ledgerStats ∈ l ∨ Part.ledgerStats.same s (onLg f s)) :
    OnlyParts l s (onLg f s) := fun p hp =>
  match p, hp with
  | .pending, _ => rfl
  | .free, _ => rfl
  | .out, _ => rfl
  | .now, _ => rfl
  | .lanes, _ => rfl
  | .sound, _ => ⟨rfl, rfl, rfl, rfl, rfl⟩
  | .dram, _ => ⟨rfl, rfl⟩
  | .eccCounts, _ => ⟨rfl, rfl, rfl⟩
  | .islands, _ => rfl
  | .power, _ => rfl
  | .resets, _ => ⟨rfl, rfl, rfl, rfl, rfl, rfl, rfl, rfl⟩
  | .startUp, _ => ⟨rfl, rfl, rfl, rfl, rfl, rfl, rfl, rfl, rfl, rfl, rfl⟩
  | .counts, _ => ⟨rfl, rfl, rfl⟩
  | .backup, _ => rfl
  | .lagoon, _ => ⟨rfl, rfl, rfl⟩
  | .episodes, _ => ⟨rfl, rfl, rfl, rfl⟩
  | .coldFlags, _ => ⟨rfl, rfl, rfl⟩
  | .link, _ => ⟨rfl, rfl, rfl, rfl, rfl, rfl, rfl, rfl, rfl, rfl⟩
  | .setup, _ => ⟨rfl, rfl⟩
  | .rings, _ => ⟨rfl, rfl⟩
  | .descs, _ => ⟨rfl, rfl⟩
  | .dma, _ => ⟨rfl, rfl, rfl⟩
  | .steer, _ => rfl
  | .bufs, _ => rfl
  | .events, _ => ⟨rfl, rfl, rfl, rfl, rfl, rfl⟩
  | .msix, _ => ⟨rfl, rfl, rfl, rfl, rfl⟩
  | .table, _ => rfl
  | .sched, _ => rfl
  | .queues, _ => ⟨rfl, rfl⟩
  | .intake, _ => ⟨rfl, rfl, rfl, rfl, rfl, rfl, rfl, rfl⟩
  | .conv, _ => rfl
  | .meters, _ => ⟨rfl, rfl, rfl, rfl⟩
  | .meterKeys, _ => rfl
  | .stdRecs, _ => rfl
  | .custody, _ => ⟨rfl, rfl, rfl⟩
  | .closes, _ => ⟨rfl, rfl⟩
  | .tariffLog, _ => ⟨rfl, rfl, rfl⟩
  | .valves, _ => ⟨rfl, rfl⟩
  | .balance, _ => ⟨rfl, rfl, rfl, rfl⟩
  | .indicators, _ => ⟨rfl, rfl⟩
  | .polls, _ => rfl
  | .profiles, _ => ⟨rfl, rfl, rfl⟩
  | .quarantine, _ => rfl
  | .journal, _ => ⟨rfl, rfl⟩
  | .tariff, hp => htariff.resolve_left hp
  | .ledgerWork, hp => hledgerWork.resolve_left hp
  | .ledgerStats, hp => hledgerStats.resolve_left hp
  | .plc, _ => rfl
  | .radio, _ => rfl
  | .wired, _ => rfl
  | .time, _ => rfl
  | .arch, _ => rfl
  | .pair, _ => rfl
  | .pairStore, _ => rfl
  | .fuses, _ => ⟨rfl, rfl⟩
  | .roots, _ => ⟨rfl, rfl⟩
  | .counter, _ => ⟨rfl, rfl, rfl⟩
  | .keyState, _ => ⟨rfl, rfl, rfl, rfl⟩
  | .tamper, _ => ⟨rfl, rfl, rfl, rfl, rfl, rfl, rfl, rfl, rfl, rfl, rfl, rfl, rfl⟩
  | .unlock, _ => ⟨rfl, rfl, rfl, rfl⟩
  | .keyStats, _ => rfl
  | .blocks, _ => ⟨rfl, rfl, rfl, rfl, rfl, rfl, rfl, rfl, rfl, rfl, rfl, rfl⟩
  | .checkpoint, _ => ⟨rfl, rfl, rfl, rfl, rfl, rfl, rfl⟩
  | .hostns, _ => ⟨rfl, rfl, rfl⟩
  | .backlog, _ => ⟨rfl, rfl, rfl, rfl⟩
  | .flashStats, _ => ⟨rfl, rfl, rfl, rfl, rfl, rfl⟩
  | .images, _ => ⟨rfl, rfl, rfl, rfl, rfl, rfl, rfl, rfl⟩
  | .campaigns, _ => ⟨rfl, rfl⟩
  | .health, _ => ⟨rfl, rfl, rfl⟩
  | .recorder, _ => ⟨rfl, rfl, rfl, rfl, rfl, rfl, rfl, rfl, rfl, rfl⟩
  | .recCursor, _ => ⟨rfl, rfl, rfl, rfl, rfl⟩
  | .cntSat, _ => rfl
  | .eccLog, _ => ⟨rfl, rfl, rfl⟩
  | .background, _ => ⟨rfl, rfl, rfl⟩
  | .boardRegs, _ => ⟨rfl, rfl, rfl, rfl, rfl, rfl, rfl, rfl⟩
  | .optStatus, _ => ⟨rfl, rfl⟩
  | .ethLinks, _ => ⟨rfl, rfl⟩
  | .dbgItem, _ => ⟨rfl, rfl⟩
  | .options, _ => rfl
  | .optStore, _ => rfl

theorem only_onPlc {l : List Part} {f} {s : State} (hplc : Part.plc ∈ l) :
    OnlyParts l s (onPlc f s) := fun p hp =>
  match p, hp with
  | .pending, _ => rfl
  | .free, _ => rfl
  | .out, _ => rfl
  | .now, _ => rfl
  | .lanes, _ => rfl
  | .sound, _ => ⟨rfl, rfl, rfl, rfl, rfl⟩
  | .dram, _ => ⟨rfl, rfl⟩
  | .eccCounts, _ => ⟨rfl, rfl, rfl⟩
  | .islands, _ => rfl
  | .power, _ => rfl
  | .resets, _ => ⟨rfl, rfl, rfl, rfl, rfl, rfl, rfl, rfl⟩
  | .startUp, _ => ⟨rfl, rfl, rfl, rfl, rfl, rfl, rfl, rfl, rfl, rfl, rfl⟩
  | .counts, _ => ⟨rfl, rfl, rfl⟩
  | .backup, _ => rfl
  | .lagoon, _ => ⟨rfl, rfl, rfl⟩
  | .episodes, _ => ⟨rfl, rfl, rfl, rfl⟩
  | .coldFlags, _ => ⟨rfl, rfl, rfl⟩
  | .link, _ => ⟨rfl, rfl, rfl, rfl, rfl, rfl, rfl, rfl, rfl, rfl⟩
  | .setup, _ => ⟨rfl, rfl⟩
  | .rings, _ => ⟨rfl, rfl⟩
  | .descs, _ => ⟨rfl, rfl⟩
  | .dma, _ => ⟨rfl, rfl, rfl⟩
  | .steer, _ => rfl
  | .bufs, _ => rfl
  | .events, _ => ⟨rfl, rfl, rfl, rfl, rfl, rfl⟩
  | .msix, _ => ⟨rfl, rfl, rfl, rfl, rfl⟩
  | .table, _ => rfl
  | .sched, _ => rfl
  | .queues, _ => ⟨rfl, rfl⟩
  | .intake, _ => ⟨rfl, rfl, rfl, rfl, rfl, rfl, rfl, rfl⟩
  | .conv, _ => rfl
  | .meters, _ => ⟨rfl, rfl, rfl, rfl⟩
  | .meterKeys, _ => rfl
  | .stdRecs, _ => rfl
  | .custody, _ => ⟨rfl, rfl, rfl⟩
  | .closes, _ => ⟨rfl, rfl⟩
  | .tariffLog, _ => ⟨rfl, rfl, rfl⟩
  | .valves, _ => ⟨rfl, rfl⟩
  | .balance, _ => ⟨rfl, rfl, rfl, rfl⟩
  | .indicators, _ => ⟨rfl, rfl⟩
  | .polls, _ => rfl
  | .profiles, _ => ⟨rfl, rfl, rfl⟩
  | .quarantine, _ => rfl
  | .journal, _ => ⟨rfl, rfl⟩
  | .tariff, _ => ⟨rfl, rfl, rfl, rfl, rfl, rfl, rfl, rfl, rfl, rfl⟩
  | .ledgerWork, _ => ⟨rfl, rfl, rfl, rfl, rfl, rfl, rfl⟩
  | .ledgerStats, _ => ⟨rfl, rfl, rfl⟩
  | .plc, hp => absurd hplc hp
  | .radio, _ => rfl
  | .wired, _ => rfl
  | .time, _ => rfl
  | .arch, _ => rfl
  | .pair, _ => rfl
  | .pairStore, _ => rfl
  | .fuses, _ => ⟨rfl, rfl⟩
  | .roots, _ => ⟨rfl, rfl⟩
  | .counter, _ => ⟨rfl, rfl, rfl⟩
  | .keyState, _ => ⟨rfl, rfl, rfl, rfl⟩
  | .tamper, _ => ⟨rfl, rfl, rfl, rfl, rfl, rfl, rfl, rfl, rfl, rfl, rfl, rfl, rfl⟩
  | .unlock, _ => ⟨rfl, rfl, rfl, rfl⟩
  | .keyStats, _ => rfl
  | .blocks, _ => ⟨rfl, rfl, rfl, rfl, rfl, rfl, rfl, rfl, rfl, rfl, rfl, rfl⟩
  | .checkpoint, _ => ⟨rfl, rfl, rfl, rfl, rfl, rfl, rfl⟩
  | .hostns, _ => ⟨rfl, rfl, rfl⟩
  | .backlog, _ => ⟨rfl, rfl, rfl, rfl⟩
  | .flashStats, _ => ⟨rfl, rfl, rfl, rfl, rfl, rfl⟩
  | .images, _ => ⟨rfl, rfl, rfl, rfl, rfl, rfl, rfl, rfl⟩
  | .campaigns, _ => ⟨rfl, rfl⟩
  | .health, _ => ⟨rfl, rfl, rfl⟩
  | .recorder, _ => ⟨rfl, rfl, rfl, rfl, rfl, rfl, rfl, rfl, rfl, rfl⟩
  | .recCursor, _ => ⟨rfl, rfl, rfl, rfl, rfl⟩
  | .cntSat, _ => rfl
  | .eccLog, _ => ⟨rfl, rfl, rfl⟩
  | .background, _ => ⟨rfl, rfl, rfl⟩
  | .boardRegs, _ => ⟨rfl, rfl, rfl, rfl, rfl, rfl, rfl, rfl⟩
  | .optStatus, _ => ⟨rfl, rfl⟩
  | .ethLinks, _ => ⟨rfl, rfl⟩
  | .dbgItem, _ => ⟨rfl, rfl⟩
  | .options, _ => rfl
  | .optStore, _ => rfl

theorem only_onRad {l : List Part} {f} {s : State} (hradio : Part.radio ∈ l) :
    OnlyParts l s (onRad f s) := fun p hp =>
  match p, hp with
  | .pending, _ => rfl
  | .free, _ => rfl
  | .out, _ => rfl
  | .now, _ => rfl
  | .lanes, _ => rfl
  | .sound, _ => ⟨rfl, rfl, rfl, rfl, rfl⟩
  | .dram, _ => ⟨rfl, rfl⟩
  | .eccCounts, _ => ⟨rfl, rfl, rfl⟩
  | .islands, _ => rfl
  | .power, _ => rfl
  | .resets, _ => ⟨rfl, rfl, rfl, rfl, rfl, rfl, rfl, rfl⟩
  | .startUp, _ => ⟨rfl, rfl, rfl, rfl, rfl, rfl, rfl, rfl, rfl, rfl, rfl⟩
  | .counts, _ => ⟨rfl, rfl, rfl⟩
  | .backup, _ => rfl
  | .lagoon, _ => ⟨rfl, rfl, rfl⟩
  | .episodes, _ => ⟨rfl, rfl, rfl, rfl⟩
  | .coldFlags, _ => ⟨rfl, rfl, rfl⟩
  | .link, _ => ⟨rfl, rfl, rfl, rfl, rfl, rfl, rfl, rfl, rfl, rfl⟩
  | .setup, _ => ⟨rfl, rfl⟩
  | .rings, _ => ⟨rfl, rfl⟩
  | .descs, _ => ⟨rfl, rfl⟩
  | .dma, _ => ⟨rfl, rfl, rfl⟩
  | .steer, _ => rfl
  | .bufs, _ => rfl
  | .events, _ => ⟨rfl, rfl, rfl, rfl, rfl, rfl⟩
  | .msix, _ => ⟨rfl, rfl, rfl, rfl, rfl⟩
  | .table, _ => rfl
  | .sched, _ => rfl
  | .queues, _ => ⟨rfl, rfl⟩
  | .intake, _ => ⟨rfl, rfl, rfl, rfl, rfl, rfl, rfl, rfl⟩
  | .conv, _ => rfl
  | .meters, _ => ⟨rfl, rfl, rfl, rfl⟩
  | .meterKeys, _ => rfl
  | .stdRecs, _ => rfl
  | .custody, _ => ⟨rfl, rfl, rfl⟩
  | .closes, _ => ⟨rfl, rfl⟩
  | .tariffLog, _ => ⟨rfl, rfl, rfl⟩
  | .valves, _ => ⟨rfl, rfl⟩
  | .balance, _ => ⟨rfl, rfl, rfl, rfl⟩
  | .indicators, _ => ⟨rfl, rfl⟩
  | .polls, _ => rfl
  | .profiles, _ => ⟨rfl, rfl, rfl⟩
  | .quarantine, _ => rfl
  | .journal, _ => ⟨rfl, rfl⟩
  | .tariff, _ => ⟨rfl, rfl, rfl, rfl, rfl, rfl, rfl, rfl, rfl, rfl⟩
  | .ledgerWork, _ => ⟨rfl, rfl, rfl, rfl, rfl, rfl, rfl⟩
  | .ledgerStats, _ => ⟨rfl, rfl, rfl⟩
  | .plc, _ => rfl
  | .radio, hp => absurd hradio hp
  | .wired, _ => rfl
  | .time, _ => rfl
  | .arch, _ => rfl
  | .pair, _ => rfl
  | .pairStore, _ => rfl
  | .fuses, _ => ⟨rfl, rfl⟩
  | .roots, _ => ⟨rfl, rfl⟩
  | .counter, _ => ⟨rfl, rfl, rfl⟩
  | .keyState, _ => ⟨rfl, rfl, rfl, rfl⟩
  | .tamper, _ => ⟨rfl, rfl, rfl, rfl, rfl, rfl, rfl, rfl, rfl, rfl, rfl, rfl, rfl⟩
  | .unlock, _ => ⟨rfl, rfl, rfl, rfl⟩
  | .keyStats, _ => rfl
  | .blocks, _ => ⟨rfl, rfl, rfl, rfl, rfl, rfl, rfl, rfl, rfl, rfl, rfl, rfl⟩
  | .checkpoint, _ => ⟨rfl, rfl, rfl, rfl, rfl, rfl, rfl⟩
  | .hostns, _ => ⟨rfl, rfl, rfl⟩
  | .backlog, _ => ⟨rfl, rfl, rfl, rfl⟩
  | .flashStats, _ => ⟨rfl, rfl, rfl, rfl, rfl, rfl⟩
  | .images, _ => ⟨rfl, rfl, rfl, rfl, rfl, rfl, rfl, rfl⟩
  | .campaigns, _ => ⟨rfl, rfl⟩
  | .health, _ => ⟨rfl, rfl, rfl⟩
  | .recorder, _ => ⟨rfl, rfl, rfl, rfl, rfl, rfl, rfl, rfl, rfl, rfl⟩
  | .recCursor, _ => ⟨rfl, rfl, rfl, rfl, rfl⟩
  | .cntSat, _ => rfl
  | .eccLog, _ => ⟨rfl, rfl, rfl⟩
  | .background, _ => ⟨rfl, rfl, rfl⟩
  | .boardRegs, _ => ⟨rfl, rfl, rfl, rfl, rfl, rfl, rfl, rfl⟩
  | .optStatus, _ => ⟨rfl, rfl⟩
  | .ethLinks, _ => ⟨rfl, rfl⟩
  | .dbgItem, _ => ⟨rfl, rfl⟩
  | .options, _ => rfl
  | .optStore, _ => rfl

theorem only_onWir {l : List Part} {f} {s : State} (hwired : Part.wired ∈ l) :
    OnlyParts l s (onWir f s) := fun p hp =>
  match p, hp with
  | .pending, _ => rfl
  | .free, _ => rfl
  | .out, _ => rfl
  | .now, _ => rfl
  | .lanes, _ => rfl
  | .sound, _ => ⟨rfl, rfl, rfl, rfl, rfl⟩
  | .dram, _ => ⟨rfl, rfl⟩
  | .eccCounts, _ => ⟨rfl, rfl, rfl⟩
  | .islands, _ => rfl
  | .power, _ => rfl
  | .resets, _ => ⟨rfl, rfl, rfl, rfl, rfl, rfl, rfl, rfl⟩
  | .startUp, _ => ⟨rfl, rfl, rfl, rfl, rfl, rfl, rfl, rfl, rfl, rfl, rfl⟩
  | .counts, _ => ⟨rfl, rfl, rfl⟩
  | .backup, _ => rfl
  | .lagoon, _ => ⟨rfl, rfl, rfl⟩
  | .episodes, _ => ⟨rfl, rfl, rfl, rfl⟩
  | .coldFlags, _ => ⟨rfl, rfl, rfl⟩
  | .link, _ => ⟨rfl, rfl, rfl, rfl, rfl, rfl, rfl, rfl, rfl, rfl⟩
  | .setup, _ => ⟨rfl, rfl⟩
  | .rings, _ => ⟨rfl, rfl⟩
  | .descs, _ => ⟨rfl, rfl⟩
  | .dma, _ => ⟨rfl, rfl, rfl⟩
  | .steer, _ => rfl
  | .bufs, _ => rfl
  | .events, _ => ⟨rfl, rfl, rfl, rfl, rfl, rfl⟩
  | .msix, _ => ⟨rfl, rfl, rfl, rfl, rfl⟩
  | .table, _ => rfl
  | .sched, _ => rfl
  | .queues, _ => ⟨rfl, rfl⟩
  | .intake, _ => ⟨rfl, rfl, rfl, rfl, rfl, rfl, rfl, rfl⟩
  | .conv, _ => rfl
  | .meters, _ => ⟨rfl, rfl, rfl, rfl⟩
  | .meterKeys, _ => rfl
  | .stdRecs, _ => rfl
  | .custody, _ => ⟨rfl, rfl, rfl⟩
  | .closes, _ => ⟨rfl, rfl⟩
  | .tariffLog, _ => ⟨rfl, rfl, rfl⟩
  | .valves, _ => ⟨rfl, rfl⟩
  | .balance, _ => ⟨rfl, rfl, rfl, rfl⟩
  | .indicators, _ => ⟨rfl, rfl⟩
  | .polls, _ => rfl
  | .profiles, _ => ⟨rfl, rfl, rfl⟩
  | .quarantine, _ => rfl
  | .journal, _ => ⟨rfl, rfl⟩
  | .tariff, _ => ⟨rfl, rfl, rfl, rfl, rfl, rfl, rfl, rfl, rfl, rfl⟩
  | .ledgerWork, _ => ⟨rfl, rfl, rfl, rfl, rfl, rfl, rfl⟩
  | .ledgerStats, _ => ⟨rfl, rfl, rfl⟩
  | .plc, _ => rfl
  | .radio, _ => rfl
  | .wired, hp => absurd hwired hp
  | .time, _ => rfl
  | .arch, _ => rfl
  | .pair, _ => rfl
  | .pairStore, _ => rfl
  | .fuses, _ => ⟨rfl, rfl⟩
  | .roots, _ => ⟨rfl, rfl⟩
  | .counter, _ => ⟨rfl, rfl, rfl⟩
  | .keyState, _ => ⟨rfl, rfl, rfl, rfl⟩
  | .tamper, _ => ⟨rfl, rfl, rfl, rfl, rfl, rfl, rfl, rfl, rfl, rfl, rfl, rfl, rfl⟩
  | .unlock, _ => ⟨rfl, rfl, rfl, rfl⟩
  | .keyStats, _ => rfl
  | .blocks, _ => ⟨rfl, rfl, rfl, rfl, rfl, rfl, rfl, rfl, rfl, rfl, rfl, rfl⟩
  | .checkpoint, _ => ⟨rfl, rfl, rfl, rfl, rfl, rfl, rfl⟩
  | .hostns, _ => ⟨rfl, rfl, rfl⟩
  | .backlog, _ => ⟨rfl, rfl, rfl, rfl⟩
  | .flashStats, _ => ⟨rfl, rfl, rfl, rfl, rfl, rfl⟩
  | .images, _ => ⟨rfl, rfl, rfl, rfl, rfl, rfl, rfl, rfl⟩
  | .campaigns, _ => ⟨rfl, rfl⟩
  | .health, _ => ⟨rfl, rfl, rfl⟩
  | .recorder, _ => ⟨rfl, rfl, rfl, rfl, rfl, rfl, rfl, rfl, rfl, rfl⟩
  | .recCursor, _ => ⟨rfl, rfl, rfl, rfl, rfl⟩
  | .cntSat, _ => rfl
  | .eccLog, _ => ⟨rfl, rfl, rfl⟩
  | .background, _ => ⟨rfl, rfl, rfl⟩
  | .boardRegs, _ => ⟨rfl, rfl, rfl, rfl, rfl, rfl, rfl, rfl⟩
  | .optStatus, _ => ⟨rfl, rfl⟩
  | .ethLinks, _ => ⟨rfl, rfl⟩
  | .dbgItem, _ => ⟨rfl, rfl⟩
  | .options, _ => rfl
  | .optStore, _ => rfl

theorem only_onTm {l : List Part} {f} {s : State} (htime : Part.time ∈ l) :
    OnlyParts l s (onTm f s) := fun p hp =>
  match p, hp with
  | .pending, _ => rfl
  | .free, _ => rfl
  | .out, _ => rfl
  | .now, _ => rfl
  | .lanes, _ => rfl
  | .sound, _ => ⟨rfl, rfl, rfl, rfl, rfl⟩
  | .dram, _ => ⟨rfl, rfl⟩
  | .eccCounts, _ => ⟨rfl, rfl, rfl⟩
  | .islands, _ => rfl
  | .power, _ => rfl
  | .resets, _ => ⟨rfl, rfl, rfl, rfl, rfl, rfl, rfl, rfl⟩
  | .startUp, _ => ⟨rfl, rfl, rfl, rfl, rfl, rfl, rfl, rfl, rfl, rfl, rfl⟩
  | .counts, _ => ⟨rfl, rfl, rfl⟩
  | .backup, _ => rfl
  | .lagoon, _ => ⟨rfl, rfl, rfl⟩
  | .episodes, _ => ⟨rfl, rfl, rfl, rfl⟩
  | .coldFlags, _ => ⟨rfl, rfl, rfl⟩
  | .link, _ => ⟨rfl, rfl, rfl, rfl, rfl, rfl, rfl, rfl, rfl, rfl⟩
  | .setup, _ => ⟨rfl, rfl⟩
  | .rings, _ => ⟨rfl, rfl⟩
  | .descs, _ => ⟨rfl, rfl⟩
  | .dma, _ => ⟨rfl, rfl, rfl⟩
  | .steer, _ => rfl
  | .bufs, _ => rfl
  | .events, _ => ⟨rfl, rfl, rfl, rfl, rfl, rfl⟩
  | .msix, _ => ⟨rfl, rfl, rfl, rfl, rfl⟩
  | .table, _ => rfl
  | .sched, _ => rfl
  | .queues, _ => ⟨rfl, rfl⟩
  | .intake, _ => ⟨rfl, rfl, rfl, rfl, rfl, rfl, rfl, rfl⟩
  | .conv, _ => rfl
  | .meters, _ => ⟨rfl, rfl, rfl, rfl⟩
  | .meterKeys, _ => rfl
  | .stdRecs, _ => rfl
  | .custody, _ => ⟨rfl, rfl, rfl⟩
  | .closes, _ => ⟨rfl, rfl⟩
  | .tariffLog, _ => ⟨rfl, rfl, rfl⟩
  | .valves, _ => ⟨rfl, rfl⟩
  | .balance, _ => ⟨rfl, rfl, rfl, rfl⟩
  | .indicators, _ => ⟨rfl, rfl⟩
  | .polls, _ => rfl
  | .profiles, _ => ⟨rfl, rfl, rfl⟩
  | .quarantine, _ => rfl
  | .journal, _ => ⟨rfl, rfl⟩
  | .tariff, _ => ⟨rfl, rfl, rfl, rfl, rfl, rfl, rfl, rfl, rfl, rfl⟩
  | .ledgerWork, _ => ⟨rfl, rfl, rfl, rfl, rfl, rfl, rfl⟩
  | .ledgerStats, _ => ⟨rfl, rfl, rfl⟩
  | .plc, _ => rfl
  | .radio, _ => rfl
  | .wired, _ => rfl
  | .time, hp => absurd htime hp
  | .arch, _ => rfl
  | .pair, _ => rfl
  | .pairStore, _ => rfl
  | .fuses, _ => ⟨rfl, rfl⟩
  | .roots, _ => ⟨rfl, rfl⟩
  | .counter, _ => ⟨rfl, rfl, rfl⟩
  | .keyState, _ => ⟨rfl, rfl, rfl, rfl⟩
  | .tamper, _ => ⟨rfl, rfl, rfl, rfl, rfl, rfl, rfl, rfl, rfl, rfl, rfl, rfl, rfl⟩
  | .unlock, _ => ⟨rfl, rfl, rfl, rfl⟩
  | .keyStats, _ => rfl
  | .blocks, _ => ⟨rfl, rfl, rfl, rfl, rfl, rfl, rfl, rfl, rfl, rfl, rfl, rfl⟩
  | .checkpoint, _ => ⟨rfl, rfl, rfl, rfl, rfl, rfl, rfl⟩
  | .hostns, _ => ⟨rfl, rfl, rfl⟩
  | .backlog, _ => ⟨rfl, rfl, rfl, rfl⟩
  | .flashStats, _ => ⟨rfl, rfl, rfl, rfl, rfl, rfl⟩
  | .images, _ => ⟨rfl, rfl, rfl, rfl, rfl, rfl, rfl, rfl⟩
  | .campaigns, _ => ⟨rfl, rfl⟩
  | .health, _ => ⟨rfl, rfl, rfl⟩
  | .recorder, _ => ⟨rfl, rfl, rfl, rfl, rfl, rfl, rfl, rfl, rfl, rfl⟩
  | .recCursor, _ => ⟨rfl, rfl, rfl, rfl, rfl⟩
  | .cntSat, _ => rfl
  | .eccLog, _ => ⟨rfl, rfl, rfl⟩
  | .background, _ => ⟨rfl, rfl, rfl⟩
  | .boardRegs, _ => ⟨rfl, rfl, rfl, rfl, rfl, rfl, rfl, rfl⟩
  | .optStatus, _ => ⟨rfl, rfl⟩
  | .ethLinks, _ => ⟨rfl, rfl⟩
  | .dbgItem, _ => ⟨rfl, rfl⟩
  | .options, _ => rfl
  | .optStore, _ => rfl

theorem only_onArch {l : List Part} {f} {s : State} (harch : Part.arch ∈ l) :
    OnlyParts l s (onArch f s) := fun p hp =>
  match p, hp with
  | .pending, _ => rfl
  | .free, _ => rfl
  | .out, _ => rfl
  | .now, _ => rfl
  | .lanes, _ => rfl
  | .sound, _ => ⟨rfl, rfl, rfl, rfl, rfl⟩
  | .dram, _ => ⟨rfl, rfl⟩
  | .eccCounts, _ => ⟨rfl, rfl, rfl⟩
  | .islands, _ => rfl
  | .power, _ => rfl
  | .resets, _ => ⟨rfl, rfl, rfl, rfl, rfl, rfl, rfl, rfl⟩
  | .startUp, _ => ⟨rfl, rfl, rfl, rfl, rfl, rfl, rfl, rfl, rfl, rfl, rfl⟩
  | .counts, _ => ⟨rfl, rfl, rfl⟩
  | .backup, _ => rfl
  | .lagoon, _ => ⟨rfl, rfl, rfl⟩
  | .episodes, _ => ⟨rfl, rfl, rfl, rfl⟩
  | .coldFlags, _ => ⟨rfl, rfl, rfl⟩
  | .link, _ => ⟨rfl, rfl, rfl, rfl, rfl, rfl, rfl, rfl, rfl, rfl⟩
  | .setup, _ => ⟨rfl, rfl⟩
  | .rings, _ => ⟨rfl, rfl⟩
  | .descs, _ => ⟨rfl, rfl⟩
  | .dma, _ => ⟨rfl, rfl, rfl⟩
  | .steer, _ => rfl
  | .bufs, _ => rfl
  | .events, _ => ⟨rfl, rfl, rfl, rfl, rfl, rfl⟩
  | .msix, _ => ⟨rfl, rfl, rfl, rfl, rfl⟩
  | .table, _ => rfl
  | .sched, _ => rfl
  | .queues, _ => ⟨rfl, rfl⟩
  | .intake, _ => ⟨rfl, rfl, rfl, rfl, rfl, rfl, rfl, rfl⟩
  | .conv, _ => rfl
  | .meters, _ => ⟨rfl, rfl, rfl, rfl⟩
  | .meterKeys, _ => rfl
  | .stdRecs, _ => rfl
  | .custody, _ => ⟨rfl, rfl, rfl⟩
  | .closes, _ => ⟨rfl, rfl⟩
  | .tariffLog, _ => ⟨rfl, rfl, rfl⟩
  | .valves, _ => ⟨rfl, rfl⟩
  | .balance, _ => ⟨rfl, rfl, rfl, rfl⟩
  | .indicators, _ => ⟨rfl, rfl⟩
  | .polls, _ => rfl
  | .profiles, _ => ⟨rfl, rfl, rfl⟩
  | .quarantine, _ => rfl
  | .journal, _ => ⟨rfl, rfl⟩
  | .tariff, _ => ⟨rfl, rfl, rfl, rfl, rfl, rfl, rfl, rfl, rfl, rfl⟩
  | .ledgerWork, _ => ⟨rfl, rfl, rfl, rfl, rfl, rfl, rfl⟩
  | .ledgerStats, _ => ⟨rfl, rfl, rfl⟩
  | .plc, _ => rfl
  | .radio, _ => rfl
  | .wired, _ => rfl
  | .time, _ => rfl
  | .arch, hp => absurd harch hp
  | .pair, _ => rfl
  | .pairStore, _ => rfl
  | .fuses, _ => ⟨rfl, rfl⟩
  | .roots, _ => ⟨rfl, rfl⟩
  | .counter, _ => ⟨rfl, rfl, rfl⟩
  | .keyState, _ => ⟨rfl, rfl, rfl, rfl⟩
  | .tamper, _ => ⟨rfl, rfl, rfl, rfl, rfl, rfl, rfl, rfl, rfl, rfl, rfl, rfl, rfl⟩
  | .unlock, _ => ⟨rfl, rfl, rfl, rfl⟩
  | .keyStats, _ => rfl
  | .blocks, _ => ⟨rfl, rfl, rfl, rfl, rfl, rfl, rfl, rfl, rfl, rfl, rfl, rfl⟩
  | .checkpoint, _ => ⟨rfl, rfl, rfl, rfl, rfl, rfl, rfl⟩
  | .hostns, _ => ⟨rfl, rfl, rfl⟩
  | .backlog, _ => ⟨rfl, rfl, rfl, rfl⟩
  | .flashStats, _ => ⟨rfl, rfl, rfl, rfl, rfl, rfl⟩
  | .images, _ => ⟨rfl, rfl, rfl, rfl, rfl, rfl, rfl, rfl⟩
  | .campaigns, _ => ⟨rfl, rfl⟩
  | .health, _ => ⟨rfl, rfl, rfl⟩
  | .recorder, _ => ⟨rfl, rfl, rfl, rfl, rfl, rfl, rfl, rfl, rfl, rfl⟩
  | .recCursor, _ => ⟨rfl, rfl, rfl, rfl, rfl⟩
  | .cntSat, _ => rfl
  | .eccLog, _ => ⟨rfl, rfl, rfl⟩
  | .background, _ => ⟨rfl, rfl, rfl⟩
  | .boardRegs, _ => ⟨rfl, rfl, rfl, rfl, rfl, rfl, rfl, rfl⟩
  | .optStatus, _ => ⟨rfl, rfl⟩
  | .ethLinks, _ => ⟨rfl, rfl⟩
  | .dbgItem, _ => ⟨rfl, rfl⟩
  | .options, _ => rfl
  | .optStore, _ => rfl

theorem only_onPair {l : List Part} {f} {s : State} (hpair : Part.pair ∈ l) :
    OnlyParts l s (onPair f s) := fun p hp =>
  match p, hp with
  | .pending, _ => rfl
  | .free, _ => rfl
  | .out, _ => rfl
  | .now, _ => rfl
  | .lanes, _ => rfl
  | .sound, _ => ⟨rfl, rfl, rfl, rfl, rfl⟩
  | .dram, _ => ⟨rfl, rfl⟩
  | .eccCounts, _ => ⟨rfl, rfl, rfl⟩
  | .islands, _ => rfl
  | .power, _ => rfl
  | .resets, _ => ⟨rfl, rfl, rfl, rfl, rfl, rfl, rfl, rfl⟩
  | .startUp, _ => ⟨rfl, rfl, rfl, rfl, rfl, rfl, rfl, rfl, rfl, rfl, rfl⟩
  | .counts, _ => ⟨rfl, rfl, rfl⟩
  | .backup, _ => rfl
  | .lagoon, _ => ⟨rfl, rfl, rfl⟩
  | .episodes, _ => ⟨rfl, rfl, rfl, rfl⟩
  | .coldFlags, _ => ⟨rfl, rfl, rfl⟩
  | .link, _ => ⟨rfl, rfl, rfl, rfl, rfl, rfl, rfl, rfl, rfl, rfl⟩
  | .setup, _ => ⟨rfl, rfl⟩
  | .rings, _ => ⟨rfl, rfl⟩
  | .descs, _ => ⟨rfl, rfl⟩
  | .dma, _ => ⟨rfl, rfl, rfl⟩
  | .steer, _ => rfl
  | .bufs, _ => rfl
  | .events, _ => ⟨rfl, rfl, rfl, rfl, rfl, rfl⟩
  | .msix, _ => ⟨rfl, rfl, rfl, rfl, rfl⟩
  | .table, _ => rfl
  | .sched, _ => rfl
  | .queues, _ => ⟨rfl, rfl⟩
  | .intake, _ => ⟨rfl, rfl, rfl, rfl, rfl, rfl, rfl, rfl⟩
  | .conv, _ => rfl
  | .meters, _ => ⟨rfl, rfl, rfl, rfl⟩
  | .meterKeys, _ => rfl
  | .stdRecs, _ => rfl
  | .custody, _ => ⟨rfl, rfl, rfl⟩
  | .closes, _ => ⟨rfl, rfl⟩
  | .tariffLog, _ => ⟨rfl, rfl, rfl⟩
  | .valves, _ => ⟨rfl, rfl⟩
  | .balance, _ => ⟨rfl, rfl, rfl, rfl⟩
  | .indicators, _ => ⟨rfl, rfl⟩
  | .polls, _ => rfl
  | .profiles, _ => ⟨rfl, rfl, rfl⟩
  | .quarantine, _ => rfl
  | .journal, _ => ⟨rfl, rfl⟩
  | .tariff, _ => ⟨rfl, rfl, rfl, rfl, rfl, rfl, rfl, rfl, rfl, rfl⟩
  | .ledgerWork, _ => ⟨rfl, rfl, rfl, rfl, rfl, rfl, rfl⟩
  | .ledgerStats, _ => ⟨rfl, rfl, rfl⟩
  | .plc, _ => rfl
  | .radio, _ => rfl
  | .wired, _ => rfl
  | .time, _ => rfl
  | .arch, _ => rfl
  | .pair, hp => absurd hpair hp
  | .pairStore, _ => rfl
  | .fuses, _ => ⟨rfl, rfl⟩
  | .roots, _ => ⟨rfl, rfl⟩
  | .counter, _ => ⟨rfl, rfl, rfl⟩
  | .keyState, _ => ⟨rfl, rfl, rfl, rfl⟩
  | .tamper, _ => ⟨rfl, rfl, rfl, rfl, rfl, rfl, rfl, rfl, rfl, rfl, rfl, rfl, rfl⟩
  | .unlock, _ => ⟨rfl, rfl, rfl, rfl⟩
  | .keyStats, _ => rfl
  | .blocks, _ => ⟨rfl, rfl, rfl, rfl, rfl, rfl, rfl, rfl, rfl, rfl, rfl, rfl⟩
  | .checkpoint, _ => ⟨rfl, rfl, rfl, rfl, rfl, rfl, rfl⟩
  | .hostns, _ => ⟨rfl, rfl, rfl⟩
  | .backlog, _ => ⟨rfl, rfl, rfl, rfl⟩
  | .flashStats, _ => ⟨rfl, rfl, rfl, rfl, rfl, rfl⟩
  | .images, _ => ⟨rfl, rfl, rfl, rfl, rfl, rfl, rfl, rfl⟩
  | .campaigns, _ => ⟨rfl, rfl⟩
  | .health, _ => ⟨rfl, rfl, rfl⟩
  | .recorder, _ => ⟨rfl, rfl, rfl, rfl, rfl, rfl, rfl, rfl, rfl, rfl⟩
  | .recCursor, _ => ⟨rfl, rfl, rfl, rfl, rfl⟩
  | .cntSat, _ => rfl
  | .eccLog, _ => ⟨rfl, rfl, rfl⟩
  | .background, _ => ⟨rfl, rfl, rfl⟩
  | .boardRegs, _ => ⟨rfl, rfl, rfl, rfl, rfl, rfl, rfl, rfl⟩
  | .optStatus, _ => ⟨rfl, rfl⟩
  | .ethLinks, _ => ⟨rfl, rfl⟩
  | .dbgItem, _ => ⟨rfl, rfl⟩
  | .options, _ => rfl
  | .optStore, _ => rfl

theorem only_onKeys {l : List Part} {f} {s : State} (hfuses : Part.fuses ∈ l ∨ Part.fuses.same s (onKeys f s)) (hroots : Part.roots ∈ l ∨
    Part.roots.same s (onKeys f s)) (hcounter : Part.counter ∈ l ∨ Part.counter.same s (onKeys f s)) (hkeyState : Part.keyState ∈ l ∨
    Part.keyState.same s (onKeys f s)) (htamper : Part.tamper ∈ l ∨ Part.tamper.same s (onKeys f s)) (hunlock : Part.unlock ∈ l ∨ Part.unlock.same
    s (onKeys f s)) (hkeyStats : Part.keyStats ∈ l ∨ Part.keyStats.same s (onKeys f s)) :
    OnlyParts l s (onKeys f s) := fun p hp =>
  match p, hp with
  | .pending, _ => rfl
  | .free, _ => rfl
  | .out, _ => rfl
  | .now, _ => rfl
  | .lanes, _ => rfl
  | .sound, _ => ⟨rfl, rfl, rfl, rfl, rfl⟩
  | .dram, _ => ⟨rfl, rfl⟩
  | .eccCounts, _ => ⟨rfl, rfl, rfl⟩
  | .islands, _ => rfl
  | .power, _ => rfl
  | .resets, _ => ⟨rfl, rfl, rfl, rfl, rfl, rfl, rfl, rfl⟩
  | .startUp, _ => ⟨rfl, rfl, rfl, rfl, rfl, rfl, rfl, rfl, rfl, rfl, rfl⟩
  | .counts, _ => ⟨rfl, rfl, rfl⟩
  | .backup, _ => rfl
  | .lagoon, _ => ⟨rfl, rfl, rfl⟩
  | .episodes, _ => ⟨rfl, rfl, rfl, rfl⟩
  | .coldFlags, _ => ⟨rfl, rfl, rfl⟩
  | .link, _ => ⟨rfl, rfl, rfl, rfl, rfl, rfl, rfl, rfl, rfl, rfl⟩
  | .setup, _ => ⟨rfl, rfl⟩
  | .rings, _ => ⟨rfl, rfl⟩
  | .descs, _ => ⟨rfl, rfl⟩
  | .dma, _ => ⟨rfl, rfl, rfl⟩
  | .steer, _ => rfl
  | .bufs, _ => rfl
  | .events, _ => ⟨rfl, rfl, rfl, rfl, rfl, rfl⟩
  | .msix, _ => ⟨rfl, rfl, rfl, rfl, rfl⟩
  | .table, _ => rfl
  | .sched, _ => rfl
  | .queues, _ => ⟨rfl, rfl⟩
  | .intake, _ => ⟨rfl, rfl, rfl, rfl, rfl, rfl, rfl, rfl⟩
  | .conv, _ => rfl
  | .meters, _ => ⟨rfl, rfl, rfl, rfl⟩
  | .meterKeys, _ => rfl
  | .stdRecs, _ => rfl
  | .custody, _ => ⟨rfl, rfl, rfl⟩
  | .closes, _ => ⟨rfl, rfl⟩
  | .tariffLog, _ => ⟨rfl, rfl, rfl⟩
  | .valves, _ => ⟨rfl, rfl⟩
  | .balance, _ => ⟨rfl, rfl, rfl, rfl⟩
  | .indicators, _ => ⟨rfl, rfl⟩
  | .polls, _ => rfl
  | .profiles, _ => ⟨rfl, rfl, rfl⟩
  | .quarantine, _ => rfl
  | .journal, _ => ⟨rfl, rfl⟩
  | .tariff, _ => ⟨rfl, rfl, rfl, rfl, rfl, rfl, rfl, rfl, rfl, rfl⟩
  | .ledgerWork, _ => ⟨rfl, rfl, rfl, rfl, rfl, rfl, rfl⟩
  | .ledgerStats, _ => ⟨rfl, rfl, rfl⟩
  | .plc, _ => rfl
  | .radio, _ => rfl
  | .wired, _ => rfl
  | .time, _ => rfl
  | .arch, _ => rfl
  | .pair, _ => rfl
  | .pairStore, _ => rfl
  | .fuses, hp => hfuses.resolve_left hp
  | .roots, hp => hroots.resolve_left hp
  | .counter, hp => hcounter.resolve_left hp
  | .keyState, hp => hkeyState.resolve_left hp
  | .tamper, hp => htamper.resolve_left hp
  | .unlock, hp => hunlock.resolve_left hp
  | .keyStats, hp => hkeyStats.resolve_left hp
  | .blocks, _ => ⟨rfl, rfl, rfl, rfl, rfl, rfl, rfl, rfl, rfl, rfl, rfl, rfl⟩
  | .checkpoint, _ => ⟨rfl, rfl, rfl, rfl, rfl, rfl, rfl⟩
  | .hostns, _ => ⟨rfl, rfl, rfl⟩
  | .backlog, _ => ⟨rfl, rfl, rfl, rfl⟩
  | .flashStats, _ => ⟨rfl, rfl, rfl, rfl, rfl, rfl⟩
  | .images, _ => ⟨rfl, rfl, rfl, rfl, rfl, rfl, rfl, rfl⟩
  | .campaigns, _ => ⟨rfl, rfl⟩
  | .health, _ => ⟨rfl, rfl, rfl⟩
  | .recorder, _ => ⟨rfl, rfl, rfl, rfl, rfl, rfl, rfl, rfl, rfl, rfl⟩
  | .recCursor, _ => ⟨rfl, rfl, rfl, rfl, rfl⟩
  | .cntSat, _ => rfl
  | .eccLog, _ => ⟨rfl, rfl, rfl⟩
  | .background, _ => ⟨rfl, rfl, rfl⟩
  | .boardRegs, _ => ⟨rfl, rfl, rfl, rfl, rfl, rfl, rfl, rfl⟩
  | .optStatus, _ => ⟨rfl, rfl⟩
  | .ethLinks, _ => ⟨rfl, rfl⟩
  | .dbgItem, _ => ⟨rfl, rfl⟩
  | .options, _ => rfl
  | .optStore, _ => rfl

theorem only_onFl {l : List Part} {f} {s : State} (hblocks : Part.blocks ∈ l ∨ Part.blocks.same s (onFl f s)) (hcheckpoint : Part.checkpoint ∈ l ∨
    Part.checkpoint.same s (onFl f s)) (hhostns : Part.hostns ∈ l ∨ Part.hostns.same s (onFl f s)) (hbacklog : Part.backlog ∈ l ∨ Part.backlog.same
    s (onFl f s)) (hflashStats : Part.flashStats ∈ l ∨ Part.flashStats.same s (onFl f s)) :
    OnlyParts l s (onFl f s) := fun p hp =>
  match p, hp with
  | .pending, _ => rfl
  | .free, _ => rfl
  | .out, _ => rfl
  | .now, _ => rfl
  | .lanes, _ => rfl
  | .sound, _ => ⟨rfl, rfl, rfl, rfl, rfl⟩
  | .dram, _ => ⟨rfl, rfl⟩
  | .eccCounts, _ => ⟨rfl, rfl, rfl⟩
  | .islands, _ => rfl
  | .power, _ => rfl
  | .resets, _ => ⟨rfl, rfl, rfl, rfl, rfl, rfl, rfl, rfl⟩
  | .startUp, _ => ⟨rfl, rfl, rfl, rfl, rfl, rfl, rfl, rfl, rfl, rfl, rfl⟩
  | .counts, _ => ⟨rfl, rfl, rfl⟩
  | .backup, _ => rfl
  | .lagoon, _ => ⟨rfl, rfl, rfl⟩
  | .episodes, _ => ⟨rfl, rfl, rfl, rfl⟩
  | .coldFlags, _ => ⟨rfl, rfl, rfl⟩
  | .link, _ => ⟨rfl, rfl, rfl, rfl, rfl, rfl, rfl, rfl, rfl, rfl⟩
  | .setup, _ => ⟨rfl, rfl⟩
  | .rings, _ => ⟨rfl, rfl⟩
  | .descs, _ => ⟨rfl, rfl⟩
  | .dma, _ => ⟨rfl, rfl, rfl⟩
  | .steer, _ => rfl
  | .bufs, _ => rfl
  | .events, _ => ⟨rfl, rfl, rfl, rfl, rfl, rfl⟩
  | .msix, _ => ⟨rfl, rfl, rfl, rfl, rfl⟩
  | .table, _ => rfl
  | .sched, _ => rfl
  | .queues, _ => ⟨rfl, rfl⟩
  | .intake, _ => ⟨rfl, rfl, rfl, rfl, rfl, rfl, rfl, rfl⟩
  | .conv, _ => rfl
  | .meters, _ => ⟨rfl, rfl, rfl, rfl⟩
  | .meterKeys, _ => rfl
  | .stdRecs, _ => rfl
  | .custody, _ => ⟨rfl, rfl, rfl⟩
  | .closes, _ => ⟨rfl, rfl⟩
  | .tariffLog, _ => ⟨rfl, rfl, rfl⟩
  | .valves, _ => ⟨rfl, rfl⟩
  | .balance, _ => ⟨rfl, rfl, rfl, rfl⟩
  | .indicators, _ => ⟨rfl, rfl⟩
  | .polls, _ => rfl
  | .profiles, _ => ⟨rfl, rfl, rfl⟩
  | .quarantine, _ => rfl
  | .journal, _ => ⟨rfl, rfl⟩
  | .tariff, _ => ⟨rfl, rfl, rfl, rfl, rfl, rfl, rfl, rfl, rfl, rfl⟩
  | .ledgerWork, _ => ⟨rfl, rfl, rfl, rfl, rfl, rfl, rfl⟩
  | .ledgerStats, _ => ⟨rfl, rfl, rfl⟩
  | .plc, _ => rfl
  | .radio, _ => rfl
  | .wired, _ => rfl
  | .time, _ => rfl
  | .arch, _ => rfl
  | .pair, _ => rfl
  | .pairStore, _ => rfl
  | .fuses, _ => ⟨rfl, rfl⟩
  | .roots, _ => ⟨rfl, rfl⟩
  | .counter, _ => ⟨rfl, rfl, rfl⟩
  | .keyState, _ => ⟨rfl, rfl, rfl, rfl⟩
  | .tamper, _ => ⟨rfl, rfl, rfl, rfl, rfl, rfl, rfl, rfl, rfl, rfl, rfl, rfl, rfl⟩
  | .unlock, _ => ⟨rfl, rfl, rfl, rfl⟩
  | .keyStats, _ => rfl
  | .blocks, hp => hblocks.resolve_left hp
  | .checkpoint, hp => hcheckpoint.resolve_left hp
  | .hostns, hp => hhostns.resolve_left hp
  | .backlog, hp => hbacklog.resolve_left hp
  | .flashStats, hp => hflashStats.resolve_left hp
  | .images, _ => ⟨rfl, rfl, rfl, rfl, rfl, rfl, rfl, rfl⟩
  | .campaigns, _ => ⟨rfl, rfl⟩
  | .health, _ => ⟨rfl, rfl, rfl⟩
  | .recorder, _ => ⟨rfl, rfl, rfl, rfl, rfl, rfl, rfl, rfl, rfl, rfl⟩
  | .recCursor, _ => ⟨rfl, rfl, rfl, rfl, rfl⟩
  | .cntSat, _ => rfl
  | .eccLog, _ => ⟨rfl, rfl, rfl⟩
  | .background, _ => ⟨rfl, rfl, rfl⟩
  | .boardRegs, _ => ⟨rfl, rfl, rfl, rfl, rfl, rfl, rfl, rfl⟩
  | .optStatus, _ => ⟨rfl, rfl⟩
  | .ethLinks, _ => ⟨rfl, rfl⟩
  | .dbgItem, _ => ⟨rfl, rfl⟩
  | .options, _ => rfl
  | .optStore, _ => rfl

theorem only_onImg {l : List Part} {f} {s : State} (himages : Part.images ∈ l ∨ Part.images.same s (onImg f s)) (hcampaigns : Part.campaigns ∈ l ∨
    Part.campaigns.same s (onImg f s)) (hhealth : Part.health ∈ l ∨ Part.health.same s (onImg f s)) :
    OnlyParts l s (onImg f s) := fun p hp =>
  match p, hp with
  | .pending, _ => rfl
  | .free, _ => rfl
  | .out, _ => rfl
  | .now, _ => rfl
  | .lanes, _ => rfl
  | .sound, _ => ⟨rfl, rfl, rfl, rfl, rfl⟩
  | .dram, _ => ⟨rfl, rfl⟩
  | .eccCounts, _ => ⟨rfl, rfl, rfl⟩
  | .islands, _ => rfl
  | .power, _ => rfl
  | .resets, _ => ⟨rfl, rfl, rfl, rfl, rfl, rfl, rfl, rfl⟩
  | .startUp, _ => ⟨rfl, rfl, rfl, rfl, rfl, rfl, rfl, rfl, rfl, rfl, rfl⟩
  | .counts, _ => ⟨rfl, rfl, rfl⟩
  | .backup, _ => rfl
  | .lagoon, _ => ⟨rfl, rfl, rfl⟩
  | .episodes, _ => ⟨rfl, rfl, rfl, rfl⟩
  | .coldFlags, _ => ⟨rfl, rfl, rfl⟩
  | .link, _ => ⟨rfl, rfl, rfl, rfl, rfl, rfl, rfl, rfl, rfl, rfl⟩
  | .setup, _ => ⟨rfl, rfl⟩
  | .rings, _ => ⟨rfl, rfl⟩
  | .descs, _ => ⟨rfl, rfl⟩
  | .dma, _ => ⟨rfl, rfl, rfl⟩
  | .steer, _ => rfl
  | .bufs, _ => rfl
  | .events, _ => ⟨rfl, rfl, rfl, rfl, rfl, rfl⟩
  | .msix, _ => ⟨rfl, rfl, rfl, rfl, rfl⟩
  | .table, _ => rfl
  | .sched, _ => rfl
  | .queues, _ => ⟨rfl, rfl⟩
  | .intake, _ => ⟨rfl, rfl, rfl, rfl, rfl, rfl, rfl, rfl⟩
  | .conv, _ => rfl
  | .meters, _ => ⟨rfl, rfl, rfl, rfl⟩
  | .meterKeys, _ => rfl
  | .stdRecs, _ => rfl
  | .custody, _ => ⟨rfl, rfl, rfl⟩
  | .closes, _ => ⟨rfl, rfl⟩
  | .tariffLog, _ => ⟨rfl, rfl, rfl⟩
  | .valves, _ => ⟨rfl, rfl⟩
  | .balance, _ => ⟨rfl, rfl, rfl, rfl⟩
  | .indicators, _ => ⟨rfl, rfl⟩
  | .polls, _ => rfl
  | .profiles, _ => ⟨rfl, rfl, rfl⟩
  | .quarantine, _ => rfl
  | .journal, _ => ⟨rfl, rfl⟩
  | .tariff, _ => ⟨rfl, rfl, rfl, rfl, rfl, rfl, rfl, rfl, rfl, rfl⟩
  | .ledgerWork, _ => ⟨rfl, rfl, rfl, rfl, rfl, rfl, rfl⟩
  | .ledgerStats, _ => ⟨rfl, rfl, rfl⟩
  | .plc, _ => rfl
  | .radio, _ => rfl
  | .wired, _ => rfl
  | .time, _ => rfl
  | .arch, _ => rfl
  | .pair, _ => rfl
  | .pairStore, _ => rfl
  | .fuses, _ => ⟨rfl, rfl⟩
  | .roots, _ => ⟨rfl, rfl⟩
  | .counter, _ => ⟨rfl, rfl, rfl⟩
  | .keyState, _ => ⟨rfl, rfl, rfl, rfl⟩
  | .tamper, _ => ⟨rfl, rfl, rfl, rfl, rfl, rfl, rfl, rfl, rfl, rfl, rfl, rfl, rfl⟩
  | .unlock, _ => ⟨rfl, rfl, rfl, rfl⟩
  | .keyStats, _ => rfl
  | .blocks, _ => ⟨rfl, rfl, rfl, rfl, rfl, rfl, rfl, rfl, rfl, rfl, rfl, rfl⟩
  | .checkpoint, _ => ⟨rfl, rfl, rfl, rfl, rfl, rfl, rfl⟩
  | .hostns, _ => ⟨rfl, rfl, rfl⟩
  | .backlog, _ => ⟨rfl, rfl, rfl, rfl⟩
  | .flashStats, _ => ⟨rfl, rfl, rfl, rfl, rfl, rfl⟩
  | .images, hp => himages.resolve_left hp
  | .campaigns, hp => hcampaigns.resolve_left hp
  | .health, hp => hhealth.resolve_left hp
  | .recorder, _ => ⟨rfl, rfl, rfl, rfl, rfl, rfl, rfl, rfl, rfl, rfl⟩
  | .recCursor, _ => ⟨rfl, rfl, rfl, rfl, rfl⟩
  | .cntSat, _ => rfl
  | .eccLog, _ => ⟨rfl, rfl, rfl⟩
  | .background, _ => ⟨rfl, rfl, rfl⟩
  | .boardRegs, _ => ⟨rfl, rfl, rfl, rfl, rfl, rfl, rfl, rfl⟩
  | .optStatus, _ => ⟨rfl, rfl⟩
  | .ethLinks, _ => ⟨rfl, rfl⟩
  | .dbgItem, _ => ⟨rfl, rfl⟩
  | .options, _ => rfl
  | .optStore, _ => rfl

theorem only_onTel {l : List Part} {f} {s : State} (hsetup : Part.setup ∈ l ∨ Part.setup.same s (onTel f s)) (hevents : Part.events ∈ l ∨
    Part.events.same s (onTel f s)) (hrecorder : Part.recorder ∈ l ∨ Part.recorder.same s (onTel f s)) (hrecCursor : Part.recCursor ∈ l ∨
    Part.recCursor.same s (onTel f s)) (hcntSat : Part.cntSat ∈ l ∨ Part.cntSat.same s (onTel f s)) (heccLog : Part.eccLog ∈ l ∨ Part.eccLog.same s
    (onTel f s)) (hbackground : Part.background ∈ l ∨ Part.background.same s (onTel f s)) (hboardRegs : Part.boardRegs ∈ l ∨ Part.boardRegs.same s
    (onTel f s)) (hoptStatus : Part.optStatus ∈ l ∨ Part.optStatus.same s (onTel f s)) (hethLinks : Part.ethLinks ∈ l ∨ Part.ethLinks.same s (onTel
    f s)) (hdbgItem : Part.dbgItem ∈ l ∨ Part.dbgItem.same s (onTel f s)) :
    OnlyParts l s (onTel f s) := fun p hp =>
  match p, hp with
  | .pending, _ => rfl
  | .free, _ => rfl
  | .out, _ => rfl
  | .now, _ => rfl
  | .lanes, _ => rfl
  | .sound, _ => ⟨rfl, rfl, rfl, rfl, rfl⟩
  | .dram, _ => ⟨rfl, rfl⟩
  | .eccCounts, _ => ⟨rfl, rfl, rfl⟩
  | .islands, _ => rfl
  | .power, _ => rfl
  | .resets, _ => ⟨rfl, rfl, rfl, rfl, rfl, rfl, rfl, rfl⟩
  | .startUp, _ => ⟨rfl, rfl, rfl, rfl, rfl, rfl, rfl, rfl, rfl, rfl, rfl⟩
  | .counts, _ => ⟨rfl, rfl, rfl⟩
  | .backup, _ => rfl
  | .lagoon, _ => ⟨rfl, rfl, rfl⟩
  | .episodes, _ => ⟨rfl, rfl, rfl, rfl⟩
  | .coldFlags, _ => ⟨rfl, rfl, rfl⟩
  | .link, _ => ⟨rfl, rfl, rfl, rfl, rfl, rfl, rfl, rfl, rfl, rfl⟩
  | .setup, hp => hsetup.resolve_left hp
  | .rings, _ => ⟨rfl, rfl⟩
  | .descs, _ => ⟨rfl, rfl⟩
  | .dma, _ => ⟨rfl, rfl, rfl⟩
  | .steer, _ => rfl
  | .bufs, _ => rfl
  | .events, hp => hevents.resolve_left hp
  | .msix, _ => ⟨rfl, rfl, rfl, rfl, rfl⟩
  | .table, _ => rfl
  | .sched, _ => rfl
  | .queues, _ => ⟨rfl, rfl⟩
  | .intake, _ => ⟨rfl, rfl, rfl, rfl, rfl, rfl, rfl, rfl⟩
  | .conv, _ => rfl
  | .meters, _ => ⟨rfl, rfl, rfl, rfl⟩
  | .meterKeys, _ => rfl
  | .stdRecs, _ => rfl
  | .custody, _ => ⟨rfl, rfl, rfl⟩
  | .closes, _ => ⟨rfl, rfl⟩
  | .tariffLog, _ => ⟨rfl, rfl, rfl⟩
  | .valves, _ => ⟨rfl, rfl⟩
  | .balance, _ => ⟨rfl, rfl, rfl, rfl⟩
  | .indicators, _ => ⟨rfl, rfl⟩
  | .polls, _ => rfl
  | .profiles, _ => ⟨rfl, rfl, rfl⟩
  | .quarantine, _ => rfl
  | .journal, _ => ⟨rfl, rfl⟩
  | .tariff, _ => ⟨rfl, rfl, rfl, rfl, rfl, rfl, rfl, rfl, rfl, rfl⟩
  | .ledgerWork, _ => ⟨rfl, rfl, rfl, rfl, rfl, rfl, rfl⟩
  | .ledgerStats, _ => ⟨rfl, rfl, rfl⟩
  | .plc, _ => rfl
  | .radio, _ => rfl
  | .wired, _ => rfl
  | .time, _ => rfl
  | .arch, _ => rfl
  | .pair, _ => rfl
  | .pairStore, _ => rfl
  | .fuses, _ => ⟨rfl, rfl⟩
  | .roots, _ => ⟨rfl, rfl⟩
  | .counter, _ => ⟨rfl, rfl, rfl⟩
  | .keyState, _ => ⟨rfl, rfl, rfl, rfl⟩
  | .tamper, _ => ⟨rfl, rfl, rfl, rfl, rfl, rfl, rfl, rfl, rfl, rfl, rfl, rfl, rfl⟩
  | .unlock, _ => ⟨rfl, rfl, rfl, rfl⟩
  | .keyStats, _ => rfl
  | .blocks, _ => ⟨rfl, rfl, rfl, rfl, rfl, rfl, rfl, rfl, rfl, rfl, rfl, rfl⟩
  | .checkpoint, _ => ⟨rfl, rfl, rfl, rfl, rfl, rfl, rfl⟩
  | .hostns, _ => ⟨rfl, rfl, rfl⟩
  | .backlog, _ => ⟨rfl, rfl, rfl, rfl⟩
  | .flashStats, _ => ⟨rfl, rfl, rfl, rfl, rfl, rfl⟩
  | .images, _ => ⟨rfl, rfl, rfl, rfl, rfl, rfl, rfl, rfl⟩
  | .campaigns, _ => ⟨rfl, rfl⟩
  | .health, _ => ⟨rfl, rfl, rfl⟩
  | .recorder, hp => hrecorder.resolve_left hp
  | .recCursor, hp => hrecCursor.resolve_left hp
  | .cntSat, hp => hcntSat.resolve_left hp
  | .eccLog, hp => heccLog.resolve_left hp
  | .background, hp => hbackground.resolve_left hp
  | .boardRegs, hp => hboardRegs.resolve_left hp
  | .optStatus, hp => hoptStatus.resolve_left hp
  | .ethLinks, hp => hethLinks.resolve_left hp
  | .dbgItem, hp => hdbgItem.resolve_left hp
  | .options, _ => rfl
  | .optStore, _ => rfl

theorem only_onOpt {l : List Part} {f} {s : State} (hoptions : Part.options ∈ l) :
    OnlyParts l s (onOpt f s) := fun p hp =>
  match p, hp with
  | .pending, _ => rfl
  | .free, _ => rfl
  | .out, _ => rfl
  | .now, _ => rfl
  | .lanes, _ => rfl
  | .sound, _ => ⟨rfl, rfl, rfl, rfl, rfl⟩
  | .dram, _ => ⟨rfl, rfl⟩
  | .eccCounts, _ => ⟨rfl, rfl, rfl⟩
  | .islands, _ => rfl
  | .power, _ => rfl
  | .resets, _ => ⟨rfl, rfl, rfl, rfl, rfl, rfl, rfl, rfl⟩
  | .startUp, _ => ⟨rfl, rfl, rfl, rfl, rfl, rfl, rfl, rfl, rfl, rfl, rfl⟩
  | .counts, _ => ⟨rfl, rfl, rfl⟩
  | .backup, _ => rfl
  | .lagoon, _ => ⟨rfl, rfl, rfl⟩
  | .episodes, _ => ⟨rfl, rfl, rfl, rfl⟩
  | .coldFlags, _ => ⟨rfl, rfl, rfl⟩
  | .link, _ => ⟨rfl, rfl, rfl, rfl, rfl, rfl, rfl, rfl, rfl, rfl⟩
  | .setup, _ => ⟨rfl, rfl⟩
  | .rings, _ => ⟨rfl, rfl⟩
  | .descs, _ => ⟨rfl, rfl⟩
  | .dma, _ => ⟨rfl, rfl, rfl⟩
  | .steer, _ => rfl
  | .bufs, _ => rfl
  | .events, _ => ⟨rfl, rfl, rfl, rfl, rfl, rfl⟩
  | .msix, _ => ⟨rfl, rfl, rfl, rfl, rfl⟩
  | .table, _ => rfl
  | .sched, _ => rfl
  | .queues, _ => ⟨rfl, rfl⟩
  | .intake, _ => ⟨rfl, rfl, rfl, rfl, rfl, rfl, rfl, rfl⟩
  | .conv, _ => rfl
  | .meters, _ => ⟨rfl, rfl, rfl, rfl⟩
  | .meterKeys, _ => rfl
  | .stdRecs, _ => rfl
  | .custody, _ => ⟨rfl, rfl, rfl⟩
  | .closes, _ => ⟨rfl, rfl⟩
  | .tariffLog, _ => ⟨rfl, rfl, rfl⟩
  | .valves, _ => ⟨rfl, rfl⟩
  | .balance, _ => ⟨rfl, rfl, rfl, rfl⟩
  | .indicators, _ => ⟨rfl, rfl⟩
  | .polls, _ => rfl
  | .profiles, _ => ⟨rfl, rfl, rfl⟩
  | .quarantine, _ => rfl
  | .journal, _ => ⟨rfl, rfl⟩
  | .tariff, _ => ⟨rfl, rfl, rfl, rfl, rfl, rfl, rfl, rfl, rfl, rfl⟩
  | .ledgerWork, _ => ⟨rfl, rfl, rfl, rfl, rfl, rfl, rfl⟩
  | .ledgerStats, _ => ⟨rfl, rfl, rfl⟩
  | .plc, _ => rfl
  | .radio, _ => rfl
  | .wired, _ => rfl
  | .time, _ => rfl
  | .arch, _ => rfl
  | .pair, _ => rfl
  | .pairStore, _ => rfl
  | .fuses, _ => ⟨rfl, rfl⟩
  | .roots, _ => ⟨rfl, rfl⟩
  | .counter, _ => ⟨rfl, rfl, rfl⟩
  | .keyState, _ => ⟨rfl, rfl, rfl, rfl⟩
  | .tamper, _ => ⟨rfl, rfl, rfl, rfl, rfl, rfl, rfl, rfl, rfl, rfl, rfl, rfl, rfl⟩
  | .unlock, _ => ⟨rfl, rfl, rfl, rfl⟩
  | .keyStats, _ => rfl
  | .blocks, _ => ⟨rfl, rfl, rfl, rfl, rfl, rfl, rfl, rfl, rfl, rfl, rfl, rfl⟩
  | .checkpoint, _ => ⟨rfl, rfl, rfl, rfl, rfl, rfl, rfl⟩
  | .hostns, _ => ⟨rfl, rfl, rfl⟩
  | .backlog, _ => ⟨rfl, rfl, rfl, rfl⟩
  | .flashStats, _ => ⟨rfl, rfl, rfl, rfl, rfl, rfl⟩
  | .images, _ => ⟨rfl, rfl, rfl, rfl, rfl, rfl, rfl, rfl⟩
  | .campaigns, _ => ⟨rfl, rfl⟩
  | .health, _ => ⟨rfl, rfl, rfl⟩
  | .recorder, _ => ⟨rfl, rfl, rfl, rfl, rfl, rfl, rfl, rfl, rfl, rfl⟩
  | .recCursor, _ => ⟨rfl, rfl, rfl, rfl, rfl⟩
  | .cntSat, _ => rfl
  | .eccLog, _ => ⟨rfl, rfl, rfl⟩
  | .background, _ => ⟨rfl, rfl, rfl⟩
  | .boardRegs, _ => ⟨rfl, rfl, rfl, rfl, rfl, rfl, rfl, rfl⟩
  | .optStatus, _ => ⟨rfl, rfl⟩
  | .ethLinks, _ => ⟨rfl, rfl⟩
  | .dbgItem, _ => ⟨rfl, rfl⟩
  | .options, hp => absurd hoptions hp
  | .optStore, _ => rfl

theorem only_onIsl {l : List Part} {n : Nat} {f} {s : State} (hislands : Part.islands ∈ l) : OnlyParts l s (onIsl n f s) := fun p hp =>
  match p, hp with
  | .pending, _ => rfl
  | .free, _ => rfl
  | .out, _ => rfl
  | .now, _ => rfl
  | .lanes, _ => rfl
  | .sound, _ => ⟨rfl, rfl, rfl, rfl, rfl⟩
  | .dram, _ => ⟨rfl, rfl⟩
  | .eccCounts, _ => ⟨rfl, rfl, rfl⟩
  | .islands, hp => absurd hislands hp
  | .power, _ => rfl
  | .resets, _ => ⟨rfl, rfl, rfl, rfl, rfl, rfl, rfl, rfl⟩
  | .startUp, _ => ⟨rfl, rfl, rfl, rfl, rfl, rfl, rfl, rfl, rfl, rfl, rfl⟩
  | .counts, _ => ⟨rfl, rfl, rfl⟩
  | .backup, _ => rfl
  | .lagoon, _ => ⟨rfl, rfl, rfl⟩
  | .episodes, _ => ⟨rfl, rfl, rfl, rfl⟩
  | .coldFlags, _ => ⟨rfl, rfl, rfl⟩
  | .link, _ => ⟨rfl, rfl, rfl, rfl, rfl, rfl, rfl, rfl, rfl, rfl⟩
  | .setup, _ => ⟨rfl, rfl⟩
  | .rings, _ => ⟨rfl, rfl⟩
  | .descs, _ => ⟨rfl, rfl⟩
  | .dma, _ => ⟨rfl, rfl, rfl⟩
  | .steer, _ => rfl
  | .bufs, _ => rfl
  | .events, _ => ⟨rfl, rfl, rfl, rfl, rfl, rfl⟩
  | .msix, _ => ⟨rfl, rfl, rfl, rfl, rfl⟩
  | .table, _ => rfl
  | .sched, _ => rfl
  | .queues, _ => ⟨rfl, rfl⟩
  | .intake, _ => ⟨rfl, rfl, rfl, rfl, rfl, rfl, rfl, rfl⟩
  | .conv, _ => rfl
  | .meters, _ => ⟨rfl, rfl, rfl, rfl⟩
  | .meterKeys, _ => rfl
  | .stdRecs, _ => rfl
  | .custody, _ => ⟨rfl, rfl, rfl⟩
  | .closes, _ => ⟨rfl, rfl⟩
  | .tariffLog, _ => ⟨rfl, rfl, rfl⟩
  | .valves, _ => ⟨rfl, rfl⟩
  | .balance, _ => ⟨rfl, rfl, rfl, rfl⟩
  | .indicators, _ => ⟨rfl, rfl⟩
  | .polls, _ => rfl
  | .profiles, _ => ⟨rfl, rfl, rfl⟩
  | .quarantine, _ => rfl
  | .journal, _ => ⟨rfl, rfl⟩
  | .tariff, _ => ⟨rfl, rfl, rfl, rfl, rfl, rfl, rfl, rfl, rfl, rfl⟩
  | .ledgerWork, _ => ⟨rfl, rfl, rfl, rfl, rfl, rfl, rfl⟩
  | .ledgerStats, _ => ⟨rfl, rfl, rfl⟩
  | .plc, _ => rfl
  | .radio, _ => rfl
  | .wired, _ => rfl
  | .time, _ => rfl
  | .arch, _ => rfl
  | .pair, _ => rfl
  | .pairStore, _ => rfl
  | .fuses, _ => ⟨rfl, rfl⟩
  | .roots, _ => ⟨rfl, rfl⟩
  | .counter, _ => ⟨rfl, rfl, rfl⟩
  | .keyState, _ => ⟨rfl, rfl, rfl, rfl⟩
  | .tamper, _ => ⟨rfl, rfl, rfl, rfl, rfl, rfl, rfl, rfl, rfl, rfl, rfl, rfl, rfl⟩
  | .unlock, _ => ⟨rfl, rfl, rfl, rfl⟩
  | .keyStats, _ => rfl
  | .blocks, _ => ⟨rfl, rfl, rfl, rfl, rfl, rfl, rfl, rfl, rfl, rfl, rfl, rfl⟩
  | .checkpoint, _ => ⟨rfl, rfl, rfl, rfl, rfl, rfl, rfl⟩
  | .hostns, _ => ⟨rfl, rfl, rfl⟩
  | .backlog, _ => ⟨rfl, rfl, rfl, rfl⟩
  | .flashStats, _ => ⟨rfl, rfl, rfl, rfl, rfl, rfl⟩
  | .images, _ => ⟨rfl, rfl, rfl, rfl, rfl, rfl, rfl, rfl⟩
  | .campaigns, _ => ⟨rfl, rfl⟩
  | .health, _ => ⟨rfl, rfl, rfl⟩
  | .recorder, _ => ⟨rfl, rfl, rfl, rfl, rfl, rfl, rfl, rfl, rfl, rfl⟩
  | .recCursor, _ => ⟨rfl, rfl, rfl, rfl, rfl⟩
  | .cntSat, _ => rfl
  | .eccLog, _ => ⟨rfl, rfl, rfl⟩
  | .background, _ => ⟨rfl, rfl, rfl⟩
  | .boardRegs, _ => ⟨rfl, rfl, rfl, rfl, rfl, rfl, rfl, rfl⟩
  | .optStatus, _ => ⟨rfl, rfl⟩
  | .ethLinks, _ => ⟨rfl, rfl⟩
  | .dbgItem, _ => ⟨rfl, rfl⟩
  | .options, _ => rfl
  | .optStore, _ => rfl

theorem only_emit {l : List Part} {x : Output} {s : State} (hout : Part.out ∈ l) : OnlyParts l s (emit x s) := fun p hp =>
  match p, hp with
  | .pending, _ => rfl
  | .free, _ => rfl
  | .out, hp => absurd hout hp
  | .now, _ => rfl
  | .lanes, _ => rfl
  | .sound, _ => ⟨rfl, rfl, rfl, rfl, rfl⟩
  | .dram, _ => ⟨rfl, rfl⟩
  | .eccCounts, _ => ⟨rfl, rfl, rfl⟩
  | .islands, _ => rfl
  | .power, _ => rfl
  | .resets, _ => ⟨rfl, rfl, rfl, rfl, rfl, rfl, rfl, rfl⟩
  | .startUp, _ => ⟨rfl, rfl, rfl, rfl, rfl, rfl, rfl, rfl, rfl, rfl, rfl⟩
  | .counts, _ => ⟨rfl, rfl, rfl⟩
  | .backup, _ => rfl
  | .lagoon, _ => ⟨rfl, rfl, rfl⟩
  | .episodes, _ => ⟨rfl, rfl, rfl, rfl⟩
  | .coldFlags, _ => ⟨rfl, rfl, rfl⟩
  | .link, _ => ⟨rfl, rfl, rfl, rfl, rfl, rfl, rfl, rfl, rfl, rfl⟩
  | .setup, _ => ⟨rfl, rfl⟩
  | .rings, _ => ⟨rfl, rfl⟩
  | .descs, _ => ⟨rfl, rfl⟩
  | .dma, _ => ⟨rfl, rfl, rfl⟩
  | .steer, _ => rfl
  | .bufs, _ => rfl
  | .events, _ => ⟨rfl, rfl, rfl, rfl, rfl, rfl⟩
  | .msix, _ => ⟨rfl, rfl, rfl, rfl, rfl⟩
  | .table, _ => rfl
  | .sched, _ => rfl
  | .queues, _ => ⟨rfl, rfl⟩
  | .intake, _ => ⟨rfl, rfl, rfl, rfl, rfl, rfl, rfl, rfl⟩
  | .conv, _ => rfl
  | .meters, _ => ⟨rfl, rfl, rfl, rfl⟩
  | .meterKeys, _ => rfl
  | .stdRecs, _ => rfl
  | .custody, _ => ⟨rfl, rfl, rfl⟩
  | .closes, _ => ⟨rfl, rfl⟩
  | .tariffLog, _ => ⟨rfl, rfl, rfl⟩
  | .valves, _ => ⟨rfl, rfl⟩
  | .balance, _ => ⟨rfl, rfl, rfl, rfl⟩
  | .indicators, _ => ⟨rfl, rfl⟩
  | .polls, _ => rfl
  | .profiles, _ => ⟨rfl, rfl, rfl⟩
  | .quarantine, _ => rfl
  | .journal, _ => ⟨rfl, rfl⟩
  | .tariff, _ => ⟨rfl, rfl, rfl, rfl, rfl, rfl, rfl, rfl, rfl, rfl⟩
  | .ledgerWork, _ => ⟨rfl, rfl, rfl, rfl, rfl, rfl, rfl⟩
  | .ledgerStats, _ => ⟨rfl, rfl, rfl⟩
  | .plc, _ => rfl
  | .radio, _ => rfl
  | .wired, _ => rfl
  | .time, _ => rfl
  | .arch, _ => rfl
  | .pair, _ => rfl
  | .pairStore, _ => rfl
  | .fuses, _ => ⟨rfl, rfl⟩
  | .roots, _ => ⟨rfl, rfl⟩
  | .counter, _ => ⟨rfl, rfl, rfl⟩
  | .keyState, _ => ⟨rfl, rfl, rfl, rfl⟩
  | .tamper, _ => ⟨rfl, rfl, rfl, rfl, rfl, rfl, rfl, rfl, rfl, rfl, rfl, rfl, rfl⟩
  | .unlock, _ => ⟨rfl, rfl, rfl, rfl⟩
  | .keyStats, _ => rfl
  | .blocks, _ => ⟨rfl, rfl, rfl, rfl, rfl, rfl, rfl, rfl, rfl, rfl, rfl, rfl⟩
  | .checkpoint, _ => ⟨rfl, rfl, rfl, rfl, rfl, rfl, rfl⟩
  | .hostns, _ => ⟨rfl, rfl, rfl⟩
  | .backlog, _ => ⟨rfl, rfl, rfl, rfl⟩
  | .flashStats, _ => ⟨rfl, rfl, rfl, rfl, rfl, rfl⟩
  | .images, _ => ⟨rfl, rfl, rfl, rfl, rfl, rfl, rfl, rfl⟩
  | .campaigns, _ => ⟨rfl, rfl⟩
  | .health, _ => ⟨rfl, rfl, rfl⟩
  | .recorder, _ => ⟨rfl, rfl, rfl, rfl, rfl, rfl, rfl, rfl, rfl, rfl⟩
  | .recCursor, _ => ⟨rfl, rfl, rfl, rfl, rfl⟩
  | .cntSat, _ => rfl
  | .eccLog, _ => ⟨rfl, rfl, rfl⟩
  | .background, _ => ⟨rfl, rfl, rfl⟩
  | .boardRegs, _ => ⟨rfl, rfl, rfl, rfl, rfl, rfl, rfl, rfl⟩
  | .optStatus, _ => ⟨rfl, rfl⟩
  | .ethLinks, _ => ⟨rfl, rfl⟩
  | .dbgItem, _ => ⟨rfl, rfl⟩
  | .options, _ => rfl
  | .optStore, _ => rfl

theorem only_useFree {l : List Part} {s : State} (hfree : Part.free ∈ l) : OnlyParts l s (useFree s) := fun p hp =>
  match p, hp with
  | .pending, _ => rfl
  | .free, hp => absurd hfree hp
  | .out, _ => rfl
  | .now, _ => rfl
  | .lanes, _ => rfl
  | .sound, _ => ⟨rfl, rfl, rfl, rfl, rfl⟩
  | .dram, _ => ⟨rfl, rfl⟩
  | .eccCounts, _ => ⟨rfl, rfl, rfl⟩
  | .islands, _ => rfl
  | .power, _ => rfl
  | .resets, _ => ⟨rfl, rfl, rfl, rfl, rfl, rfl, rfl, rfl⟩
  | .startUp, _ => ⟨rfl, rfl, rfl, rfl, rfl, rfl, rfl, rfl, rfl, rfl, rfl⟩
  | .counts, _ => ⟨rfl, rfl, rfl⟩
  | .backup, _ => rfl
  | .lagoon, _ => ⟨rfl, rfl, rfl⟩
  | .episodes, _ => ⟨rfl, rfl, rfl, rfl⟩
  | .coldFlags, _ => ⟨rfl, rfl, rfl⟩
  | .link, _ => ⟨rfl, rfl, rfl, rfl, rfl, rfl, rfl, rfl, rfl, rfl⟩
  | .setup, _ => ⟨rfl, rfl⟩
  | .rings, _ => ⟨rfl, rfl⟩
  | .descs, _ => ⟨rfl, rfl⟩
  | .dma, _ => ⟨rfl, rfl, rfl⟩
  | .steer, _ => rfl
  | .bufs, _ => rfl
  | .events, _ => ⟨rfl, rfl, rfl, rfl, rfl, rfl⟩
  | .msix, _ => ⟨rfl, rfl, rfl, rfl, rfl⟩
  | .table, _ => rfl
  | .sched, _ => rfl
  | .queues, _ => ⟨rfl, rfl⟩
  | .intake, _ => ⟨rfl, rfl, rfl, rfl, rfl, rfl, rfl, rfl⟩
  | .conv, _ => rfl
  | .meters, _ => ⟨rfl, rfl, rfl, rfl⟩
  | .meterKeys, _ => rfl
  | .stdRecs, _ => rfl
  | .custody, _ => ⟨rfl, rfl, rfl⟩
  | .closes, _ => ⟨rfl, rfl⟩
  | .tariffLog, _ => ⟨rfl, rfl, rfl⟩
  | .valves, _ => ⟨rfl, rfl⟩
  | .balance, _ => ⟨rfl, rfl, rfl, rfl⟩
  | .indicators, _ => ⟨rfl, rfl⟩
  | .polls, _ => rfl
  | .profiles, _ => ⟨rfl, rfl, rfl⟩
  | .quarantine, _ => rfl
  | .journal, _ => ⟨rfl, rfl⟩
  | .tariff, _ => ⟨rfl, rfl, rfl, rfl, rfl, rfl, rfl, rfl, rfl, rfl⟩
  | .ledgerWork, _ => ⟨rfl, rfl, rfl, rfl, rfl, rfl, rfl⟩
  | .ledgerStats, _ => ⟨rfl, rfl, rfl⟩
  | .plc, _ => rfl
  | .radio, _ => rfl
  | .wired, _ => rfl
  | .time, _ => rfl
  | .arch, _ => rfl
  | .pair, _ => rfl
  | .pairStore, _ => rfl
  | .fuses, _ => ⟨rfl, rfl⟩
  | .roots, _ => ⟨rfl, rfl⟩
  | .counter, _ => ⟨rfl, rfl, rfl⟩
  | .keyState, _ => ⟨rfl, rfl, rfl, rfl⟩
  | .tamper, _ => ⟨rfl, rfl, rfl, rfl, rfl, rfl, rfl, rfl, rfl, rfl, rfl, rfl, rfl⟩
  | .unlock, _ => ⟨rfl, rfl, rfl, rfl⟩
  | .keyStats, _ => rfl
  | .blocks, _ => ⟨rfl, rfl, rfl, rfl, rfl, rfl, rfl, rfl, rfl, rfl, rfl, rfl⟩
  | .checkpoint, _ => ⟨rfl, rfl, rfl, rfl, rfl, rfl, rfl⟩
  | .hostns, _ => ⟨rfl, rfl, rfl⟩
  | .backlog, _ => ⟨rfl, rfl, rfl, rfl⟩
  | .flashStats, _ => ⟨rfl, rfl, rfl, rfl, rfl, rfl⟩
  | .images, _ => ⟨rfl, rfl, rfl, rfl, rfl, rfl, rfl, rfl⟩
  | .campaigns, _ => ⟨rfl, rfl⟩
  | .health, _ => ⟨rfl, rfl, rfl⟩
  | .recorder, _ => ⟨rfl, rfl, rfl, rfl, rfl, rfl, rfl, rfl, rfl, rfl⟩
  | .recCursor, _ => ⟨rfl, rfl, rfl, rfl, rfl⟩
  | .cntSat, _ => rfl
  | .eccLog, _ => ⟨rfl, rfl, rfl⟩
  | .background, _ => ⟨rfl, rfl, rfl⟩
  | .boardRegs, _ => ⟨rfl, rfl, rfl, rfl, rfl, rfl, rfl, rfl⟩
  | .optStatus, _ => ⟨rfl, rfl⟩
  | .ethLinks, _ => ⟨rfl, rfl⟩
  | .dbgItem, _ => ⟨rfl, rfl⟩
  | .options, _ => rfl
  | .optStore, _ => rfl

theorem only_saveOpt {l : List Part} {f : Opt → Opt} {s : State} (hoptions : Part.options ∈ l) (hoptStore : Part.optStore ∈ l) : OnlyParts l s (saveOpt f s) := fun p hp =>
  match p, hp with
  | .pending, _ => rfl
  | .free, _ => rfl
  | .out, _ => rfl
  | .now, _ => rfl
  | .lanes, _ => rfl
  | .sound, _ => ⟨rfl, rfl, rfl, rfl, rfl⟩
  | .dram, _ => ⟨rfl, rfl⟩
  | .eccCounts, _ => ⟨rfl, rfl, rfl⟩
  | .islands, _ => rfl
  | .power, _ => rfl
  | .resets, _ => ⟨rfl, rfl, rfl, rfl, rfl, rfl, rfl, rfl⟩
  | .startUp, _ => ⟨rfl, rfl, rfl, rfl, rfl, rfl, rfl, rfl, rfl, rfl, rfl⟩
  | .counts, _ => ⟨rfl, rfl, rfl⟩
  | .backup, _ => rfl
  | .lagoon, _ => ⟨rfl, rfl, rfl⟩
  | .episodes, _ => ⟨rfl, rfl, rfl, rfl⟩
  | .coldFlags, _ => ⟨rfl, rfl, rfl⟩
  | .link, _ => ⟨rfl, rfl, rfl, rfl, rfl, rfl, rfl, rfl, rfl, rfl⟩
  | .setup, _ => ⟨rfl, rfl⟩
  | .rings, _ => ⟨rfl, rfl⟩
  | .descs, _ => ⟨rfl, rfl⟩
  | .dma, _ => ⟨rfl, rfl, rfl⟩
  | .steer, _ => rfl
  | .bufs, _ => rfl
  | .events, _ => ⟨rfl, rfl, rfl, rfl, rfl, rfl⟩
  | .msix, _ => ⟨rfl, rfl, rfl, rfl, rfl⟩
  | .table, _ => rfl
  | .sched, _ => rfl
  | .queues, _ => ⟨rfl, rfl⟩
  | .intake, _ => ⟨rfl, rfl, rfl, rfl, rfl, rfl, rfl, rfl⟩
  | .conv, _ => rfl
  | .meters, _ => ⟨rfl, rfl, rfl, rfl⟩
  | .meterKeys, _ => rfl
  | .stdRecs, _ => rfl
  | .custody, _ => ⟨rfl, rfl, rfl⟩
  | .closes, _ => ⟨rfl, rfl⟩
  | .tariffLog, _ => ⟨rfl, rfl, rfl⟩
  | .valves, _ => ⟨rfl, rfl⟩
  | .balance, _ => ⟨rfl, rfl, rfl, rfl⟩
  | .indicators, _ => ⟨rfl, rfl⟩
  | .polls, _ => rfl
  | .profiles, _ => ⟨rfl, rfl, rfl⟩
  | .quarantine, _ => rfl
  | .journal, _ => ⟨rfl, rfl⟩
  | .tariff, _ => ⟨rfl, rfl, rfl, rfl, rfl, rfl, rfl, rfl, rfl, rfl⟩
  | .ledgerWork, _ => ⟨rfl, rfl, rfl, rfl, rfl, rfl, rfl⟩
  | .ledgerStats, _ => ⟨rfl, rfl, rfl⟩
  | .plc, _ => rfl
  | .radio, _ => rfl
  | .wired, _ => rfl
  | .time, _ => rfl
  | .arch, _ => rfl
  | .pair, _ => rfl
  | .pairStore, _ => rfl
  | .fuses, _ => ⟨rfl, rfl⟩
  | .roots, _ => ⟨rfl, rfl⟩
  | .counter, _ => ⟨rfl, rfl, rfl⟩
  | .keyState, _ => ⟨rfl, rfl, rfl, rfl⟩
  | .tamper, _ => ⟨rfl, rfl, rfl, rfl, rfl, rfl, rfl, rfl, rfl, rfl, rfl, rfl, rfl⟩
  | .unlock, _ => ⟨rfl, rfl, rfl, rfl⟩
  | .keyStats, _ => rfl
  | .blocks, _ => ⟨rfl, rfl, rfl, rfl, rfl, rfl, rfl, rfl, rfl, rfl, rfl, rfl⟩
  | .checkpoint, _ => ⟨rfl, rfl, rfl, rfl, rfl, rfl, rfl⟩
  | .hostns, _ => ⟨rfl, rfl, rfl⟩
  | .backlog, _ => ⟨rfl, rfl, rfl, rfl⟩
  | .flashStats, _ => ⟨rfl, rfl, rfl, rfl, rfl, rfl⟩
  | .images, _ => ⟨rfl, rfl, rfl, rfl, rfl, rfl, rfl, rfl⟩
  | .campaigns, _ => ⟨rfl, rfl⟩
  | .health, _ => ⟨rfl, rfl, rfl⟩
  | .recorder, _ => ⟨rfl, rfl, rfl, rfl, rfl, rfl, rfl, rfl, rfl, rfl⟩
  | .recCursor, _ => ⟨rfl, rfl, rfl, rfl, rfl⟩
  | .cntSat, _ => rfl
  | .eccLog, _ => ⟨rfl, rfl, rfl⟩
  | .background, _ => ⟨rfl, rfl, rfl⟩
  | .boardRegs, _ => ⟨rfl, rfl, rfl, rfl, rfl, rfl, rfl, rfl⟩
  | .optStatus, _ => ⟨rfl, rfl⟩
  | .ethLinks, _ => ⟨rfl, rfl⟩
  | .dbgItem, _ => ⟨rfl, rfl⟩
  | .options, hp => absurd hoptions hp
  | .optStore, hp => absurd hoptStore hp

theorem only_now {l : List Part} {n : Nat} {s : State} (hnow : Part.now ∈ l) : OnlyParts l s ({ s with now := n }) := fun p hp =>
  match p, hp with
  | .pending, _ => rfl
  | .free, _ => rfl
  | .out, _ => rfl
  | .now, hp => absurd hnow hp
  | .lanes, _ => rfl
  | .sound, _ => ⟨rfl, rfl, rfl, rfl, rfl⟩
  | .dram, _ => ⟨rfl, rfl⟩
  | .eccCounts, _ => ⟨rfl, rfl, rfl⟩
  | .islands, _ => rfl
  | .power, _ => rfl
  | .resets, _ => ⟨rfl, rfl, rfl, rfl, rfl, rfl, rfl, rfl⟩
  | .startUp, _ => ⟨rfl, rfl, rfl, rfl, rfl, rfl, rfl, rfl, rfl, rfl, rfl⟩
  | .counts, _ => ⟨rfl, rfl, rfl⟩
  | .backup, _ => rfl
  | .lagoon, _ => ⟨rfl, rfl, rfl⟩
  | .episodes, _ => ⟨rfl, rfl, rfl, rfl⟩
  | .coldFlags, _ => ⟨rfl, rfl, rfl⟩
  | .link, _ => ⟨rfl, rfl, rfl, rfl, rfl, rfl, rfl, rfl, rfl, rfl⟩
  | .setup, _ => ⟨rfl, rfl⟩
  | .rings, _ => ⟨rfl, rfl⟩
  | .descs, _ => ⟨rfl, rfl⟩
  | .dma, _ => ⟨rfl, rfl, rfl⟩
  | .steer, _ => rfl
  | .bufs, _ => rfl
  | .events, _ => ⟨rfl, rfl, rfl, rfl, rfl, rfl⟩
  | .msix, _ => ⟨rfl, rfl, rfl, rfl, rfl⟩
  | .table, _ => rfl
  | .sched, _ => rfl
  | .queues, _ => ⟨rfl, rfl⟩
  | .intake, _ => ⟨rfl, rfl, rfl, rfl, rfl, rfl, rfl, rfl⟩
  | .conv, _ => rfl
  | .meters, _ => ⟨rfl, rfl, rfl, rfl⟩
  | .meterKeys, _ => rfl
  | .stdRecs, _ => rfl
  | .custody, _ => ⟨rfl, rfl, rfl⟩
  | .closes, _ => ⟨rfl, rfl⟩
  | .tariffLog, _ => ⟨rfl, rfl, rfl⟩
  | .valves, _ => ⟨rfl, rfl⟩
  | .balance, _ => ⟨rfl, rfl, rfl, rfl⟩
  | .indicators, _ => ⟨rfl, rfl⟩
  | .polls, _ => rfl
  | .profiles, _ => ⟨rfl, rfl, rfl⟩
  | .quarantine, _ => rfl
  | .journal, _ => ⟨rfl, rfl⟩
  | .tariff, _ => ⟨rfl, rfl, rfl, rfl, rfl, rfl, rfl, rfl, rfl, rfl⟩
  | .ledgerWork, _ => ⟨rfl, rfl, rfl, rfl, rfl, rfl, rfl⟩
  | .ledgerStats, _ => ⟨rfl, rfl, rfl⟩
  | .plc, _ => rfl
  | .radio, _ => rfl
  | .wired, _ => rfl
  | .time, _ => rfl
  | .arch, _ => rfl
  | .pair, _ => rfl
  | .pairStore, _ => rfl
  | .fuses, _ => ⟨rfl, rfl⟩
  | .roots, _ => ⟨rfl, rfl⟩
  | .counter, _ => ⟨rfl, rfl, rfl⟩
  | .keyState, _ => ⟨rfl, rfl, rfl, rfl⟩
  | .tamper, _ => ⟨rfl, rfl, rfl, rfl, rfl, rfl, rfl, rfl, rfl, rfl, rfl, rfl, rfl⟩
  | .unlock, _ => ⟨rfl, rfl, rfl, rfl⟩
  | .keyStats, _ => rfl
  | .blocks, _ => ⟨rfl, rfl, rfl, rfl, rfl, rfl, rfl, rfl, rfl, rfl, rfl, rfl⟩
  | .checkpoint, _ => ⟨rfl, rfl, rfl, rfl, rfl, rfl, rfl⟩
  | .hostns, _ => ⟨rfl, rfl, rfl⟩
  | .backlog, _ => ⟨rfl, rfl, rfl, rfl⟩
  | .flashStats, _ => ⟨rfl, rfl, rfl, rfl, rfl, rfl⟩
  | .images, _ => ⟨rfl, rfl, rfl, rfl, rfl, rfl, rfl, rfl⟩
  | .campaigns, _ => ⟨rfl, rfl⟩
  | .health, _ => ⟨rfl, rfl, rfl⟩
  | .recorder, _ => ⟨rfl, rfl, rfl, rfl, rfl, rfl, rfl, rfl, rfl, rfl⟩
  | .recCursor, _ => ⟨rfl, rfl, rfl, rfl, rfl⟩
  | .cntSat, _ => rfl
  | .eccLog, _ => ⟨rfl, rfl, rfl⟩
  | .background, _ => ⟨rfl, rfl, rfl⟩
  | .boardRegs, _ => ⟨rfl, rfl, rfl, rfl, rfl, rfl, rfl, rfl⟩
  | .optStatus, _ => ⟨rfl, rfl⟩
  | .ethLinks, _ => ⟨rfl, rfl⟩
  | .dbgItem, _ => ⟨rfl, rfl⟩
  | .options, _ => rfl
  | .optStore, _ => rfl

/-! ### Counters (R473) -/

theorem only_cntSat {g : Nat} {on : Bool} {s : State} : OnlyParts [.cntSat] s (cntSat g on s) := by
  unfold cntSat
  split
  · apply only_onTel <;> first | exact .inl (by decide) | exact .inr rfl | exact .inr ⟨rfl, rfl⟩ | exact .inr (by and_intros <;> rfl)
  · exact only_refl _ _

theorem only_cntClear {g : Nat} {s : State} : OnlyParts [.cntSat] s (cntClear g s) := by
  unfold cntClear
  apply only_onTel <;> first | exact .inl (by decide) | exact .inr rfl | exact .inr ⟨rfl, rfl⟩ | exact .inr (by and_intros <;> rfl)

theorem only_statIk {k : Nat} {s : State} : OnlyParts [.intake, .cntSat] s (statIk k s) := by
  unfold statIk
  refine only_step only_cntSat (by decide) ?_
  apply only_onIk <;> first | exact .inl (by decide) | exact .inr rfl | exact .inr ⟨rfl, rfl⟩ | exact .inr (by and_intros <;> rfl)

theorem only_statCv {k : Nat} {s : State} : OnlyParts [.conv, .cntSat] s (statCv k s) := by
  unfold statCv
  refine only_step only_cntSat (by decide) ?_
  exact only_onCv (by decide)

theorem only_statLg {k : Nat} {s : State} : OnlyParts [.ledgerStats, .cntSat] s (statLg k s) := by
  unfold statLg
  refine only_step only_cntSat (by decide) ?_
  apply only_onLg <;> first | exact .inl (by decide) | exact .inr rfl | exact .inr ⟨rfl, rfl⟩ | exact .inr (by and_intros <;> rfl)

theorem only_statPp {k : Nat} {s : State} : OnlyParts [.ledgerStats, .cntSat] s (statPp k s) := by
  unfold statPp
  refine only_step only_cntSat (by decide) ?_
  apply only_onLg <;> first | exact .inl (by decide) | exact .inr rfl | exact .inr ⟨rfl, rfl⟩ | exact .inr (by and_intros <;> rfl)

theorem only_statBal {k : Nat} {s : State} : OnlyParts [.ledgerStats, .cntSat] s (statBal k s) := by
  unfold statBal
  refine only_step only_cntSat (by decide) ?_
  apply only_onLg <;> first | exact .inl (by decide) | exact .inr rfl | exact .inr ⟨rfl, rfl⟩ | exact .inr (by and_intros <;> rfl)

theorem only_statPlc {ph k : Nat} {s : State} : OnlyParts [.plc, .cntSat] s (statPlc ph k s) := by
  unfold statPlc
  refine only_step only_cntSat (by decide) ?_
  exact only_onPlc (by decide)

theorem only_statRad {r k : Nat} {s : State} : OnlyParts [.radio, .cntSat] s (statRad r k s) := by
  unfold statRad
  refine only_step only_cntSat (by decide) ?_
  exact only_onRad (by decide)

theorem only_statWir {p k : Nat} {s : State} : OnlyParts [.wired, .cntSat] s (statWir p k s) := by
  unfold statWir
  refine only_step only_cntSat (by decide) ?_
  exact only_onWir (by decide)

theorem only_statTm {k : Nat} {s : State} : OnlyParts [.time, .cntSat] s (statTm k s) := by
  unfold statTm
  refine only_step only_cntSat (by decide) ?_
  exact only_onTm (by decide)

theorem only_statArch {k : Nat} {s : State} : OnlyParts [.arch, .cntSat] s (statArch k s) := by
  unfold statArch
  refine only_step only_cntSat (by decide) ?_
  exact only_onArch (by decide)

theorem only_statPair {k : Nat} {s : State} : OnlyParts [.pair, .cntSat] s (statPair k s) := by
  unfold statPair
  refine only_step only_cntSat (by decide) ?_
  exact only_onPair (by decide)

theorem only_statKey {k : Nat} {s : State} : OnlyParts [.keyStats, .cntSat] s (statKey k s) := by
  unfold statKey
  refine only_step only_cntSat (by decide) ?_
  apply only_onKeys <;> first | exact .inl (by decide) | exact .inr rfl | exact .inr ⟨rfl, rfl⟩ | exact .inr (by and_intros <;> rfl)

theorem only_statFl {k : Nat} {s : State} : OnlyParts [.flashStats, .cntSat] s (statFl k s) := by
  unfold statFl
  refine only_step only_cntSat (by decide) ?_
  apply only_onFl <;> first | exact .inl (by decide) | exact .inr rfl | exact .inr ⟨rfl, rfl⟩ | exact .inr (by and_intros <;> rfl)

theorem only_statSch {k : Nat} {s : State} : OnlyParts [.sched, .cntSat] s (statSch k s) := by
  unfold statSch
  refine only_step only_cntSat (by decide) ?_
  exact only_onSch (by decide)

theorem only_statIkN {n k : Nat} {s : State} : OnlyParts [.intake, .cntSat] s (statIkN n k s) := by
  exact only_foldl (fun _ _ => only_statIk) _ s

/-! ### Messages (R371, R373, R388) -/

theorem only_onPeer {m : Nat} {f : Peer → Peer} {s : State} : OnlyParts [.arch] s (onPeer m f s) := by
  unfold onPeer
  refine only_trans ?_ (only_onArch (by decide))
  exact only_ite (only_refl _ _) (only_onArch (by decide))

theorem only_sendPlain {m : Nat} {b : Bytes} {s : State} : OnlyParts [.out, .arch] s (sendPlain m b s) := by
  unfold sendPlain
  split
  · exact only_refl _ _
  · exact only_step (only_emit (l := [.out]) (by decide)) (by decide) (only_mono only_onPeer (by decide))

theorem only_sendMsg {m type : Nat} {fence ack keep : Bool} {use : MsgUse} {b : Bytes} {s : State} : OnlyParts [.out, .arch] s (sendMsg m type
    fence ack keep use b s) := by
  unfold sendMsg
  split
  · exact only_refl _ _
  · split
    · exact only_refl _ _
    · exact only_step only_sendPlain (by decide) (only_step only_onPeer (by decide) (only_mono only_onPeer (by decide)))

theorem only_sendAcked {m type : Nat} {use : MsgUse} {b : Bytes} {s : State} : OnlyParts [.out, .arch] s (sendAcked m type use b s) := by
  exact only_sendMsg

theorem only_broadcast {type : Nat} {b : Bytes} {s : State} : OnlyParts [.out, .arch] s (broadcast type b s) := by
  unfold broadcast
  exact only_trans (only_onArch (by decide)) (only_foldl (fun _ _ => only_sendPlain) _ _)

theorem only_isthmusSend {type : Nat} {b : Bytes} {s : State} : OnlyParts [.out, .pair] s (isthmusSend type b s) := by
  unfold isthmusSend
  split
  · exact only_refl _ _
  · exact only_step (only_emit (l := [.out]) (by decide)) (by decide) (only_onPair (by decide))

/-! ### Events (R127, R471) -/

theorem only_sendMsix {v : Nat} {s : State} : OnlyParts [.out] s (sendMsix v s) := by
  exact only_emit (by decide)

theorem only_sendVector {v : Nat} {s : State} : OnlyParts [.out, .msix, .arch] s (sendVector v s) := by
  unfold sendVector
  split
  · exact only_mono only_sendAcked (by decide)
  · split
    · exact only_refl _ _
    · split
      · apply only_onHost <;> first | exact .inl (by decide) | exact .inr rfl | exact .inr ⟨rfl, rfl⟩ | exact .inr (by and_intros <;> rfl)
      · exact only_mono only_sendMsix (by decide)

theorem only_noteDetail {n info : Nat} {s : State} : OnlyParts [.events] s (noteDetail n info s) := by
  unfold noteDetail
  split
  · exact only_refl _ _
  · apply only_onTel <;> first | exact .inl (by decide) | exact .inr rfl | exact .inr ⟨rfl, rfl⟩ | exact .inr (by and_intros <;> rfl)

/-- A source raised: its bit, its detail, CAPE's copy and the message. -/
theorem only_raise {n info : Nat} {s : State} : OnlyParts [.out, .events, .msix, .arch] s (raise n info s) := by
  unfold raise setSource
  split
  · exact only_mono only_noteDetail (by decide)
  · have h : OnlyParts [.out, .events, .msix, .arch] s (onHost (fun h => { h with evt := h.evt ||| (1 <<< n) }) (noteDetail n info s)) := by
      refine only_trans (only_mono (only_noteDetail (n := n) (info := info)) (by decide)) ?_
      apply only_onHost <;> first | exact .inl (by decide) | exact .inr rfl | exact .inr ⟨rfl, rfl⟩ | exact .inr (by and_intros <;> rfl)
    exact only_ite (only_step only_sendVector (by decide) h) h

/-! ### Descriptors and host memory (R113 to R124) -/

theorem only_onRing {n : Nat} {f : Ring → Ring} {s : State} : OnlyParts [.rings] s (onRing n f s) := by
  unfold onRing
  apply only_onHost <;> first | exact .inl (by decide) | exact .inr rfl | exact .inr ⟨rfl, rfl⟩ | exact .inr (by and_intros <;> rfl)

theorem only_onDesc {d : Nat} {f : Desc → Desc} {s : State} : OnlyParts [.descs] s (onDesc d f s) := by
  unfold onDesc
  apply only_onHost <;> first | exact .inl (by decide) | exact .inr rfl | exact .inr ⟨rfl, rfl⟩ | exact .inr (by and_intros <;> rfl)

theorem only_dropDesc {d : Nat} {s : State} : OnlyParts [.descs] s (dropDesc d s) := by
  unfold dropDesc
  apply only_onHost <;> first | exact .inl (by decide) | exact .inr rfl | exact .inr ⟨rfl, rfl⟩ | exact .inr (by and_intros <;> rfl)

theorem only_dropDma {p : Dma → Bool} {s : State} : OnlyParts [.dma] s (dropDma p s) := by
  unfold dropDma
  apply only_onHost <;> first | exact .inl (by decide) | exact .inr rfl | exact .inr ⟨rfl, rfl⟩ | exact .inr (by and_intros <;> rfl)

/-- A command that ends changes its descriptor, its ring pair, and what was under way for it. -/
theorem only_finish {d status detail : Nat} {result : Bytes} {s : State} : OnlyParts [.rings, .descs, .dma] s (finish d status detail result s) := by
  unfold finish
  split
  · exact only_refl _ _
  · split
    · exact only_refl _ _
    · split
      · exact only_step only_dropDma (by decide) (only_mono only_dropDesc (by decide))
      · rename_i x _ _ _
        refine only_trans (t := onRing x.ring (fun r => { r with failed := r.failed || status != 0 }) s) (only_mono only_onRing (by decide)) ?_
        apply only_onHost <;> first | exact .inl (by decide) | exact .inr rfl | exact .inr ⟨rfl, rfl⟩ | exact .inr (by and_intros <;> rfl)

theorem only_finishOk {d : Nat} {result : Bytes} {s : State} : OnlyParts [.rings, .descs, .dma] s (finishOk d result s) := by
  exact only_finish

theorem only_holdDesc {d : Nat} {s : State} : OnlyParts [.descs] s (holdDesc d s) := by
  exact only_onDesc

theorem only_whenDurable {a : DurAct} {s : State} : OnlyParts [.journal] s (whenDurable a s) := by
  exact only_onJr (.inl (by decide))

theorem only_finishDurable {d : Nat} {result : Bytes} {s : State} : OnlyParts [.descs, .journal] s (finishDurable d result s) := by
  exact only_step only_holdDesc (by decide) (only_mono only_whenDurable (by decide))

theorem only_writeOut {addr : Nat} {data : Bytes} {relaxed : Bool} {use : MsgUse} {s : State} : OnlyParts [.out, .arch] s (writeOut addr data
    relaxed use s) := by
  unfold writeOut
  split
  · exact only_foldl (fun _ _ => only_sendAcked) _ s
  · exact only_foldl (fun _ _ => only_emit (by decide)) _ s

theorem only_hostStore {use : Nat → DmaUse} {d addr : Nat} {data : Bytes} {s : State} : OnlyParts [.out, .descs, .dma, .arch] s (hostStore use d
    addr data s) := by
  unfold hostStore
  refine only_ite (only_refl _ _) (only_step only_writeOut (by decide) (only_step only_onDesc (by decide) ?_))
  apply only_onHost <;> first | exact .inl (by decide) | exact .inr rfl | exact .inr ⟨rfl, rfl⟩ | exact .inr (by and_intros <;> rfl)

/-- Data written to the host for a command. -/
theorem only_putOut {d addr : Nat} {data : Bytes} {s : State} : OnlyParts [.out, .descs, .dma, .arch] s (putOut d addr data s) := by
  exact only_hostStore

theorem only_dmaRead {use : DmaUse} {addr len : Nat} {s : State} : OnlyParts [.out, .dma, .arch] s (dmaRead use addr len s) := by
  have h : ∀ d : Dma, OnlyParts [.out, .dma, .arch] s (onHost (fun h => { h with dma := h.dma ++ [d], nextTag := h.nextTag + 1 }) s) := by
    intro d
    apply only_onHost <;> first | exact .inl (by decide) | exact .inr rfl | exact .inr ⟨rfl, rfl⟩ | exact .inr (by and_intros <;> rfl)
  unfold dmaRead
  exact only_ite (only_step only_sendMsg (by decide) (h _)) (only_trans (h _) (only_foldl (fun _ _ => only_emit (by decide)) _ _))

/-- A ring command changes no more than what its work changes, beside the end of its descriptor. -/
theorem only_hostCmd {l : List Part} {op d : Nat} {checks : Bytes → List Check} {f : Desc → State → State} {s : State}
    (hl : [Part.rings, .descs, .dma] ⊆ l) (hf : ∀ x, OnlyParts l s (f x s)) : OnlyParts l s (hostCmd op d checks f s) := by
  unfold hostCmd
  split
  · exact only_refl _ _
  · refine only_ite (only_refl _ _) ?_
    split
    · exact only_mono only_finish hl
    · exact only_ite (only_ite (only_mono only_finish hl) (only_refl _ _))
        (only_ite (only_mono only_finish hl) (only_ite (only_refl _ _) (hf _)))

theorem only_meterCmd {l : List Part} {op d : Nat} {retired : Bool} {unknown : Nat × Nat} {checks : Bytes → List Check}
    {f : Desc → Nat → MEntry → State → State} {s : State} (hl : [Part.rings, .descs, .dma] ⊆ l)
    (hf : ∀ x k e, OnlyParts l s (f x k e s)) : OnlyParts l s (meterCmd op d retired unknown checks f s) := by
  refine only_hostCmd hl (fun x => only_ite (only_mono only_finish hl) ?_)
  split
  · exact only_mono only_finish hl
  · exact hf _ _ _

theorem only_statsCmd {l : List Part} {op d len : Nat} {words : State → List Nat} {clear : State → State} {result : State → Bytes} {s : State}
    (hl : [Part.out, .rings, .descs, .dma, .arch] ⊆ l) (hc : ∀ t, OnlyParts l t (clear t)) :
    OnlyParts l s (statsCmd op d len words clear result s) := by
  refine only_hostCmd (List.Subset.trans (by decide) hl) (fun x => ?_)
  have h : OnlyParts l s (putOut d (u64 x.bytes 24) (padTo len ((words s).flatMap (toLE 4))) s) :=
    only_mono only_putOut (List.Subset.trans (by decide) hl)
  exact only_step only_finishOk (List.Subset.trans (by decide) hl) (only_ite (only_trans (only_trans h (hc _)) (only_mono only_onDesc (List.Subset.trans (by decide) hl))) h)

/-! ### The journal (R247, R402) -/

theorem only_mirrorOut {r : JRec} {s : State} : OnlyParts [.out, .pair] s (mirrorOut r s) := by
  unfold mirrorOut
  split
  · exact only_step (only_emit (l := [.out]) (by decide)) (by decide) (only_onPair (by decide))
  · exact only_refl _ _

/-- The parts of the checkpointed structures that a record changes are those its after-images stand in. -/
theorem only_append {l : List Part} {kind short channel flags : Nat} {global : Bool} {body : JBody} {s : State}
    (hj : [Part.journal, .checkpoint, .out, .pair] ⊆ l) (hb : ∀ r : JRec, r.body = body → OnlyParts l s (onDb (fun d => applyRec d r) s)) :
    OnlyParts l s (append kind short channel flags global body s) := by
  have key : ∀ r : JRec, r.body = body → OnlyParts l s (mirrorOut r
      { s with
        db := applyRec s.db r
        jr := { s.jr with next := s.jr.next + 1, open_ := s.jr.open_ ++ [r] }
        fl := { s.fl with cpJournal := s.fl.cpJournal + recLen r } }) := by
    intro r hr
    let a := onDb (fun d => applyRec d r) s
    let b := onJr (fun j => { j with next := j.next + 1, open_ := j.open_ ++ [r] }) a
    have h : OnlyParts [.checkpoint] b (onFl (fun f => { f with cpJournal := f.cpJournal + recLen r }) b) := by
      apply only_onFl <;> first | exact .inl (by decide) | exact .inr rfl | exact .inr ⟨rfl, rfl⟩ | exact .inr (by and_intros <;> rfl)
    exact only_step only_mirrorOut (List.Subset.trans (by decide) hj)
      (only_step h (List.Subset.trans (by decide) hj) (only_trans (hb r hr) (only_onJr (.inl (hj (by simp))))))
  exact key _ rfl

/-! ### The time line (R346, R478, R271) -/

/-- Time that passes changes the time base, the operating seconds and what LEDGER notes of balance intervals. -/
theorem only_ticks {n : Nat} {s : State} : OnlyParts [.now, .counts, .balance, .time, .recorder] s (ticks n s) := by
  have hn : OnlyParts [.balance] s s := only_refl _ _
  have ho : ∀ u : State, OnlyParts [.counts, .recorder] u (tickOp n u) := by
    intro u
    unfold tickOp
    refine only_ite ?_ (only_refl _ _)
    have h1 : OnlyParts [.counts, .recorder] u (onRs (fun r => { r with opNs := (u.rs.opNs + 8 * n) % secNs
                                                                        opSeconds := min (2 ^ 40 - 1) (u.rs.opSeconds + (u.rs.opNs + 8 * n) / secNs) }) u) := by
      apply only_onRs <;> first | exact .inl (by decide) | exact .inr rfl | exact .inr ⟨rfl, rfl⟩ | exact .inr (by and_intros <;> rfl)
    refine only_ite h1 (only_trans h1 ?_)
    apply only_onTel <;> first | exact .inl (by decide) | exact .inr rfl | exact .inr ⟨rfl, rfl⟩ | exact .inr (by and_intros <;> rfl)
  have ht : OnlyParts [.now, .counts, .balance, .time, .recorder] s (tickOp n (onTm (fun t => tickCounter n (tickRtc n t)) { s with now := s.now + 8 * n })) :=
    only_step (ho _) (by decide) (only_step (only_onTm (l := [.time]) (by decide)) (by decide) (only_now (by decide)))
  unfold ticks
  refine only_ite (only_trans ht ?_) ht
  unfold notePasses
  apply only_onDb <;> first | exact .inl (by decide) | exact .inr rfl | exact .inr ⟨rfl, rfl⟩ | exact .inr (by and_intros <;> rfl)

theorem only_passTo {t : Nat} {s : State} : OnlyParts [.now, .counts, .balance, .time, .recorder] s (passTo t s) := by
  unfold passTo
  exact only_ite (only_refl _ _) only_ticks

theorem only_passOp {n : Nat} {s : State} : OnlyParts [.now, .counts, .balance, .time, .recorder] s (passOp n s) := by
  unfold passOp
  exact only_ite (only_refl _ _) only_passTo

theorem only_passClock {t : Int} {s : State} : OnlyParts [.now, .counts, .balance, .time, .recorder] s (passClock t s) := by
  unfold passClock
  generalize 4 = f
  induction f generalizing s with
  | zero => exact only_refl _ _
  | succ f ih =>
    unfold passClockF
    exact only_ite (only_refl _ _) (only_trans only_ticks ih)

end Sys2Proof.Machine
end

