-- ==== Sys2Proof/Laws/State.lean ====
section
/-! SUPPORT. One lemma for each field of State under each updater of Machine/Ops.lean: the field it updates, and the fields it leaves. -/
namespace Sys2Proof.Machine

@[simp] theorem onFab_pending (f) (s : State) : (onFab f s).pending = s.pending := rfl
@[simp] theorem onFab_free (f) (s : State) : (onFab f s).free = s.free := rfl
@[simp] theorem onFab_out (f) (s : State) : (onFab f s).out = s.out := rfl
@[simp] theorem onFab_now (f) (s : State) : (onFab f s).now = s.now := rfl
@[simp] theorem onFab_fab (f) (s : State) : (onFab f s).fab = f s.fab := rfl
@[simp] theorem onFab_isl (f) (s : State) : (onFab f s).isl = s.isl := rfl
@[simp] theorem onFab_pw (f) (s : State) : (onFab f s).pw = s.pw := rfl
@[simp] theorem onFab_rs (f) (s : State) : (onFab f s).rs = s.rs := rfl
@[simp] theorem onFab_host (f) (s : State) : (onFab f s).host = s.host := rfl
@[simp] theorem onFab_tbl (f) (s : State) : (onFab f s).tbl = s.tbl := rfl
@[simp] theorem onFab_sch (f) (s : State) : (onFab f s).sch = s.sch := rfl
@[simp] theorem onFab_ik (f) (s : State) : (onFab f s).ik = s.ik := rfl
@[simp] theorem onFab_cv (f) (s : State) : (onFab f s).cv = s.cv := rfl
@[simp] theorem onFab_db (f) (s : State) : (onFab f s).db = s.db := rfl
@[simp] theorem onFab_jr (f) (s : State) : (onFab f s).jr = s.jr := rfl
@[simp] theorem onFab_lg (f) (s : State) : (onFab f s).lg = s.lg := rfl
@[simp] theorem onFab_plc (f) (s : State) : (onFab f s).plc = s.plc := rfl
@[simp] theorem onFab_rad (f) (s : State) : (onFab f s).rad = s.rad := rfl
@[simp] theorem onFab_wir (f) (s : State) : (onFab f s).wir = s.wir := rfl
@[simp] theorem onFab_tm (f) (s : State) : (onFab f s).tm = s.tm := rfl
@[simp] theorem onFab_arch (f) (s : State) : (onFab f s).arch = s.arch := rfl
@[simp] theorem onFab_pair (f) (s : State) : (onFab f s).pair = s.pair := rfl
@[simp] theorem onFab_pairStore (f) (s : State) : (onFab f s).pairStore = s.pairStore := rfl
@[simp] theorem onFab_keys (f) (s : State) : (onFab f s).keys = s.keys := rfl
@[simp] theorem onFab_fl (f) (s : State) : (onFab f s).fl = s.fl := rfl
@[simp] theorem onFab_img (f) (s : State) : (onFab f s).img = s.img := rfl
@[simp] theorem onFab_tel (f) (s : State) : (onFab f s).tel = s.tel := rfl
@[simp] theorem onFab_opt (f) (s : State) : (onFab f s).opt = s.opt := rfl
@[simp] theorem onFab_optStore (f) (s : State) : (onFab f s).optStore = s.optStore := rfl

@[simp] theorem onPw_pending (f) (s : State) : (onPw f s).pending = s.pending := rfl
@[simp] theorem onPw_free (f) (s : State) : (onPw f s).free = s.free := rfl
@[simp] theorem onPw_out (f) (s : State) : (onPw f s).out = s.out := rfl
@[simp] theorem onPw_now (f) (s : State) : (onPw f s).now = s.now := rfl
@[simp] theorem onPw_fab (f) (s : State) : (onPw f s).fab = s.fab := rfl
@[simp] theorem onPw_isl (f) (s : State) : (onPw f s).isl = s.isl := rfl
@[simp] theorem onPw_pw (f) (s : State) : (onPw f s).pw = f s.pw := rfl
@[simp] theorem onPw_rs (f) (s : State) : (onPw f s).rs = s.rs := rfl
@[simp] theorem onPw_host (f) (s : State) : (onPw f s).host = s.host := rfl
@[simp] theorem onPw_tbl (f) (s : State) : (onPw f s).tbl = s.tbl := rfl
@[simp] theorem onPw_sch (f) (s : State) : (onPw f s).sch = s.sch := rfl
@[simp] theorem onPw_ik (f) (s : State) : (onPw f s).ik = s.ik := rfl
@[simp] theorem onPw_cv (f) (s : State) : (onPw f s).cv = s.cv := rfl
@[simp] theorem onPw_db (f) (s : State) : (onPw f s).db = s.db := rfl
@[simp] theorem onPw_jr (f) (s : State) : (onPw f s).jr = s.jr := rfl
@[simp] theorem onPw_lg (f) (s : State) : (onPw f s).lg = s.lg := rfl
@[simp] theorem onPw_plc (f) (s : State) : (onPw f s).plc = s.plc := rfl
@[simp] theorem onPw_rad (f) (s : State) : (onPw f s).rad = s.rad := rfl
@[simp] theorem onPw_wir (f) (s : State) : (onPw f s).wir = s.wir := rfl
@[simp] theorem onPw_tm (f) (s : State) : (onPw f s).tm = s.tm := rfl
@[simp] theorem onPw_arch (f) (s : State) : (onPw f s).arch = s.arch := rfl
@[simp] theorem onPw_pair (f) (s : State) : (onPw f s).pair = s.pair := rfl
@[simp] theorem onPw_pairStore (f) (s : State) : (onPw f s).pairStore = s.pairStore := rfl
@[simp] theorem onPw_keys (f) (s : State) : (onPw f s).keys = s.keys := rfl
@[simp] theorem onPw_fl (f) (s : State) : (onPw f s).fl = s.fl := rfl
@[simp] theorem onPw_img (f) (s : State) : (onPw f s).img = s.img := rfl
@[simp] theorem onPw_tel (f) (s : State) : (onPw f s).tel = s.tel := rfl
@[simp] theorem onPw_opt (f) (s : State) : (onPw f s).opt = s.opt := rfl
@[simp] theorem onPw_optStore (f) (s : State) : (onPw f s).optStore = s.optStore := rfl

@[simp] theorem onRs_pending (f) (s : State) : (onRs f s).pending = s.pending := rfl
@[simp] theorem onRs_free (f) (s : State) : (onRs f s).free = s.free := rfl
@[simp] theorem onRs_out (f) (s : State) : (onRs f s).out = s.out := rfl
@[simp] theorem onRs_now (f) (s : State) : (onRs f s).now = s.now := rfl
@[simp] theorem onRs_fab (f) (s : State) : (onRs f s).fab = s.fab := rfl
@[simp] theorem onRs_isl (f) (s : State) : (onRs f s).isl = s.isl := rfl
@[simp] theorem onRs_pw (f) (s : State) : (onRs f s).pw = s.pw := rfl
@[simp] theorem onRs_rs (f) (s : State) : (onRs f s).rs = f s.rs := rfl
@[simp] theorem onRs_host (f) (s : State) : (onRs f s).host = s.host := rfl
@[simp] theorem onRs_tbl (f) (s : State) : (onRs f s).tbl = s.tbl := rfl
@[simp] theorem onRs_sch (f) (s : State) : (onRs f s).sch = s.sch := rfl
@[simp] theorem onRs_ik (f) (s : State) : (onRs f s).ik = s.ik := rfl
@[simp] theorem onRs_cv (f) (s : State) : (onRs f s).cv = s.cv := rfl
@[simp] theorem onRs_db (f) (s : State) : (onRs f s).db = s.db := rfl
@[simp] theorem onRs_jr (f) (s : State) : (onRs f s).jr = s.jr := rfl
@[simp] theorem onRs_lg (f) (s : State) : (onRs f s).lg = s.lg := rfl
@[simp] theorem onRs_plc (f) (s : State) : (onRs f s).plc = s.plc := rfl
@[simp] theorem onRs_rad (f) (s : State) : (onRs f s).rad = s.rad := rfl
@[simp] theorem onRs_wir (f) (s : State) : (onRs f s).wir = s.wir := rfl
@[simp] theorem onRs_tm (f) (s : State) : (onRs f s).tm = s.tm := rfl
@[simp] theorem onRs_arch (f) (s : State) : (onRs f s).arch = s.arch := rfl
@[simp] theorem onRs_pair (f) (s : State) : (onRs f s).pair = s.pair := rfl
@[simp] theorem onRs_pairStore (f) (s : State) : (onRs f s).pairStore = s.pairStore := rfl
@[simp] theorem onRs_keys (f) (s : State) : (onRs f s).keys = s.keys := rfl
@[simp] theorem onRs_fl (f) (s : State) : (onRs f s).fl = s.fl := rfl
@[simp] theorem onRs_img (f) (s : State) : (onRs f s).img = s.img := rfl
@[simp] theorem onRs_tel (f) (s : State) : (onRs f s).tel = s.tel := rfl
@[simp] theorem onRs_opt (f) (s : State) : (onRs f s).opt = s.opt := rfl
@[simp] theorem onRs_optStore (f) (s : State) : (onRs f s).optStore = s.optStore := rfl

@[simp] theorem onHost_pending (f) (s : State) : (onHost f s).pending = s.pending := rfl
@[simp] theorem onHost_free (f) (s : State) : (onHost f s).free = s.free := rfl
@[simp] theorem onHost_out (f) (s : State) : (onHost f s).out = s.out := rfl
@[simp] theorem onHost_now (f) (s : State) : (onHost f s).now = s.now := rfl
@[simp] theorem onHost_fab (f) (s : State) : (onHost f s).fab = s.fab := rfl
@[simp] theorem onHost_isl (f) (s : State) : (onHost f s).isl = s.isl := rfl
@[simp] theorem onHost_pw (f) (s : State) : (onHost f s).pw = s.pw := rfl
@[simp] theorem onHost_rs (f) (s : State) : (onHost f s).rs = s.rs := rfl
@[simp] theorem onHost_host (f) (s : State) : (onHost f s).host = f s.host := rfl
@[simp] theorem onHost_tbl (f) (s : State) : (onHost f s).tbl = s.tbl := rfl
@[simp] theorem onHost_sch (f) (s : State) : (onHost f s).sch = s.sch := rfl
@[simp] theorem onHost_ik (f) (s : State) : (onHost f s).ik = s.ik := rfl
@[simp] theorem onHost_cv (f) (s : State) : (onHost f s).cv = s.cv := rfl
@[simp] theorem onHost_db (f) (s : State) : (onHost f s).db = s.db := rfl
@[simp] theorem onHost_jr (f) (s : State) : (onHost f s).jr = s.jr := rfl
@[simp] theorem onHost_lg (f) (s : State) : (onHost f s).lg = s.lg := rfl
@[simp] theorem onHost_plc (f) (s : State) : (onHost f s).plc = s.plc := rfl
@[simp] theorem onHost_rad (f) (s : State) : (onHost f s).rad = s.rad := rfl
@[simp] theorem onHost_wir (f) (s : State) : (onHost f s).wir = s.wir := rfl
@[simp] theorem onHost_tm (f) (s : State) : (onHost f s).tm = s.tm := rfl
@[simp] theorem onHost_arch (f) (s : State) : (onHost f s).arch = s.arch := rfl
@[simp] theorem onHost_pair (f) (s : State) : (onHost f s).pair = s.pair := rfl
@[simp] theorem onHost_pairStore (f) (s : State) : (onHost f s).pairStore = s.pairStore := rfl
@[simp] theorem onHost_keys (f) (s : State) : (onHost f s).keys = s.keys := rfl
@[simp] theorem onHost_fl (f) (s : State) : (onHost f s).fl = s.fl := rfl
@[simp] theorem onHost_img (f) (s : State) : (onHost f s).img = s.img := rfl
@[simp] theorem onHost_tel (f) (s : State) : (onHost f s).tel = s.tel := rfl
@[simp] theorem onHost_opt (f) (s : State) : (onHost f s).opt = s.opt := rfl
@[simp] theorem onHost_optStore (f) (s : State) : (onHost f s).optStore = s.optStore := rfl

@[simp] theorem onTbl_pending (f) (s : State) : (onTbl f s).pending = s.pending := rfl
@[simp] theorem onTbl_free (f) (s : State) : (onTbl f s).free = s.free := rfl
@[simp] theorem onTbl_out (f) (s : State) : (onTbl f s).out = s.out := rfl
@[simp] theorem onTbl_now (f) (s : State) : (onTbl f s).now = s.now := rfl
@[simp] theorem onTbl_fab (f) (s : State) : (onTbl f s).fab = s.fab := rfl
@[simp] theorem onTbl_isl (f) (s : State) : (onTbl f s).isl = s.isl := rfl
@[simp] theorem onTbl_pw (f) (s : State) : (onTbl f s).pw = s.pw := rfl
@[simp] theorem onTbl_rs (f) (s : State) : (onTbl f s).rs = s.rs := rfl
@[simp] theorem onTbl_host (f) (s : State) : (onTbl f s).host = s.host := rfl
@[simp] theorem onTbl_tbl (f) (s : State) : (onTbl f s).tbl = f s.tbl := rfl
@[simp] theorem onTbl_sch (f) (s : State) : (onTbl f s).sch = s.sch := rfl
@[simp] theorem onTbl_ik (f) (s : State) : (onTbl f s).ik = s.ik := rfl
@[simp] theorem onTbl_cv (f) (s : State) : (onTbl f s).cv = s.cv := rfl
@[simp] theorem onTbl_db (f) (s : State) : (onTbl f s).db = s.db := rfl
@[simp] theorem onTbl_jr (f) (s : State) : (onTbl f s).jr = s.jr := rfl
@[simp] theorem onTbl_lg (f) (s : State) : (onTbl f s).lg = s.lg := rfl
@[simp] theorem onTbl_plc (f) (s : State) : (onTbl f s).plc = s.plc := rfl
@[simp] theorem onTbl_rad (f) (s : State) : (onTbl f s).rad = s.rad := rfl
@[simp] theorem onTbl_wir (f) (s : State) : (onTbl f s).wir = s.wir := rfl
@[simp] theorem onTbl_tm (f) (s : State) : (onTbl f s).tm = s.tm := rfl
@[simp] theorem onTbl_arch (f) (s : State) : (onTbl f s).arch = s.arch := rfl
@[simp] theorem onTbl_pair (f) (s : State) : (onTbl f s).pair = s.pair := rfl
@[simp] theorem onTbl_pairStore (f) (s : State) : (onTbl f s).pairStore = s.pairStore := rfl
@[simp] theorem onTbl_keys (f) (s : State) : (onTbl f s).keys = s.keys := rfl
@[simp] theorem onTbl_fl (f) (s : State) : (onTbl f s).fl = s.fl := rfl
@[simp] theorem onTbl_img (f) (s : State) : (onTbl f s).img = s.img := rfl
@[simp] theorem onTbl_tel (f) (s : State) : (onTbl f s).tel = s.tel := rfl
@[simp] theorem onTbl_opt (f) (s : State) : (onTbl f s).opt = s.opt := rfl
@[simp] theorem onTbl_optStore (f) (s : State) : (onTbl f s).optStore = s.optStore := rfl

@[simp] theorem onSch_pending (f) (s : State) : (onSch f s).pending = s.pending := rfl
@[simp] theorem onSch_free (f) (s : State) : (onSch f s).free = s.free := rfl
@[simp] theorem onSch_out (f) (s : State) : (onSch f s).out = s.out := rfl
@[simp] theorem onSch_now (f) (s : State) : (onSch f s).now = s.now := rfl
@[simp] theorem onSch_fab (f) (s : State) : (onSch f s).fab = s.fab := rfl
@[simp] theorem onSch_isl (f) (s : State) : (onSch f s).isl = s.isl := rfl
@[simp] theorem onSch_pw (f) (s : State) : (onSch f s).pw = s.pw := rfl
@[simp] theorem onSch_rs (f) (s : State) : (onSch f s).rs = s.rs := rfl
@[simp] theorem onSch_host (f) (s : State) : (onSch f s).host = s.host := rfl
@[simp] theorem onSch_tbl (f) (s : State) : (onSch f s).tbl = s.tbl := rfl
@[simp] theorem onSch_sch (f) (s : State) : (onSch f s).sch = f s.sch := rfl
@[simp] theorem onSch_ik (f) (s : State) : (onSch f s).ik = s.ik := rfl
@[simp] theorem onSch_cv (f) (s : State) : (onSch f s).cv = s.cv := rfl
@[simp] theorem onSch_db (f) (s : State) : (onSch f s).db = s.db := rfl
@[simp] theorem onSch_jr (f) (s : State) : (onSch f s).jr = s.jr := rfl
@[simp] theorem onSch_lg (f) (s : State) : (onSch f s).lg = s.lg := rfl
@[simp] theorem onSch_plc (f) (s : State) : (onSch f s).plc = s.plc := rfl
@[simp] theorem onSch_rad (f) (s : State) : (onSch f s).rad = s.rad := rfl
@[simp] theorem onSch_wir (f) (s : State) : (onSch f s).wir = s.wir := rfl
@[simp] theorem onSch_tm (f) (s : State) : (onSch f s).tm = s.tm := rfl
@[simp] theorem onSch_arch (f) (s : State) : (onSch f s).arch = s.arch := rfl
@[simp] theorem onSch_pair (f) (s : State) : (onSch f s).pair = s.pair := rfl
@[simp] theorem onSch_pairStore (f) (s : State) : (onSch f s).pairStore = s.pairStore := rfl
@[simp] theorem onSch_keys (f) (s : State) : (onSch f s).keys = s.keys := rfl
@[simp] theorem onSch_fl (f) (s : State) : (onSch f s).fl = s.fl := rfl
@[simp] theorem onSch_img (f) (s : State) : (onSch f s).img = s.img := rfl
@[simp] theorem onSch_tel (f) (s : State) : (onSch f s).tel = s.tel := rfl
@[simp] theorem onSch_opt (f) (s : State) : (onSch f s).opt = s.opt := rfl
@[simp] theorem onSch_optStore (f) (s : State) : (onSch f s).optStore = s.optStore := rfl

@[simp] theorem onIk_pending (f) (s : State) : (onIk f s).pending = s.pending := rfl
@[simp] theorem onIk_free (f) (s : State) : (onIk f s).free = s.free := rfl
@[simp] theorem onIk_out (f) (s : State) : (onIk f s).out = s.out := rfl
@[simp] theorem onIk_now (f) (s : State) : (onIk f s).now = s.now := rfl
@[simp] theorem onIk_fab (f) (s : State) : (onIk f s).fab = s.fab := rfl
@[simp] theorem onIk_isl (f) (s : State) : (onIk f s).isl = s.isl := rfl
@[simp] theorem onIk_pw (f) (s : State) : (onIk f s).pw = s.pw := rfl
@[simp] theorem onIk_rs (f) (s : State) : (onIk f s).rs = s.rs := rfl
@[simp] theorem onIk_host (f) (s : State) : (onIk f s).host = s.host := rfl
@[simp] theorem onIk_tbl (f) (s : State) : (onIk f s).tbl = s.tbl := rfl
@[simp] theorem onIk_sch (f) (s : State) : (onIk f s).sch = s.sch := rfl
@[simp] theorem onIk_ik (f) (s : State) : (onIk f s).ik = f s.ik := rfl
@[simp] theorem onIk_cv (f) (s : State) : (onIk f s).cv = s.cv := rfl
@[simp] theorem onIk_db (f) (s : State) : (onIk f s).db = s.db := rfl
@[simp] theorem onIk_jr (f) (s : State) : (onIk f s).jr = s.jr := rfl
@[simp] theorem onIk_lg (f) (s : State) : (onIk f s).lg = s.lg := rfl
@[simp] theorem onIk_plc (f) (s : State) : (onIk f s).plc = s.plc := rfl
@[simp] theorem onIk_rad (f) (s : State) : (onIk f s).rad = s.rad := rfl
@[simp] theorem onIk_wir (f) (s : State) : (onIk f s).wir = s.wir := rfl
@[simp] theorem onIk_tm (f) (s : State) : (onIk f s).tm = s.tm := rfl
@[simp] theorem onIk_arch (f) (s : State) : (onIk f s).arch = s.arch := rfl
@[simp] theorem onIk_pair (f) (s : State) : (onIk f s).pair = s.pair := rfl
@[simp] theorem onIk_pairStore (f) (s : State) : (onIk f s).pairStore = s.pairStore := rfl
@[simp] theorem onIk_keys (f) (s : State) : (onIk f s).keys = s.keys := rfl
@[simp] theorem onIk_fl (f) (s : State) : (onIk f s).fl = s.fl := rfl
@[simp] theorem onIk_img (f) (s : State) : (onIk f s).img = s.img := rfl
@[simp] theorem onIk_tel (f) (s : State) : (onIk f s).tel = s.tel := rfl
@[simp] theorem onIk_opt (f) (s : State) : (onIk f s).opt = s.opt := rfl
@[simp] theorem onIk_optStore (f) (s : State) : (onIk f s).optStore = s.optStore := rfl

@[simp] theorem onCv_pending (f) (s : State) : (onCv f s).pending = s.pending := rfl
@[simp] theorem onCv_free (f) (s : State) : (onCv f s).free = s.free := rfl
@[simp] theorem onCv_out (f) (s : State) : (onCv f s).out = s.out := rfl
@[simp] theorem onCv_now (f) (s : State) : (onCv f s).now = s.now := rfl
@[simp] theorem onCv_fab (f) (s : State) : (onCv f s).fab = s.fab := rfl
@[simp] theorem onCv_isl (f) (s : State) : (onCv f s).isl = s.isl := rfl
@[simp] theorem onCv_pw (f) (s : State) : (onCv f s).pw = s.pw := rfl
@[simp] theorem onCv_rs (f) (s : State) : (onCv f s).rs = s.rs := rfl
@[simp] theorem onCv_host (f) (s : State) : (onCv f s).host = s.host := rfl
@[simp] theorem onCv_tbl (f) (s : State) : (onCv f s).tbl = s.tbl := rfl
@[simp] theorem onCv_sch (f) (s : State) : (onCv f s).sch = s.sch := rfl
@[simp] theorem onCv_ik (f) (s : State) : (onCv f s).ik = s.ik := rfl
@[simp] theorem onCv_cv (f) (s : State) : (onCv f s).cv = f s.cv := rfl
@[simp] theorem onCv_db (f) (s : State) : (onCv f s).db = s.db := rfl
@[simp] theorem onCv_jr (f) (s : State) : (onCv f s).jr = s.jr := rfl
@[simp] theorem onCv_lg (f) (s : State) : (onCv f s).lg = s.lg := rfl
@[simp] theorem onCv_plc (f) (s : State) : (onCv f s).plc = s.plc := rfl
@[simp] theorem onCv_rad (f) (s : State) : (onCv f s).rad = s.rad := rfl
@[simp] theorem onCv_wir (f) (s : State) : (onCv f s).wir = s.wir := rfl
@[simp] theorem onCv_tm (f) (s : State) : (onCv f s).tm = s.tm := rfl
@[simp] theorem onCv_arch (f) (s : State) : (onCv f s).arch = s.arch := rfl
@[simp] theorem onCv_pair (f) (s : State) : (onCv f s).pair = s.pair := rfl
@[simp] theorem onCv_pairStore (f) (s : State) : (onCv f s).pairStore = s.pairStore := rfl
@[simp] theorem onCv_keys (f) (s : State) : (onCv f s).keys = s.keys := rfl
@[simp] theorem onCv_fl (f) (s : State) : (onCv f s).fl = s.fl := rfl
@[simp] theorem onCv_img (f) (s : State) : (onCv f s).img = s.img := rfl
@[simp] theorem onCv_tel (f) (s : State) : (onCv f s).tel = s.tel := rfl
@[simp] theorem onCv_opt (f) (s : State) : (onCv f s).opt = s.opt := rfl
@[simp] theorem onCv_optStore (f) (s : State) : (onCv f s).optStore = s.optStore := rfl

@[simp] theorem onDb_pending (f) (s : State) : (onDb f s).pending = s.pending := rfl
@[simp] theorem onDb_free (f) (s : State) : (onDb f s).free = s.free := rfl
@[simp] theorem onDb_out (f) (s : State) : (onDb f s).out = s.out := rfl
@[simp] theorem onDb_now (f) (s : State) : (onDb f s).now = s.now := rfl
@[simp] theorem onDb_fab (f) (s : State) : (onDb f s).fab = s.fab := rfl
@[simp] theorem onDb_isl (f) (s : State) : (onDb f s).isl = s.isl := rfl
@[simp] theorem onDb_pw (f) (s : State) : (onDb f s).pw = s.pw := rfl
@[simp] theorem onDb_rs (f) (s : State) : (onDb f s).rs = s.rs := rfl
@[simp] theorem onDb_host (f) (s : State) : (onDb f s).host = s.host := rfl
@[simp] theorem onDb_tbl (f) (s : State) : (onDb f s).tbl = s.tbl := rfl
@[simp] theorem onDb_sch (f) (s : State) : (onDb f s).sch = s.sch := rfl
@[simp] theorem onDb_ik (f) (s : State) : (onDb f s).ik = s.ik := rfl
@[simp] theorem onDb_cv (f) (s : State) : (onDb f s).cv = s.cv := rfl
@[simp] theorem onDb_db (f) (s : State) : (onDb f s).db = f s.db := rfl
@[simp] theorem onDb_jr (f) (s : State) : (onDb f s).jr = s.jr := rfl
@[simp] theorem onDb_lg (f) (s : State) : (onDb f s).lg = s.lg := rfl
@[simp] theorem onDb_plc (f) (s : State) : (onDb f s).plc = s.plc := rfl
@[simp] theorem onDb_rad (f) (s : State) : (onDb f s).rad = s.rad := rfl
@[simp] theorem onDb_wir (f) (s : State) : (onDb f s).wir = s.wir := rfl
@[simp] theorem onDb_tm (f) (s : State) : (onDb f s).tm = s.tm := rfl
@[simp] theorem onDb_arch (f) (s : State) : (onDb f s).arch = s.arch := rfl
@[simp] theorem onDb_pair (f) (s : State) : (onDb f s).pair = s.pair := rfl
@[simp] theorem onDb_pairStore (f) (s : State) : (onDb f s).pairStore = s.pairStore := rfl
@[simp] theorem onDb_keys (f) (s : State) : (onDb f s).keys = s.keys := rfl
@[simp] theorem onDb_fl (f) (s : State) : (onDb f s).fl = s.fl := rfl
@[simp] theorem onDb_img (f) (s : State) : (onDb f s).img = s.img := rfl
@[simp] theorem onDb_tel (f) (s : State) : (onDb f s).tel = s.tel := rfl
@[simp] theorem onDb_opt (f) (s : State) : (onDb f s).opt = s.opt := rfl
@[simp] theorem onDb_optStore (f) (s : State) : (onDb f s).optStore = s.optStore := rfl

@[simp] theorem onJr_pending (f) (s : State) : (onJr f s).pending = s.pending := rfl
@[simp] theorem onJr_free (f) (s : State) : (onJr f s).free = s.free := rfl
@[simp] theorem onJr_out (f) (s : State) : (onJr f s).out = s.out := rfl
@[simp] theorem onJr_now (f) (s : State) : (onJr f s).now = s.now := rfl
@[simp] theorem onJr_fab (f) (s : State) : (onJr f s).fab = s.fab := rfl
@[simp] theorem onJr_isl (f) (s : State) : (onJr f s).isl = s.isl := rfl
@[simp] theorem onJr_pw (f) (s : State) : (onJr f s).pw = s.pw := rfl
@[simp] theorem onJr_rs (f) (s : State) : (onJr f s).rs = s.rs := rfl
@[simp] theorem onJr_host (f) (s : State) : (onJr f s).host = s.host := rfl
@[simp] theorem onJr_tbl (f) (s : State) : (onJr f s).tbl = s.tbl := rfl
@[simp] theorem onJr_sch (f) (s : State) : (onJr f s).sch = s.sch := rfl
@[simp] theorem onJr_ik (f) (s : State) : (onJr f s).ik = s.ik := rfl
@[simp] theorem onJr_cv (f) (s : State) : (onJr f s).cv = s.cv := rfl
@[simp] theorem onJr_db (f) (s : State) : (onJr f s).db = s.db := rfl
@[simp] theorem onJr_jr (f) (s : State) : (onJr f s).jr = f s.jr := rfl
@[simp] theorem onJr_lg (f) (s : State) : (onJr f s).lg = s.lg := rfl
@[simp] theorem onJr_plc (f) (s : State) : (onJr f s).plc = s.plc := rfl
@[simp] theorem onJr_rad (f) (s : State) : (onJr f s).rad = s.rad := rfl
@[simp] theorem onJr_wir (f) (s : State) : (onJr f s).wir = s.wir := rfl
@[simp] theorem onJr_tm (f) (s : State) : (onJr f s).tm = s.tm := rfl
@[simp] theorem onJr_arch (f) (s : State) : (onJr f s).arch = s.arch := rfl
@[simp] theorem onJr_pair (f) (s : State) : (onJr f s).pair = s.pair := rfl
@[simp] theorem onJr_pairStore (f) (s : State) : (onJr f s).pairStore = s.pairStore := rfl
@[simp] theorem onJr_keys (f) (s : State) : (onJr f s).keys = s.keys := rfl
@[simp] theorem onJr_fl (f) (s : State) : (onJr f s).fl = s.fl := rfl
@[simp] theorem onJr_img (f) (s : State) : (onJr f s).img = s.img := rfl
@[simp] theorem onJr_tel (f) (s : State) : (onJr f s).tel = s.tel := rfl
@[simp] theorem onJr_opt (f) (s : State) : (onJr f s).opt = s.opt := rfl
@[simp] theorem onJr_optStore (f) (s : State) : (onJr f s).optStore = s.optStore := rfl

@[simp] theorem onLg_pending (f) (s : State) : (onLg f s).pending = s.pending := rfl
@[simp] theorem onLg_free (f) (s : State) : (onLg f s).free = s.free := rfl
@[simp] theorem onLg_out (f) (s : State) : (onLg f s).out = s.out := rfl
@[simp] theorem onLg_now (f) (s : State) : (onLg f s).now = s.now := rfl
@[simp] theorem onLg_fab (f) (s : State) : (onLg f s).fab = s.fab := rfl
@[simp] theorem onLg_isl (f) (s : State) : (onLg f s).isl = s.isl := rfl
@[simp] theorem onLg_pw (f) (s : State) : (onLg f s).pw = s.pw := rfl
@[simp] theorem onLg_rs (f) (s : State) : (onLg f s).rs = s.rs := rfl
@[simp] theorem onLg_host (f) (s : State) : (onLg f s).host = s.host := rfl
@[simp] theorem onLg_tbl (f) (s : State) : (onLg f s).tbl = s.tbl := rfl
@[simp] theorem onLg_sch (f) (s : State) : (onLg f s).sch = s.sch := rfl
@[simp] theorem onLg_ik (f) (s : State) : (onLg f s).ik = s.ik := rfl
@[simp] theorem onLg_cv (f) (s : State) : (onLg f s).cv = s.cv := rfl
@[simp] theorem onLg_db (f) (s : State) : (onLg f s).db = s.db := rfl
@[simp] theorem onLg_jr (f) (s : State) : (onLg f s).jr = s.jr := rfl
@[simp] theorem onLg_lg (f) (s : State) : (onLg f s).lg = f s.lg := rfl
@[simp] theorem onLg_plc (f) (s : State) : (onLg f s).plc = s.plc := rfl
@[simp] theorem onLg_rad (f) (s : State) : (onLg f s).rad = s.rad := rfl
@[simp] theorem onLg_wir (f) (s : State) : (onLg f s).wir = s.wir := rfl
@[simp] theorem onLg_tm (f) (s : State) : (onLg f s).tm = s.tm := rfl
@[simp] theorem onLg_arch (f) (s : State) : (onLg f s).arch = s.arch := rfl
@[simp] theorem onLg_pair (f) (s : State) : (onLg f s).pair = s.pair := rfl
@[simp] theorem onLg_pairStore (f) (s : State) : (onLg f s).pairStore = s.pairStore := rfl
@[simp] theorem onLg_keys (f) (s : State) : (onLg f s).keys = s.keys := rfl
@[simp] theorem onLg_fl (f) (s : State) : (onLg f s).fl = s.fl := rfl
@[simp] theorem onLg_img (f) (s : State) : (onLg f s).img = s.img := rfl
@[simp] theorem onLg_tel (f) (s : State) : (onLg f s).tel = s.tel := rfl
@[simp] theorem onLg_opt (f) (s : State) : (onLg f s).opt = s.opt := rfl
@[simp] theorem onLg_optStore (f) (s : State) : (onLg f s).optStore = s.optStore := rfl

@[simp] theorem onPlc_pending (f) (s : State) : (onPlc f s).pending = s.pending := rfl
@[simp] theorem onPlc_free (f) (s : State) : (onPlc f s).free = s.free := rfl
@[simp] theorem onPlc_out (f) (s : State) : (onPlc f s).out = s.out := rfl
@[simp] theorem onPlc_now (f) (s : State) : (onPlc f s).now = s.now := rfl
@[simp] theorem onPlc_fab (f) (s : State) : (onPlc f s).fab = s.fab := rfl
@[simp] theorem onPlc_isl (f) (s : State) : (onPlc f s).isl = s.isl := rfl
@[simp] theorem onPlc_pw (f) (s : State) : (onPlc f s).pw = s.pw := rfl
@[simp] theorem onPlc_rs (f) (s : State) : (onPlc f s).rs = s.rs := rfl
@[simp] theorem onPlc_host (f) (s : State) : (onPlc f s).host = s.host := rfl
@[simp] theorem onPlc_tbl (f) (s : State) : (onPlc f s).tbl = s.tbl := rfl
@[simp] theorem onPlc_sch (f) (s : State) : (onPlc f s).sch = s.sch := rfl
@[simp] theorem onPlc_ik (f) (s : State) : (onPlc f s).ik = s.ik := rfl
@[simp] theorem onPlc_cv (f) (s : State) : (onPlc f s).cv = s.cv := rfl
@[simp] theorem onPlc_db (f) (s : State) : (onPlc f s).db = s.db := rfl
@[simp] theorem onPlc_jr (f) (s : State) : (onPlc f s).jr = s.jr := rfl
@[simp] theorem onPlc_lg (f) (s : State) : (onPlc f s).lg = s.lg := rfl
@[simp] theorem onPlc_plc (f) (s : State) : (onPlc f s).plc = f s.plc := rfl
@[simp] theorem onPlc_rad (f) (s : State) : (onPlc f s).rad = s.rad := rfl
@[simp] theorem onPlc_wir (f) (s : State) : (onPlc f s).wir = s.wir := rfl
@[simp] theorem onPlc_tm (f) (s : State) : (onPlc f s).tm = s.tm := rfl
@[simp] theorem onPlc_arch (f) (s : State) : (onPlc f s).arch = s.arch := rfl
@[simp] theorem onPlc_pair (f) (s : State) : (onPlc f s).pair = s.pair := rfl
@[simp] theorem onPlc_pairStore (f) (s : State) : (onPlc f s).pairStore = s.pairStore := rfl
@[simp] theorem onPlc_keys (f) (s : State) : (onPlc f s).keys = s.keys := rfl
@[simp] theorem onPlc_fl (f) (s : State) : (onPlc f s).fl = s.fl := rfl
@[simp] theorem onPlc_img (f) (s : State) : (onPlc f s).img = s.img := rfl
@[simp] theorem onPlc_tel (f) (s : State) : (onPlc f s).tel = s.tel := rfl
@[simp] theorem onPlc_opt (f) (s : State) : (onPlc f s).opt = s.opt := rfl
@[simp] theorem onPlc_optStore (f) (s : State) : (onPlc f s).optStore = s.optStore := rfl

@[simp] theorem onRad_pending (f) (s : State) : (onRad f s).pending = s.pending := rfl
@[simp] theorem onRad_free (f) (s : State) : (onRad f s).free = s.free := rfl
@[simp] theorem onRad_out (f) (s : State) : (onRad f s).out = s.out := rfl
@[simp] theorem onRad_now (f) (s : State) : (onRad f s).now = s.now := rfl
@[simp] theorem onRad_fab (f) (s : State) : (onRad f s).fab = s.fab := rfl
@[simp] theorem onRad_isl (f) (s : State) : (onRad f s).isl = s.isl := rfl
@[simp] theorem onRad_pw (f) (s : State) : (onRad f s).pw = s.pw := rfl
@[simp] theorem onRad_rs (f) (s : State) : (onRad f s).rs = s.rs := rfl
@[simp] theorem onRad_host (f) (s : State) : (onRad f s).host = s.host := rfl
@[simp] theorem onRad_tbl (f) (s : State) : (onRad f s).tbl = s.tbl := rfl
@[simp] theorem onRad_sch (f) (s : State) : (onRad f s).sch = s.sch := rfl
@[simp] theorem onRad_ik (f) (s : State) : (onRad f s).ik = s.ik := rfl
@[simp] theorem onRad_cv (f) (s : State) : (onRad f s).cv = s.cv := rfl
@[simp] theorem onRad_db (f) (s : State) : (onRad f s).db = s.db := rfl
@[simp] theorem onRad_jr (f) (s : State) : (onRad f s).jr = s.jr := rfl
@[simp] theorem onRad_lg (f) (s : State) : (onRad f s).lg = s.lg := rfl
@[simp] theorem onRad_plc (f) (s : State) : (onRad f s).plc = s.plc := rfl
@[simp] theorem onRad_rad (f) (s : State) : (onRad f s).rad = f s.rad := rfl
@[simp] theorem onRad_wir (f) (s : State) : (onRad f s).wir = s.wir := rfl
@[simp] theorem onRad_tm (f) (s : State) : (onRad f s).tm = s.tm := rfl
@[simp] theorem onRad_arch (f) (s : State) : (onRad f s).arch = s.arch := rfl
@[simp] theorem onRad_pair (f) (s : State) : (onRad f s).pair = s.pair := rfl
@[simp] theorem onRad_pairStore (f) (s : State) : (onRad f s).pairStore = s.pairStore := rfl
@[simp] theorem onRad_keys (f) (s : State) : (onRad f s).keys = s.keys := rfl
@[simp] theorem onRad_fl (f) (s : State) : (onRad f s).fl = s.fl := rfl
@[simp] theorem onRad_img (f) (s : State) : (onRad f s).img = s.img := rfl
@[simp] theorem onRad_tel (f) (s : State) : (onRad f s).tel = s.tel := rfl
@[simp] theorem onRad_opt (f) (s : State) : (onRad f s).opt = s.opt := rfl
@[simp] theorem onRad_optStore (f) (s : State) : (onRad f s).optStore = s.optStore := rfl

@[simp] theorem onWir_pending (f) (s : State) : (onWir f s).pending = s.pending := rfl
@[simp] theorem onWir_free (f) (s : State) : (onWir f s).free = s.free := rfl
@[simp] theorem onWir_out (f) (s : State) : (onWir f s).out = s.out := rfl
@[simp] theorem onWir_now (f) (s : State) : (onWir f s).now = s.now := rfl
@[simp] theorem onWir_fab (f) (s : State) : (onWir f s).fab = s.fab := rfl
@[simp] theorem onWir_isl (f) (s : State) : (onWir f s).isl = s.isl := rfl
@[simp] theorem onWir_pw (f) (s : State) : (onWir f s).pw = s.pw := rfl
@[simp] theorem onWir_rs (f) (s : State) : (onWir f s).rs = s.rs := rfl
@[simp] theorem onWir_host (f) (s : State) : (onWir f s).host = s.host := rfl
@[simp] theorem onWir_tbl (f) (s : State) : (onWir f s).tbl = s.tbl := rfl
@[simp] theorem onWir_sch (f) (s : State) : (onWir f s).sch = s.sch := rfl
@[simp] theorem onWir_ik (f) (s : State) : (onWir f s).ik = s.ik := rfl
@[simp] theorem onWir_cv (f) (s : State) : (onWir f s).cv = s.cv := rfl
@[simp] theorem onWir_db (f) (s : State) : (onWir f s).db = s.db := rfl
@[simp] theorem onWir_jr (f) (s : State) : (onWir f s).jr = s.jr := rfl
@[simp] theorem onWir_lg (f) (s : State) : (onWir f s).lg = s.lg := rfl
@[simp] theorem onWir_plc (f) (s : State) : (onWir f s).plc = s.plc := rfl
@[simp] theorem onWir_rad (f) (s : State) : (onWir f s).rad = s.rad := rfl
@[simp] theorem onWir_wir (f) (s : State) : (onWir f s).wir = f s.wir := rfl
@[simp] theorem onWir_tm (f) (s : State) : (onWir f s).tm = s.tm := rfl
@[simp] theorem onWir_arch (f) (s : State) : (onWir f s).arch = s.arch := rfl
@[simp] theorem onWir_pair (f) (s : State) : (onWir f s).pair = s.pair := rfl
@[simp] theorem onWir_pairStore (f) (s : State) : (onWir f s).pairStore = s.pairStore := rfl
@[simp] theorem onWir_keys (f) (s : State) : (onWir f s).keys = s.keys := rfl
@[simp] theorem onWir_fl (f) (s : State) : (onWir f s).fl = s.fl := rfl
@[simp] theorem onWir_img (f) (s : State) : (onWir f s).img = s.img := rfl
@[simp] theorem onWir_tel (f) (s : State) : (onWir f s).tel = s.tel := rfl
@[simp] theorem onWir_opt (f) (s : State) : (onWir f s).opt = s.opt := rfl
@[simp] theorem onWir_optStore (f) (s : State) : (onWir f s).optStore = s.optStore := rfl

@[simp] theorem onTm_pending (f) (s : State) : (onTm f s).pending = s.pending := rfl
@[simp] theorem onTm_free (f) (s : State) : (onTm f s).free = s.free := rfl
@[simp] theorem onTm_out (f) (s : State) : (onTm f s).out = s.out := rfl
@[simp] theorem onTm_now (f) (s : State) : (onTm f s).now = s.now := rfl
@[simp] theorem onTm_fab (f) (s : State) : (onTm f s).fab = s.fab := rfl
@[simp] theorem onTm_isl (f) (s : State) : (onTm f s).isl = s.isl := rfl
@[simp] theorem onTm_pw (f) (s : State) : (onTm f s).pw = s.pw := rfl
@[simp] theorem onTm_rs (f) (s : State) : (onTm f s).rs = s.rs := rfl
@[simp] theorem onTm_host (f) (s : State) : (onTm f s).host = s.host := rfl
@[simp] theorem onTm_tbl (f) (s : State) : (onTm f s).tbl = s.tbl := rfl
@[simp] theorem onTm_sch (f) (s : State) : (onTm f s).sch = s.sch := rfl
@[simp] theorem onTm_ik (f) (s : State) : (onTm f s).ik = s.ik := rfl
@[simp] theorem onTm_cv (f) (s : State) : (onTm f s).cv = s.cv := rfl
@[simp] theorem onTm_db (f) (s : State) : (onTm f s).db = s.db := rfl
@[simp] theorem onTm_jr (f) (s : State) : (onTm f s).jr = s.jr := rfl
@[simp] theorem onTm_lg (f) (s : State) : (onTm f s).lg = s.lg := rfl
@[simp] theorem onTm_plc (f) (s : State) : (onTm f s).plc = s.plc := rfl
@[simp] theorem onTm_rad (f) (s : State) : (onTm f s).rad = s.rad := rfl
@[simp] theorem onTm_wir (f) (s : State) : (onTm f s).wir = s.wir := rfl
@[simp] theorem onTm_tm (f) (s : State) : (onTm f s).tm = f s.tm := rfl
@[simp] theorem onTm_arch (f) (s : State) : (onTm f s).arch = s.arch := rfl
@[simp] theorem onTm_pair (f) (s : State) : (onTm f s).pair = s.pair := rfl
@[simp] theorem onTm_pairStore (f) (s : State) : (onTm f s).pairStore = s.pairStore := rfl
@[simp] theorem onTm_keys (f) (s : State) : (onTm f s).keys = s.keys := rfl
@[simp] theorem onTm_fl (f) (s : State) : (onTm f s).fl = s.fl := rfl
@[simp] theorem onTm_img (f) (s : State) : (onTm f s).img = s.img := rfl
@[simp] theorem onTm_tel (f) (s : State) : (onTm f s).tel = s.tel := rfl
@[simp] theorem onTm_opt (f) (s : State) : (onTm f s).opt = s.opt := rfl
@[simp] theorem onTm_optStore (f) (s : State) : (onTm f s).optStore = s.optStore := rfl

@[simp] theorem onArch_pending (f) (s : State) : (onArch f s).pending = s.pending := rfl
@[simp] theorem onArch_free (f) (s : State) : (onArch f s).free = s.free := rfl
@[simp] theorem onArch_out (f) (s : State) : (onArch f s).out = s.out := rfl
@[simp] theorem onArch_now (f) (s : State) : (onArch f s).now = s.now := rfl
@[simp] theorem onArch_fab (f) (s : State) : (onArch f s).fab = s.fab := rfl
@[simp] theorem onArch_isl (f) (s : State) : (onArch f s).isl = s.isl := rfl
@[simp] theorem onArch_pw (f) (s : State) : (onArch f s).pw = s.pw := rfl
@[simp] theorem onArch_rs (f) (s : State) : (onArch f s).rs = s.rs := rfl
@[simp] theorem onArch_host (f) (s : State) : (onArch f s).host = s.host := rfl
@[simp] theorem onArch_tbl (f) (s : State) : (onArch f s).tbl = s.tbl := rfl
@[simp] theorem onArch_sch (f) (s : State) : (onArch f s).sch = s.sch := rfl
@[simp] theorem onArch_ik (f) (s : State) : (onArch f s).ik = s.ik := rfl
@[simp] theorem onArch_cv (f) (s : State) : (onArch f s).cv = s.cv := rfl
@[simp] theorem onArch_db (f) (s : State) : (onArch f s).db = s.db := rfl
@[simp] theorem onArch_jr (f) (s : State) : (onArch f s).jr = s.jr := rfl
@[simp] theorem onArch_lg (f) (s : State) : (onArch f s).lg = s.lg := rfl
@[simp] theorem onArch_plc (f) (s : State) : (onArch f s).plc = s.plc := rfl
@[simp] theorem onArch_rad (f) (s : State) : (onArch f s).rad = s.rad := rfl
@[simp] theorem onArch_wir (f) (s : State) : (onArch f s).wir = s.wir := rfl
@[simp] theorem onArch_tm (f) (s : State) : (onArch f s).tm = s.tm := rfl
@[simp] theorem onArch_arch (f) (s : State) : (onArch f s).arch = f s.arch := rfl
@[simp] theorem onArch_pair (f) (s : State) : (onArch f s).pair = s.pair := rfl
@[simp] theorem onArch_pairStore (f) (s : State) : (onArch f s).pairStore = s.pairStore := rfl
@[simp] theorem onArch_keys (f) (s : State) : (onArch f s).keys = s.keys := rfl
@[simp] theorem onArch_fl (f) (s : State) : (onArch f s).fl = s.fl := rfl
@[simp] theorem onArch_img (f) (s : State) : (onArch f s).img = s.img := rfl
@[simp] theorem onArch_tel (f) (s : State) : (onArch f s).tel = s.tel := rfl
@[simp] theorem onArch_opt (f) (s : State) : (onArch f s).opt = s.opt := rfl
@[simp] theorem onArch_optStore (f) (s : State) : (onArch f s).optStore = s.optStore := rfl

@[simp] theorem onPair_pending (f) (s : State) : (onPair f s).pending = s.pending := rfl
@[simp] theorem onPair_free (f) (s : State) : (onPair f s).free = s.free := rfl
@[simp] theorem onPair_out (f) (s : State) : (onPair f s).out = s.out := rfl
@[simp] theorem onPair_now (f) (s : State) : (onPair f s).now = s.now := rfl
@[simp] theorem onPair_fab (f) (s : State) : (onPair f s).fab = s.fab := rfl
@[simp] theorem onPair_isl (f) (s : State) : (onPair f s).isl = s.isl := rfl
@[simp] theorem onPair_pw (f) (s : State) : (onPair f s).pw = s.pw := rfl
@[simp] theorem onPair_rs (f) (s : State) : (onPair f s).rs = s.rs := rfl
@[simp] theorem onPair_host (f) (s : State) : (onPair f s).host = s.host := rfl
@[simp] theorem onPair_tbl (f) (s : State) : (onPair f s).tbl = s.tbl := rfl
@[simp] theorem onPair_sch (f) (s : State) : (onPair f s).sch = s.sch := rfl
@[simp] theorem onPair_ik (f) (s : State) : (onPair f s).ik = s.ik := rfl
@[simp] theorem onPair_cv (f) (s : State) : (onPair f s).cv = s.cv := rfl
@[simp] theorem onPair_db (f) (s : State) : (onPair f s).db = s.db := rfl
@[simp] theorem onPair_jr (f) (s : State) : (onPair f s).jr = s.jr := rfl
@[simp] theorem onPair_lg (f) (s : State) : (onPair f s).lg = s.lg := rfl
@[simp] theorem onPair_plc (f) (s : State) : (onPair f s).plc = s.plc := rfl
@[simp] theorem onPair_rad (f) (s : State) : (onPair f s).rad = s.rad := rfl
@[simp] theorem onPair_wir (f) (s : State) : (onPair f s).wir = s.wir := rfl
@[simp] theorem onPair_tm (f) (s : State) : (onPair f s).tm = s.tm := rfl
@[simp] theorem onPair_arch (f) (s : State) : (onPair f s).arch = s.arch := rfl
@[simp] theorem onPair_pair (f) (s : State) : (onPair f s).pair = f s.pair := rfl
@[simp] theorem onPair_pairStore (f) (s : State) : (onPair f s).pairStore = s.pairStore := rfl
@[simp] theorem onPair_keys (f) (s : State) : (onPair f s).keys = s.keys := rfl
@[simp] theorem onPair_fl (f) (s : State) : (onPair f s).fl = s.fl := rfl
@[simp] theorem onPair_img (f) (s : State) : (onPair f s).img = s.img := rfl
@[simp] theorem onPair_tel (f) (s : State) : (onPair f s).tel = s.tel := rfl
@[simp] theorem onPair_opt (f) (s : State) : (onPair f s).opt = s.opt := rfl
@[simp] theorem onPair_optStore (f) (s : State) : (onPair f s).optStore = s.optStore := rfl

@[simp] theorem onKeys_pending (f) (s : State) : (onKeys f s).pending = s.pending := rfl
@[simp] theorem onKeys_free (f) (s : State) : (onKeys f s).free = s.free := rfl
@[simp] theorem onKeys_out (f) (s : State) : (onKeys f s).out = s.out := rfl
@[simp] theorem onKeys_now (f) (s : State) : (onKeys f s).now = s.now := rfl
@[simp] theorem onKeys_fab (f) (s : State) : (onKeys f s).fab = s.fab := rfl
@[simp] theorem onKeys_isl (f) (s : State) : (onKeys f s).isl = s.isl := rfl
@[simp] theorem onKeys_pw (f) (s : State) : (onKeys f s).pw = s.pw := rfl
@[simp] theorem onKeys_rs (f) (s : State) : (onKeys f s).rs = s.rs := rfl
@[simp] theorem onKeys_host (f) (s : State) : (onKeys f s).host = s.host := rfl
@[simp] theorem onKeys_tbl (f) (s : State) : (onKeys f s).tbl = s.tbl := rfl
@[simp] theorem onKeys_sch (f) (s : State) : (onKeys f s).sch = s.sch := rfl
@[simp] theorem onKeys_ik (f) (s : State) : (onKeys f s).ik = s.ik := rfl
@[simp] theorem onKeys_cv (f) (s : State) : (onKeys f s).cv = s.cv := rfl
@[simp] theorem onKeys_db (f) (s : State) : (onKeys f s).db = s.db := rfl
@[simp] theorem onKeys_jr (f) (s : State) : (onKeys f s).jr = s.jr := rfl
@[simp] theorem onKeys_lg (f) (s : State) : (onKeys f s).lg = s.lg := rfl
@[simp] theorem onKeys_plc (f) (s : State) : (onKeys f s).plc = s.plc := rfl
@[simp] theorem onKeys_rad (f) (s : State) : (onKeys f s).rad = s.rad := rfl
@[simp] theorem onKeys_wir (f) (s : State) : (onKeys f s).wir = s.wir := rfl
@[simp] theorem onKeys_tm (f) (s : State) : (onKeys f s).tm = s.tm := rfl
@[simp] theorem onKeys_arch (f) (s : State) : (onKeys f s).arch = s.arch := rfl
@[simp] theorem onKeys_pair (f) (s : State) : (onKeys f s).pair = s.pair := rfl
@[simp] theorem onKeys_pairStore (f) (s : State) : (onKeys f s).pairStore = s.pairStore := rfl
@[simp] theorem onKeys_keys (f) (s : State) : (onKeys f s).keys = f s.keys := rfl
@[simp] theorem onKeys_fl (f) (s : State) : (onKeys f s).fl = s.fl := rfl
@[simp] theorem onKeys_img (f) (s : State) : (onKeys f s).img = s.img := rfl
@[simp] theorem onKeys_tel (f) (s : State) : (onKeys f s).tel = s.tel := rfl
@[simp] theorem onKeys_opt (f) (s : State) : (onKeys f s).opt = s.opt := rfl
@[simp] theorem onKeys_optStore (f) (s : State) : (onKeys f s).optStore = s.optStore := rfl

@[simp] theorem onFl_pending (f) (s : State) : (onFl f s).pending = s.pending := rfl
@[simp] theorem onFl_free (f) (s : State) : (onFl f s).free = s.free := rfl
@[simp] theorem onFl_out (f) (s : State) : (onFl f s).out = s.out := rfl
@[simp] theorem onFl_now (f) (s : State) : (onFl f s).now = s.now := rfl
@[simp] theorem onFl_fab (f) (s : State) : (onFl f s).fab = s.fab := rfl
@[simp] theorem onFl_isl (f) (s : State) : (onFl f s).isl = s.isl := rfl
@[simp] theorem onFl_pw (f) (s : State) : (onFl f s).pw = s.pw := rfl
@[simp] theorem onFl_rs (f) (s : State) : (onFl f s).rs = s.rs := rfl
@[simp] theorem onFl_host (f) (s : State) : (onFl f s).host = s.host := rfl
@[simp] theorem onFl_tbl (f) (s : State) : (onFl f s).tbl = s.tbl := rfl
@[simp] theorem onFl_sch (f) (s : State) : (onFl f s).sch = s.sch := rfl
@[simp] theorem onFl_ik (f) (s : State) : (onFl f s).ik = s.ik := rfl
@[simp] theorem onFl_cv (f) (s : State) : (onFl f s).cv = s.cv := rfl
@[simp] theorem onFl_db (f) (s : State) : (onFl f s).db = s.db := rfl
@[simp] theorem onFl_jr (f) (s : State) : (onFl f s).jr = s.jr := rfl
@[simp] theorem onFl_lg (f) (s : State) : (onFl f s).lg = s.lg := rfl
@[simp] theorem onFl_plc (f) (s : State) : (onFl f s).plc = s.plc := rfl
@[simp] theorem onFl_rad (f) (s : State) : (onFl f s).rad = s.rad := rfl
@[simp] theorem onFl_wir (f) (s : State) : (onFl f s).wir = s.wir := rfl
@[simp] theorem onFl_tm (f) (s : State) : (onFl f s).tm = s.tm := rfl
@[simp] theorem onFl_arch (f) (s : State) : (onFl f s).arch = s.arch := rfl
@[simp] theorem onFl_pair (f) (s : State) : (onFl f s).pair = s.pair := rfl
@[simp] theorem onFl_pairStore (f) (s : State) : (onFl f s).pairStore = s.pairStore := rfl
@[simp] theorem onFl_keys (f) (s : State) : (onFl f s).keys = s.keys := rfl
@[simp] theorem onFl_fl (f) (s : State) : (onFl f s).fl = f s.fl := rfl
@[simp] theorem onFl_img (f) (s : State) : (onFl f s).img = s.img := rfl
@[simp] theorem onFl_tel (f) (s : State) : (onFl f s).tel = s.tel := rfl
@[simp] theorem onFl_opt (f) (s : State) : (onFl f s).opt = s.opt := rfl
@[simp] theorem onFl_optStore (f) (s : State) : (onFl f s).optStore = s.optStore := rfl

@[simp] theorem onImg_pending (f) (s : State) : (onImg f s).pending = s.pending := rfl
@[simp] theorem onImg_free (f) (s : State) : (onImg f s).free = s.free := rfl
@[simp] theorem onImg_out (f) (s : State) : (onImg f s).out = s.out := rfl
@[simp] theorem onImg_now (f) (s : State) : (onImg f s).now = s.now := rfl
@[simp] theorem onImg_fab (f) (s : State) : (onImg f s).fab = s.fab := rfl
@[simp] theorem onImg_isl (f) (s : State) : (onImg f s).isl = s.isl := rfl
@[simp] theorem onImg_pw (f) (s : State) : (onImg f s).pw = s.pw := rfl
@[simp] theorem onImg_rs (f) (s : State) : (onImg f s).rs = s.rs := rfl
@[simp] theorem onImg_host (f) (s : State) : (onImg f s).host = s.host := rfl
@[simp] theorem onImg_tbl (f) (s : State) : (onImg f s).tbl = s.tbl := rfl
@[simp] theorem onImg_sch (f) (s : State) : (onImg f s).sch = s.sch := rfl
@[simp] theorem onImg_ik (f) (s : State) : (onImg f s).ik = s.ik := rfl
@[simp] theorem onImg_cv (f) (s : State) : (onImg f s).cv = s.cv := rfl
@[simp] theorem onImg_db (f) (s : State) : (onImg f s).db = s.db := rfl
@[simp] theorem onImg_jr (f) (s : State) : (onImg f s).jr = s.jr := rfl
@[simp] theorem onImg_lg (f) (s : State) : (onImg f s).lg = s.lg := rfl
@[simp] theorem onImg_plc (f) (s : State) : (onImg f s).plc = s.plc := rfl
@[simp] theorem onImg_rad (f) (s : State) : (onImg f s).rad = s.rad := rfl
@[simp] theorem onImg_wir (f) (s : State) : (onImg f s).wir = s.wir := rfl
@[simp] theorem onImg_tm (f) (s : State) : (onImg f s).tm = s.tm := rfl
@[simp] theorem onImg_arch (f) (s : State) : (onImg f s).arch = s.arch := rfl
@[simp] theorem onImg_pair (f) (s : State) : (onImg f s).pair = s.pair := rfl
@[simp] theorem onImg_pairStore (f) (s : State) : (onImg f s).pairStore = s.pairStore := rfl
@[simp] theorem onImg_keys (f) (s : State) : (onImg f s).keys = s.keys := rfl
@[simp] theorem onImg_fl (f) (s : State) : (onImg f s).fl = s.fl := rfl
@[simp] theorem onImg_img (f) (s : State) : (onImg f s).img = f s.img := rfl
@[simp] theorem onImg_tel (f) (s : State) : (onImg f s).tel = s.tel := rfl
@[simp] theorem onImg_opt (f) (s : State) : (onImg f s).opt = s.opt := rfl
@[simp] theorem onImg_optStore (f) (s : State) : (onImg f s).optStore = s.optStore := rfl

@[simp] theorem onTel_pending (f) (s : State) : (onTel f s).pending = s.pending := rfl
@[simp] theorem onTel_free (f) (s : State) : (onTel f s).free = s.free := rfl
@[simp] theorem onTel_out (f) (s : State) : (onTel f s).out = s.out := rfl
@[simp] theorem onTel_now (f) (s : State) : (onTel f s).now = s.now := rfl
@[simp] theorem onTel_fab (f) (s : State) : (onTel f s).fab = s.fab := rfl
@[simp] theorem onTel_isl (f) (s : State) : (onTel f s).isl = s.isl := rfl
@[simp] theorem onTel_pw (f) (s : State) : (onTel f s).pw = s.pw := rfl
@[simp] theorem onTel_rs (f) (s : State) : (onTel f s).rs = s.rs := rfl
@[simp] theorem onTel_host (f) (s : State) : (onTel f s).host = s.host := rfl
@[simp] theorem onTel_tbl (f) (s : State) : (onTel f s).tbl = s.tbl := rfl
@[simp] theorem onTel_sch (f) (s : State) : (onTel f s).sch = s.sch := rfl
@[simp] theorem onTel_ik (f) (s : State) : (onTel f s).ik = s.ik := rfl
@[simp] theorem onTel_cv (f) (s : State) : (onTel f s).cv = s.cv := rfl
@[simp] theorem onTel_db (f) (s : State) : (onTel f s).db = s.db := rfl
@[simp] theorem onTel_jr (f) (s : State) : (onTel f s).jr = s.jr := rfl
@[simp] theorem onTel_lg (f) (s : State) : (onTel f s).lg = s.lg := rfl
@[simp] theorem onTel_plc (f) (s : State) : (onTel f s).plc = s.plc := rfl
@[simp] theorem onTel_rad (f) (s : State) : (onTel f s).rad = s.rad := rfl
@[simp] theorem onTel_wir (f) (s : State) : (onTel f s).wir = s.wir := rfl
@[simp] theorem onTel_tm (f) (s : State) : (onTel f s).tm = s.tm := rfl
@[simp] theorem onTel_arch (f) (s : State) : (onTel f s).arch = s.arch := rfl
@[simp] theorem onTel_pair (f) (s : State) : (onTel f s).pair = s.pair := rfl
@[simp] theorem onTel_pairStore (f) (s : State) : (onTel f s).pairStore = s.pairStore := rfl
@[simp] theorem onTel_keys (f) (s : State) : (onTel f s).keys = s.keys := rfl
@[simp] theorem onTel_fl (f) (s : State) : (onTel f s).fl = s.fl := rfl
@[simp] theorem onTel_img (f) (s : State) : (onTel f s).img = s.img := rfl
@[simp] theorem onTel_tel (f) (s : State) : (onTel f s).tel = f s.tel := rfl
@[simp] theorem onTel_opt (f) (s : State) : (onTel f s).opt = s.opt := rfl
@[simp] theorem onTel_optStore (f) (s : State) : (onTel f s).optStore = s.optStore := rfl

@[simp] theorem onOpt_pending (f) (s : State) : (onOpt f s).pending = s.pending := rfl
@[simp] theorem onOpt_free (f) (s : State) : (onOpt f s).free = s.free := rfl
@[simp] theorem onOpt_out (f) (s : State) : (onOpt f s).out = s.out := rfl
@[simp] theorem onOpt_now (f) (s : State) : (onOpt f s).now = s.now := rfl
@[simp] theorem onOpt_fab (f) (s : State) : (onOpt f s).fab = s.fab := rfl
@[simp] theorem onOpt_isl (f) (s : State) : (onOpt f s).isl = s.isl := rfl
@[simp] theorem onOpt_pw (f) (s : State) : (onOpt f s).pw = s.pw := rfl
@[simp] theorem onOpt_rs (f) (s : State) : (onOpt f s).rs = s.rs := rfl
@[simp] theorem onOpt_host (f) (s : State) : (onOpt f s).host = s.host := rfl
@[simp] theorem onOpt_tbl (f) (s : State) : (onOpt f s).tbl = s.tbl := rfl
@[simp] theorem onOpt_sch (f) (s : State) : (onOpt f s).sch = s.sch := rfl
@[simp] theorem onOpt_ik (f) (s : State) : (onOpt f s).ik = s.ik := rfl
@[simp] theorem onOpt_cv (f) (s : State) : (onOpt f s).cv = s.cv := rfl
@[simp] theorem onOpt_db (f) (s : State) : (onOpt f s).db = s.db := rfl
@[simp] theorem onOpt_jr (f) (s : State) : (onOpt f s).jr = s.jr := rfl
@[simp] theorem onOpt_lg (f) (s : State) : (onOpt f s).lg = s.lg := rfl
@[simp] theorem onOpt_plc (f) (s : State) : (onOpt f s).plc = s.plc := rfl
@[simp] theorem onOpt_rad (f) (s : State) : (onOpt f s).rad = s.rad := rfl
@[simp] theorem onOpt_wir (f) (s : State) : (onOpt f s).wir = s.wir := rfl
@[simp] theorem onOpt_tm (f) (s : State) : (onOpt f s).tm = s.tm := rfl
@[simp] theorem onOpt_arch (f) (s : State) : (onOpt f s).arch = s.arch := rfl
@[simp] theorem onOpt_pair (f) (s : State) : (onOpt f s).pair = s.pair := rfl
@[simp] theorem onOpt_pairStore (f) (s : State) : (onOpt f s).pairStore = s.pairStore := rfl
@[simp] theorem onOpt_keys (f) (s : State) : (onOpt f s).keys = s.keys := rfl
@[simp] theorem onOpt_fl (f) (s : State) : (onOpt f s).fl = s.fl := rfl
@[simp] theorem onOpt_img (f) (s : State) : (onOpt f s).img = s.img := rfl
@[simp] theorem onOpt_tel (f) (s : State) : (onOpt f s).tel = s.tel := rfl
@[simp] theorem onOpt_opt (f) (s : State) : (onOpt f s).opt = f s.opt := rfl
@[simp] theorem onOpt_optStore (f) (s : State) : (onOpt f s).optStore = s.optStore := rfl

@[simp] theorem onIsl_pending (n) (f) (s : State) : (onIsl n f s).pending = s.pending := rfl
@[simp] theorem onIsl_free (n) (f) (s : State) : (onIsl n f s).free = s.free := rfl
@[simp] theorem onIsl_out (n) (f) (s : State) : (onIsl n f s).out = s.out := rfl
@[simp] theorem onIsl_now (n) (f) (s : State) : (onIsl n f s).now = s.now := rfl
@[simp] theorem onIsl_fab (n) (f) (s : State) : (onIsl n f s).fab = s.fab := rfl
@[simp] theorem onIsl_isl (n) (f) (s : State) : (onIsl n f s).isl = modAt s.isl n f := rfl
@[simp] theorem onIsl_pw (n) (f) (s : State) : (onIsl n f s).pw = s.pw := rfl
@[simp] theorem onIsl_rs (n) (f) (s : State) : (onIsl n f s).rs = s.rs := rfl
@[simp] theorem onIsl_host (n) (f) (s : State) : (onIsl n f s).host = s.host := rfl
@[simp] theorem onIsl_tbl (n) (f) (s : State) : (onIsl n f s).tbl = s.tbl := rfl
@[simp] theorem onIsl_sch (n) (f) (s : State) : (onIsl n f s).sch = s.sch := rfl
@[simp] theorem onIsl_ik (n) (f) (s : State) : (onIsl n f s).ik = s.ik := rfl
@[simp] theorem onIsl_cv (n) (f) (s : State) : (onIsl n f s).cv = s.cv := rfl
@[simp] theorem onIsl_db (n) (f) (s : State) : (onIsl n f s).db = s.db := rfl
@[simp] theorem onIsl_jr (n) (f) (s : State) : (onIsl n f s).jr = s.jr := rfl
@[simp] theorem onIsl_lg (n) (f) (s : State) : (onIsl n f s).lg = s.lg := rfl
@[simp] theorem onIsl_plc (n) (f) (s : State) : (onIsl n f s).plc = s.plc := rfl
@[simp] theorem onIsl_rad (n) (f) (s : State) : (onIsl n f s).rad = s.rad := rfl
@[simp] theorem onIsl_wir (n) (f) (s : State) : (onIsl n f s).wir = s.wir := rfl
@[simp] theorem onIsl_tm (n) (f) (s : State) : (onIsl n f s).tm = s.tm := rfl
@[simp] theorem onIsl_arch (n) (f) (s : State) : (onIsl n f s).arch = s.arch := rfl
@[simp] theorem onIsl_pair (n) (f) (s : State) : (onIsl n f s).pair = s.pair := rfl
@[simp] theorem onIsl_pairStore (n) (f) (s : State) : (onIsl n f s).pairStore = s.pairStore := rfl
@[simp] theorem onIsl_keys (n) (f) (s : State) : (onIsl n f s).keys = s.keys := rfl
@[simp] theorem onIsl_fl (n) (f) (s : State) : (onIsl n f s).fl = s.fl := rfl
@[simp] theorem onIsl_img (n) (f) (s : State) : (onIsl n f s).img = s.img := rfl
@[simp] theorem onIsl_tel (n) (f) (s : State) : (onIsl n f s).tel = s.tel := rfl
@[simp] theorem onIsl_opt (n) (f) (s : State) : (onIsl n f s).opt = s.opt := rfl
@[simp] theorem onIsl_optStore (n) (f) (s : State) : (onIsl n f s).optStore = s.optStore := rfl

@[simp] theorem emit_pending (o) (s : State) : (emit o s).pending = s.pending := rfl
@[simp] theorem emit_free (o) (s : State) : (emit o s).free = s.free := rfl
@[simp] theorem emit_out (o) (s : State) : (emit o s).out = s.out ++ [o] := rfl
@[simp] theorem emit_now (o) (s : State) : (emit o s).now = s.now := rfl
@[simp] theorem emit_fab (o) (s : State) : (emit o s).fab = s.fab := rfl
@[simp] theorem emit_isl (o) (s : State) : (emit o s).isl = s.isl := rfl
@[simp] theorem emit_pw (o) (s : State) : (emit o s).pw = s.pw := rfl
@[simp] theorem emit_rs (o) (s : State) : (emit o s).rs = s.rs := rfl
@[simp] theorem emit_host (o) (s : State) : (emit o s).host = s.host := rfl
@[simp] theorem emit_tbl (o) (s : State) : (emit o s).tbl = s.tbl := rfl
@[simp] theorem emit_sch (o) (s : State) : (emit o s).sch = s.sch := rfl
@[simp] theorem emit_ik (o) (s : State) : (emit o s).ik = s.ik := rfl
@[simp] theorem emit_cv (o) (s : State) : (emit o s).cv = s.cv := rfl
@[simp] theorem emit_db (o) (s : State) : (emit o s).db = s.db := rfl
@[simp] theorem emit_jr (o) (s : State) : (emit o s).jr = s.jr := rfl
@[simp] theorem emit_lg (o) (s : State) : (emit o s).lg = s.lg := rfl
@[simp] theorem emit_plc (o) (s : State) : (emit o s).plc = s.plc := rfl
@[simp] theorem emit_rad (o) (s : State) : (emit o s).rad = s.rad := rfl
@[simp] theorem emit_wir (o) (s : State) : (emit o s).wir = s.wir := rfl
@[simp] theorem emit_tm (o) (s : State) : (emit o s).tm = s.tm := rfl
@[simp] theorem emit_arch (o) (s : State) : (emit o s).arch = s.arch := rfl
@[simp] theorem emit_pair (o) (s : State) : (emit o s).pair = s.pair := rfl
@[simp] theorem emit_pairStore (o) (s : State) : (emit o s).pairStore = s.pairStore := rfl
@[simp] theorem emit_keys (o) (s : State) : (emit o s).keys = s.keys := rfl
@[simp] theorem emit_fl (o) (s : State) : (emit o s).fl = s.fl := rfl
@[simp] theorem emit_img (o) (s : State) : (emit o s).img = s.img := rfl
@[simp] theorem emit_tel (o) (s : State) : (emit o s).tel = s.tel := rfl
@[simp] theorem emit_opt (o) (s : State) : (emit o s).opt = s.opt := rfl
@[simp] theorem emit_optStore (o) (s : State) : (emit o s).optStore = s.optStore := rfl

@[simp] theorem useFree_pending (s : State) : (useFree s).pending = s.pending := rfl
@[simp] theorem useFree_free (s : State) : (useFree s).free = s.free + 1 := rfl
@[simp] theorem useFree_out (s : State) : (useFree s).out = s.out := rfl
@[simp] theorem useFree_now (s : State) : (useFree s).now = s.now := rfl
@[simp] theorem useFree_fab (s : State) : (useFree s).fab = s.fab := rfl
@[simp] theorem useFree_isl (s : State) : (useFree s).isl = s.isl := rfl
@[simp] theorem useFree_pw (s : State) : (useFree s).pw = s.pw := rfl
@[simp] theorem useFree_rs (s : State) : (useFree s).rs = s.rs := rfl
@[simp] theorem useFree_host (s : State) : (useFree s).host = s.host := rfl
@[simp] theorem useFree_tbl (s : State) : (useFree s).tbl = s.tbl := rfl
@[simp] theorem useFree_sch (s : State) : (useFree s).sch = s.sch := rfl
@[simp] theorem useFree_ik (s : State) : (useFree s).ik = s.ik := rfl
@[simp] theorem useFree_cv (s : State) : (useFree s).cv = s.cv := rfl
@[simp] theorem useFree_db (s : State) : (useFree s).db = s.db := rfl
@[simp] theorem useFree_jr (s : State) : (useFree s).jr = s.jr := rfl
@[simp] theorem useFree_lg (s : State) : (useFree s).lg = s.lg := rfl
@[simp] theorem useFree_plc (s : State) : (useFree s).plc = s.plc := rfl
@[simp] theorem useFree_rad (s : State) : (useFree s).rad = s.rad := rfl
@[simp] theorem useFree_wir (s : State) : (useFree s).wir = s.wir := rfl
@[simp] theorem useFree_tm (s : State) : (useFree s).tm = s.tm := rfl
@[simp] theorem useFree_arch (s : State) : (useFree s).arch = s.arch := rfl
@[simp] theorem useFree_pair (s : State) : (useFree s).pair = s.pair := rfl
@[simp] theorem useFree_pairStore (s : State) : (useFree s).pairStore = s.pairStore := rfl
@[simp] theorem useFree_keys (s : State) : (useFree s).keys = s.keys := rfl
@[simp] theorem useFree_fl (s : State) : (useFree s).fl = s.fl := rfl
@[simp] theorem useFree_img (s : State) : (useFree s).img = s.img := rfl
@[simp] theorem useFree_tel (s : State) : (useFree s).tel = s.tel := rfl
@[simp] theorem useFree_opt (s : State) : (useFree s).opt = s.opt := rfl
@[simp] theorem useFree_optStore (s : State) : (useFree s).optStore = s.optStore := rfl

@[simp] theorem saveOpt_pending (f) (s : State) : (saveOpt f s).pending = s.pending := rfl
@[simp] theorem saveOpt_free (f) (s : State) : (saveOpt f s).free = s.free := rfl
@[simp] theorem saveOpt_out (f) (s : State) : (saveOpt f s).out = s.out := rfl
@[simp] theorem saveOpt_now (f) (s : State) : (saveOpt f s).now = s.now := rfl
@[simp] theorem saveOpt_fab (f) (s : State) : (saveOpt f s).fab = s.fab := rfl
@[simp] theorem saveOpt_isl (f) (s : State) : (saveOpt f s).isl = s.isl := rfl
@[simp] theorem saveOpt_pw (f) (s : State) : (saveOpt f s).pw = s.pw := rfl
@[simp] theorem saveOpt_rs (f) (s : State) : (saveOpt f s).rs = s.rs := rfl
@[simp] theorem saveOpt_host (f) (s : State) : (saveOpt f s).host = s.host := rfl
@[simp] theorem saveOpt_tbl (f) (s : State) : (saveOpt f s).tbl = s.tbl := rfl
@[simp] theorem saveOpt_sch (f) (s : State) : (saveOpt f s).sch = s.sch := rfl
@[simp] theorem saveOpt_ik (f) (s : State) : (saveOpt f s).ik = s.ik := rfl
@[simp] theorem saveOpt_cv (f) (s : State) : (saveOpt f s).cv = s.cv := rfl
@[simp] theorem saveOpt_db (f) (s : State) : (saveOpt f s).db = s.db := rfl
@[simp] theorem saveOpt_jr (f) (s : State) : (saveOpt f s).jr = s.jr := rfl
@[simp] theorem saveOpt_lg (f) (s : State) : (saveOpt f s).lg = s.lg := rfl
@[simp] theorem saveOpt_plc (f) (s : State) : (saveOpt f s).plc = s.plc := rfl
@[simp] theorem saveOpt_rad (f) (s : State) : (saveOpt f s).rad = s.rad := rfl
@[simp] theorem saveOpt_wir (f) (s : State) : (saveOpt f s).wir = s.wir := rfl
@[simp] theorem saveOpt_tm (f) (s : State) : (saveOpt f s).tm = s.tm := rfl
@[simp] theorem saveOpt_arch (f) (s : State) : (saveOpt f s).arch = s.arch := rfl
@[simp] theorem saveOpt_pair (f) (s : State) : (saveOpt f s).pair = s.pair := rfl
@[simp] theorem saveOpt_pairStore (f) (s : State) : (saveOpt f s).pairStore = s.pairStore := rfl
@[simp] theorem saveOpt_keys (f) (s : State) : (saveOpt f s).keys = s.keys := rfl
@[simp] theorem saveOpt_fl (f) (s : State) : (saveOpt f s).fl = s.fl := rfl
@[simp] theorem saveOpt_img (f) (s : State) : (saveOpt f s).img = s.img := rfl
@[simp] theorem saveOpt_tel (f) (s : State) : (saveOpt f s).tel = s.tel := rfl
@[simp] theorem saveOpt_opt (f) (s : State) : (saveOpt f s).opt = f s.opt := rfl
@[simp] theorem saveOpt_optStore (f) (s : State) : (saveOpt f s).optStore = s.optStore.write (macRootNow s) (f s.opt) := rfl

end Sys2Proof.Machine
end

