-- ==== Sys2Proof/Laws/Tables.lean ====
section
/-! SUPPORT. What reading a list, a table or a memory gives after it has been written, and that every memory operation keeps the
canonical form. -/
namespace Sys2Proof.Machine
open Sys2Proof

/-! ### Lists -/

@[simp] theorem length_modAt {α : Type} (l : List α) (k : Nat) (f : α → α) : (modAt l k f).length = l.length := by
  induction l generalizing k with
  | nil => cases k <;> rfl
  | cons a r ih => cases k <;> simp [modAt, ih]

@[simp] theorem length_setAt {α : Type} (l : List α) (k : Nat) (v : α) : (setAt l k v).length = l.length := by
  induction l generalizing k with
  | nil => cases k <;> rfl
  | cons a r ih => cases k <;> simp [setAt, ih]

theorem getD_modAt_self {α : Type} (l : List α) (k : Nat) (f : α → α) (d : α) (h : k < l.length) : (modAt l k f).getD k d = f (l.getD k d) := by
  induction l generalizing k with
  | nil => simp at h
  | cons a r ih =>
    cases k with
    | zero => simp [modAt]
    | succ k => simpa [modAt] using ih k (by simpa using h)

theorem getD_modAt_ne {α : Type} (l : List α) (j k : Nat) (f : α → α) (d : α) (h : j ≠ k) : (modAt l k f).getD j d = l.getD j d := by
  induction l generalizing j k with
  | nil => cases k <;> rfl
  | cons a r ih =>
    cases k with
    | zero => cases j with
      | zero => exact absurd rfl h
      | succ j => simp [modAt]
    | succ k => cases j with
      | zero => simp [modAt]
      | succ j => simpa [modAt] using ih j k (fun e => h (by rw [e]))

theorem getD_setAt_self {α : Type} (l : List α) (k : Nat) (v d : α) (h : k < l.length) : (setAt l k v).getD k d = v := by
  induction l generalizing k with
  | nil => simp at h
  | cons a r ih =>
    cases k with
    | zero => simp [setAt]
    | succ k => simpa [setAt] using ih k (by simpa using h)

theorem getD_setAt_ne {α : Type} (l : List α) (j k : Nat) (v d : α) (h : j ≠ k) : (setAt l k v).getD j d = l.getD j d := by
  induction l generalizing j k with
  | nil => cases k <;> rfl
  | cons a r ih =>
    cases k with
    | zero => cases j with
      | zero => exact absurd rfl h
      | succ j => simp [setAt]
    | succ k => cases j with
      | zero => simp [setAt]
      | succ j => simpa [setAt] using ih j k (fun e => h (by rw [e]))

/-- Changing the elements with a property, none of which loses what is looked for: the first found is the changed one. -/
theorem find_modWhere {α : Type} (l : List α) (p q : α → Bool) (f : α → α) (h : ∀ x, q (f x) = q x) :
    (modWhere p f l).find? q = (l.find? q).map (fun x => if p x then f x else x) := by
  induction l with
  | nil => rfl
  | cons a r ih =>
    have ha : q (if p a then f a else a) = q a := by split <;> simp [h]
    by_cases hq : q a
    · simp [modWhere, ha, hq]
    · have := ih
      simp only [modWhere] at this
      simp [modWhere, ha, hq, this]

/-! ### Tables -/

@[simp] theorem Tab.get_set_self {α : Type} (t : Tab α) (k : Nat) (v : α) : Tab.get (Tab.set t k v) k = some v := by
  induction t with
  | nil => simp [Tab.set, Tab.get]
  | cons p r ih =>
    obtain ⟨j, x⟩ := p
    unfold Tab.set
    split
    · simp [Tab.get]
    · split
      · simp [Tab.get]
      · rename_i h1 h2
        have h3 : (j == k) = false := by simpa using fun e => h2 e.symm
        simpa [Tab.get, List.find?_cons, h3] using ih

theorem Tab.get_set_ne {α : Type} (t : Tab α) (j k : Nat) (v : α) (h : j ≠ k) : Tab.get (Tab.set t k v) j = Tab.get t j := by
  have hk : (k == j) = false := by simpa using fun e => h e.symm
  induction t with
  | nil => simp [Tab.set, Tab.get, hk]
  | cons p r ih =>
    obtain ⟨i, x⟩ := p
    unfold Tab.set
    split
    · simp [Tab.get, hk]
    · split
      · rename_i h1 h2
        subst h2
        simp [Tab.get, hk]
      · cases hi : (i == j) with
        | true => simp [Tab.get, hi]
        | false => simpa [Tab.get, List.find?_cons, hi] using ih

@[simp] theorem Tab.get_del_self {α : Type} (t : Tab α) (k : Nat) : Tab.get (Tab.del t k) k = none := by
  simp only [Tab.get, Tab.del, Option.map_eq_none_iff, List.find?_eq_none]
  intro p hp
  simpa using (List.mem_filter.mp hp).2

theorem Tab.get_del_ne {α : Type} (t : Tab α) (j k : Nat) (h : j ≠ k) : Tab.get (Tab.del t k) j = Tab.get t j := by
  unfold Tab.get Tab.del
  rw [List.find?_filter]
  congr 2
  funext p
  cases hp : (p.1 == j) with
  | false => simp
  | true => simpa using fun e => h ((beq_iff_eq.mp hp) ▸ e)

theorem Tab.find_mod {α : Type} (t : Tab α) (j k : Nat) (f : α → α) :
    (Tab.mod t k f).find? (fun p => p.1 == j) = (t.find? (fun p => p.1 == j)).map (fun p => if p.1 == k then (p.1, f p.2) else p) :=
  find_modWhere t (fun p => p.1 == k) (fun p => p.1 == j) (fun p => (p.1, f p.2)) (fun _ => rfl)

theorem Tab.get_mod_self {α : Type} (t : Tab α) (k : Nat) (f : α → α) : Tab.get (Tab.mod t k f) k = (Tab.get t k).map f := by
  unfold Tab.get
  rw [Tab.find_mod]
  cases h : t.find? (fun p => p.1 == k) with
  | none => rfl
  | some p => have hp : (p.1 == k) = true := List.find?_some (p := fun p : Nat × α => p.1 == k) h; simp [beq_iff_eq.mp hp]

theorem Tab.get_mod_ne {α : Type} (t : Tab α) (j k : Nat) (f : α → α) (h : j ≠ k) : Tab.get (Tab.mod t k f) j = Tab.get t j := by
  unfold Tab.get
  rw [Tab.find_mod]
  cases hf : t.find? (fun p => p.1 == j) with
  | none => rfl
  | some p =>
    have hp : (p.1 == j) = true := List.find?_some (p := fun p : Nat × α => p.1 == j) hf
    have hk : ¬p.1 = k := by rw [beq_iff_eq.mp hp]; exact h
    simp [hk]

/-! ### Memory -/

theorem memRead_cons (c : Host.Cell) (m : List Host.Cell) (a : Nat) : memRead (c :: m) a = if c.1 = a then c.2 else memRead m a := by
  by_cases h : c.1 = a
  · simp [memRead, h]
  · have : (c.1 == a) = false := by simpa using h
    simp [memRead, this, h]

/-- Reading another byte than the one written gives what it gave before. -/
theorem memRead_memWrite_ne (m : List Host.Cell) (a j : Nat) (b : Byte) (h : j ≠ a) : memRead (memWrite m a b) j = memRead m j := by
  induction m with
  | nil =>
    unfold memWrite
    split
    · rfl
    · rw [memRead_cons, if_neg (fun e => h e.symm)]
  | cons c r ih =>
    obtain ⟨k, v⟩ := c
    unfold memWrite
    split
    · split
      · rfl
      · rw [memRead_cons, if_neg (fun e => h e.symm)]
    · split
      · rename_i h2
        subst h2
        split
        · rw [memRead_cons, if_neg (fun e => h e.symm)]
        · rw [memRead_cons, memRead_cons, if_neg (fun e => h e.symm), if_neg (fun e => h e.symm)]
      · rw [memRead_cons, memRead_cons, ih]

/-- Every address listed is above a, in canonical form. -/
def memAbove (a : Nat) : List Host.Cell → Bool
  | [] => true
  | (k, v) :: r => a < k && v != 0 && memAbove k r

theorem memWf_cons (k : Nat) (v : Byte) (r : List Host.Cell) : memWf ((k, v) :: r) = (v != 0 && memAbove k r) := by
  induction r generalizing k v with
  | nil => simp [memWf, memAbove]
  | cons c r ih =>
    obtain ⟨k2, v2⟩ := c
    simp only [memWf, memAbove, ih]
    cases (v != 0) <;> simp [Bool.and_assoc]

theorem memAbove_wf (a : Nat) (m : List Host.Cell) (h : memAbove a m = true) : memWf m = true := by
  cases m with
  | nil => rfl
  | cons c r => rw [memWf_cons]; simp [memAbove] at h; simp [h]

theorem memAbove_mono (a j : Nat) (m : List Host.Cell) (h : memAbove a m = true) (hj : j ≤ a) : memAbove j m = true := by
  cases m with
  | nil => rfl
  | cons c r => simp [memAbove] at h ⊢; exact ⟨⟨by omega, h.1.2⟩, h.2⟩

/-- Nothing is listed at or below a bound of every address. -/
theorem memRead_above (a j : Nat) (m : List Host.Cell) (h : memAbove a m = true) (hj : j ≤ a) : memRead m j = 0 := by
  induction m generalizing a with
  | nil => rfl
  | cons c r ih =>
    simp [memAbove] at h
    rw [memRead_cons, if_neg (by omega)]
    exact ih c.1 h.2 (by omega)

theorem memAbove_memWrite (a j : Nat) (b : Byte) (m : List Host.Cell) (h : memAbove a m = true) (hj : a < j) :
    memAbove a (memWrite m j b) = true := by
  induction m generalizing a with
  | nil => unfold memWrite; split <;> simp_all [memAbove]
  | cons c r ih =>
    obtain ⟨k, v⟩ := c
    simp [memAbove] at h
    unfold memWrite
    split
    · split <;> simp_all [memAbove]
    · split
      · split
        · exact memAbove_mono k a r h.2 (by omega)
        · simp_all [memAbove]
      · simp [memAbove, h.1, ih k h.2 (by omega)]

/-- A write of a byte keeps the canonical form. -/
theorem memWf_memWrite (m : List Host.Cell) (a : Nat) (b : Byte) (h : memWf m = true) : memWf (memWrite m a b) = true := by
  cases m with
  | nil => unfold memWrite; split <;> simp_all [memWf]
  | cons c r =>
    obtain ⟨k, v⟩ := c
    rw [memWf_cons] at h
    simp at h
    unfold memWrite
    split
    · split
      · rw [memWf_cons]; simp [h]
      · rw [memWf_cons]; simp_all [memAbove]
    · split
      · split
        · exact memAbove_wf k r h.2
        · rename_i h2 h3; subst h2; rw [memWf_cons]; simp [h]; exact h3
      · rw [memWf_cons]; simp [h, memAbove_memWrite k a b r h.2 (by omega)]

/-- A write of a string keeps the canonical form. -/
theorem memWf_memWriteAll (l : Bytes) (m : List Host.Cell) (a : Nat) (h : memWf m = true) : memWf (memWriteAll m a l) = true := by
  induction l generalizing m a with
  | nil => exact h
  | cons b r ih => exact ih _ _ (memWf_memWrite m a b h)

/-- Reading the byte written gives it. -/
theorem memRead_memWrite_self (m : List Host.Cell) (a : Nat) (b : Byte) (h : memWf m = true) : memRead (memWrite m a b) a = b := by
  induction m with
  | nil => unfold memWrite; split <;> simp_all [memRead]
  | cons c r ih =>
    obtain ⟨k, v⟩ := c
    have hr := h
    rw [memWf_cons] at h
    simp at h
    unfold memWrite
    split
    · split
      · rename_i h1 h2
        rw [memRead_cons, if_neg (by simp; omega), memRead_above k a r h.2 (by omega), h2]
      · rw [memRead_cons, if_pos rfl]
    · split
      · split
        · rename_i h2 h3; rw [memRead_above k a r h.2 (by omega), h3]
        · rw [memRead_cons, if_pos rfl]
      · rename_i h1 h2
        rw [memRead_cons, if_neg (by simpa using fun e => h2 e.symm)]
        exact ih (memAbove_wf k r h.2)

/-- Reading outside a string written gives what it gave before. -/
theorem memRead_memWriteAll_out (l : Bytes) (m : List Host.Cell) (a j : Nat) (h : j < a ∨ a + l.length ≤ j) :
    memRead (memWriteAll m a l) j = memRead m j := by
  induction l generalizing m a with
  | nil => rfl
  | cons b r ih =>
    simp at h
    rw [memWriteAll, ih _ _ (by omega), memRead_memWrite_ne _ _ _ _ (by omega)]

end Sys2Proof.Machine
end

