-- ==== Sys2Proof/Laws/Commands.lean ====
section
/-! SUPPORT. What the operations shared by the ring commands do: a command that is ready runs its work, one that ends is Done, data goes out, a
raised source stands in EVT_STATUS, an island's record is written. -/
namespace Sys2Proof.Machine
open Sys2Proof

/-! ### Descriptors -/

theorem descOf_id {s : State} {d : Nat} {x : Desc} (h : descOf s d = some x) : x.id = d := by
  unfold descOf at h
  simpa using List.find?_some h

/-- A ready command whose operands pass its checks does its work (R115, R119). -/
theorem hostCmd_ready {op d : Nat} {s : State} {x : Desc} {checks : Bytes → List Check} {f : Desc → State → State} (h : Ready op d s x)
    (hc : checkFaults (checks x.bytes) = []) : hostCmd op d checks f s = f x s := by
  obtain ⟨h1, h2, h3, -, h5, h6, h7, h9, -, h8⟩ := h
  have e9 : ¬(needsAtoll op && !isUp s 9) = true := by
    rcases h9 with h9 | h9 <;> simp [h9]
  have e0 : ¬(servedBy op != 0 && !isUp s (servedBy op)) = true := by
    rcases h7 with h7 | h7 <;> simp [h7]
  have ei : ¬((inputOf x.bytes).isSome && x.input.isNone) = true := by
    intro e
    simp only [Bool.and_eq_true] at e
    have := h8 e.1
    rw [Option.isNone_iff_eq_none.mp e.2] at this
    exact absurd this (by decide)
  unfold hostCmd
  rw [h1]
  simp only [h2, h3, h6, h5, hc, List.append_nil, List.min?_nil]
  rw [if_neg (by simp), if_neg e9, if_neg e0, if_neg ei]

/-- The descriptor of a command that can still end is held, and its ring pair's completions are not discarded. -/
abbrev Live (d : Nat) (s : State) : Prop := ∃ x, descOf s d = some x ∧ x.stage ≠ .done ∧ x.orphan = false

theorem Ready.live {op d : Nat} {s : State} {x : Desc} (h : Ready op d s x) : Live d s :=
  ⟨x, h.1, by rw [h.2.1]; decide, h.2.2.2.1⟩

/-- What leaves the descriptors alone leaves a command's descriptor. -/
theorem Live.of_descs {d : Nat} {s t : State} (h : Live d s) (e : t.host.descs = s.host.descs) : Live d t := by
  obtain ⟨x, a, b, c⟩ := h
  exact ⟨x, by unfold descOf at *; rw [e]; exact a, b, c⟩

theorem Live.of_only {d : Nat} {l : List Part} {s t : State} (h : Live d s) (ho : OnlyParts l s t) (hl : Part.descs ∉ l) : Live d t :=
  h.of_descs (ho .descs hl).1

theorem Live.onDesc {d : Nat} {s : State} {f : Desc → Desc} (h : Live d s)
    (hf : ∀ z, (f z).id = z.id ∧ (z.stage ≠ .done → (f z).stage ≠ .done) ∧ (f z).orphan = z.orphan) : Live d (onDesc d f s) := by
  obtain ⟨x, a, b, c⟩ := h
  refine ⟨f x, ?_, (hf x).2.1 b, by rw [(hf x).2.2]; exact c⟩
  unfold descOf at a ⊢
  unfold Machine.onDesc
  simp only [onHost_host]
  rw [find_modWhere _ _ _ _ (fun z => by rw [(hf z).1]), a, Option.map_some]
  have := descOf_id (s := s) a
  simp [this]

/-- A command that ends is Done with that status, detail and result (R116). -/
theorem done_finish {d status detail : Nat} {result : Bytes} {s : State} (h : Live d s) :
    Done d status detail result (finish d status detail result s) := by
  obtain ⟨x, a, b, c⟩ := h
  have hid := descOf_id a
  unfold finish Done
  rw [a]
  simp only [c, beq_iff_eq, b, if_false, Bool.false_eq_true]
  unfold descOf
  simp only [onHost_host]
  rw [List.find?_append]
  have : (List.find? (fun z : Desc => z.id == d) (List.filter (fun y => y.id != d) (onRing x.ring (fun r => { r with failed := r.failed || status != 0 }) s).host.descs)) = none := by
    rw [List.find?_eq_none]
    intro z hz
    have := (List.mem_filter.mp hz).2
    simpa using this
  simp [this, hid]

theorem done_finishOk {d : Nat} {result : Bytes} {s : State} (h : Live d s) : Done d 0 0 result (finishOk d result s) := done_finish h

/-- A command that ends changes no other record of the state. -/
theorem finish_host {d status detail : Nat} {result : Bytes} {s : State} :
    finish d status detail result s = { s with host := (finish d status detail result s).host } := by
  unfold finish
  split
  · rfl
  · split
    · rfl
    · split <;> rfl

theorem descOf_onDesc {d : Nat} {s : State} {f : Desc → Desc} (hf : ∀ z, (f z).id = z.id) : descOf (onDesc d f s) d = (descOf s d).map f := by
  unfold descOf onDesc
  simp only [onHost_host]
  rw [find_modWhere s.host.descs (fun x => x.id == d) (fun x => x.id == d) f (fun z => by rw [hf z])]
  cases h : s.host.descs.find? (fun x => x.id == d) with
  | none => rfl
  | some x =>
    have := descOf_id (s := s) h
    simp [this]

/-- A command that waits is Waits. -/
theorem waits_holdDesc {d : Nat} {s : State} (h : Live d s) : Waits d (holdDesc d s) := by
  obtain ⟨x, a, -, -⟩ := h
  unfold Waits holdDesc
  rw [descOf_onDesc (f := fun x => { x with stage := .waiting }) (fun _ => rfl), a]
  rfl

/-- A command that waits for its record: the record's durability completes it (R31). -/
theorem waits_finishDurable {d : Nat} {result : Bytes} {s : State} (h : Live d s) : WaitsDurable d result (finishDurable d result s) := by
  refine ⟨waits_holdDesc (h.of_only (l := [.journal]) only_whenDurable (by decide)), ?_⟩
  show _ ∈ s.jr.waits ++ [_]
  exact List.mem_append_right _ (List.mem_singleton.mpr rfl)

/-! ### Data for the host -/

/-- Outputs that are emitted one by one are all out. -/
theorem emits_out {α : Type} (f : α → Output) (l : List α) (s : State) : (l.foldl (fun s p => emit (f p) s) s).out = s.out ++ l.map f := by
  induction l generalizing s with
  | nil => simp
  | cons a l ih => simp [ih]

/-- What stays while outputs are emitted. -/
theorem emits_host {α : Type} (f : State → α → Output) (hf : ∀ s t p, t.host = s.host → f t p = f s p) (l : List α) (s : State) :
    l.foldl (fun s p => emit (f s p) s) s = l.foldl (fun t p => emit (f s p) t) s := by
  suffices h : ∀ u : State, u.host = s.host → l.foldl (fun s p => emit (f s p) s) u = l.foldl (fun t p => emit (f s p) t) u from h s rfl
  induction l with
  | nil => intro u _; rfl
  | cons a l ih =>
    intro u hu
    simp only [List.foldl_cons]
    rw [hf s u a hu]
    exact ih _ hu

/-- A module whose host stands at its own link writes the data, in pieces that the payload size allows (R100, R123). -/
theorem putOut_out {d addr : Nat} {data : Bytes} {s : State} (h : remoteHosted s = false) (hm : isMute s d = false) :
    (putOut d addr data s).out = s.out ++ (spans s.host.maxPayload addr data.length).map (fun p => .hostWrite p.1 (slice data (p.1 - addr) p.2) s.host.relaxOn) := by
  have hw : ∀ (use : MsgUse) (t : State), t.rs = s.rs → t.out = s.out → t.host.maxPayload = s.host.maxPayload → t.host.relaxOn = s.host.relaxOn →
      (writeOut addr data true use t).out =
        s.out ++ (spans s.host.maxPayload addr data.length).map (fun p => .hostWrite p.1 (slice data (p.1 - addr) p.2) s.host.relaxOn) := by
    intro use t hr ho hp hx
    unfold writeOut
    have : remoteHosted t = false := by
      unfold remoteHosted at *
      rw [hr]
      exact h
    rw [if_neg (by rw [this]; decide), emits_host _ (fun u v p e => by rw [e]), emits_out, ho, hp, hx]
    rfl
  unfold putOut hostStore
  rw [if_neg (by rw [hm]; decide)]
  exact hw _ _ rfl rfl rfl rfl

theorem putOut_putOut {d addr : Nat} {data : Bytes} {s : State} (hm : isMute s d = false) : PutOut s addr data (putOut d addr data s) := by
  intro h p hp
  rw [putOut_out h hm]
  exact List.mem_append_right _ (List.mem_map.mpr ⟨p, hp, rfl⟩)

theorem Ready.notMute {op d : Nat} {s : State} {x : Desc} (h : Ready op d s x) : isMute s d = false := by
  obtain ⟨h1, -, -, -, -, -, -, -, hm, -⟩ := h
  unfold isMute
  rw [h1]
  exact hm

theorem live_putOut {d addr : Nat} {data : Bytes} {s : State} (h : Live d s) : Live d (putOut d addr data s) := by
  unfold putOut hostStore
  split
  · exact h
  refine Live.of_only (l := [.out, .arch]) ?_ only_writeOut (by decide)
  exact (h.of_descs (t := onHost _ s) rfl).onDesc (fun z => ⟨rfl, id, rfl⟩)

/-! ### Events -/

theorem evt_sendVector {v : Nat} {s : State} : (sendVector v s).host.evt = s.host.evt :=
  (only_sendVector (v := v) (s := s) .events (by decide)).1

theorem evt_noteDetail {n info : Nat} {s : State} : (noteDetail n info s).host.evt = s.host.evt := by
  unfold noteDetail
  split <;> rfl

/-- A raised source stands in EVT_STATUS (R126, R127). -/
theorem raised_raise {n info : Nat} {s : State} (hn : n < 64) : Raised n (raise n info s) := by
  unfold raise setSource
  split
  · assumption
  · have h : (onHost (fun h => { h with evt := h.evt ||| (1 <<< n) }) (noteDetail n info s)).host.evt.getLsbD n = true := by
      show ((noteDetail n info s).host.evt ||| BitVec.ofNat 64 (1 <<< n)).getLsbD n = true
      rw [BitVec.getLsbD_or, BitVec.getLsbD_ofNat, Nat.one_shiftLeft, Nat.testBit_two_pow_self, decide_eq_true hn, Bool.and_self, Bool.or_true]
    simp only
    split
    · unfold Raised
      rw [evt_sendVector]
      exact h
    · exact h

/-- Raising one source clears no other. -/
theorem raised_other {n info m : Nat} {s : State} (h : Raised m s) : Raised m (raise n info s) := by
  unfold raise setSource
  have h' : (noteDetail n info s).host.evt.getLsbD m = true := by rw [evt_noteDetail]; exact h
  split
  · exact h'
  · have h2 : (onHost (fun h => { h with evt := h.evt ||| (1 <<< n) }) (noteDetail n info s)).host.evt.getLsbD m = true := by
      show ((noteDetail n info s).host.evt ||| BitVec.ofNat 64 (1 <<< n)).getLsbD m = true
      rw [BitVec.getLsbD_or, h', Bool.true_or]
    simp only
    split
    · unfold Raised
      rw [evt_sendVector]
      exact h2
    · exact h2

/-! ### Islands -/

/-- An island that runs is one of those held. -/
theorem isUp_lt {s : State} {n : Nat} (h : isUp s n = true) : n < s.isl.length := by
  apply Nat.lt_of_not_le
  intro hc
  unfold isUp islOf at h
  rw [List.getD_eq_getElem?_getD, List.getElem?_eq_none hc] at h
  exact absurd h (by decide)

theorem isUp_of {s t : State} {n : Nat} (h : t.isl = s.isl) : isUp t n = isUp s n := by
  unfold isUp islOf
  rw [h]

theorem islOf_onIsl {s : State} {n : Nat} {f : Isl → Isl} (h : n < s.isl.length) : islOf (onIsl n f s) n = f (islOf s n) :=
  getD_modAt_self s.isl n f Isl.reset h

theorem islOf_onIsl_ne {s : State} {m n : Nat} {f : Isl → Isl} (h : m ≠ n) : islOf (onIsl n f s) m = islOf s m :=
  getD_modAt_ne s.isl m n f Isl.reset h

/-- A source asks for the reset of an island that runs, outside an episode: it is idled first (R82, R87). -/
theorem startIslandReset_running {n src : Nat} {s : State} (h1 : 1 ≤ n) (h2 : n ≤ 13) (h3 : isUp s n = true) (h4 : s.rs.episode = false) :
    (islOf (startIslandReset n src s) n).phase = .idleReq ∧ (islOf (startIslandReset n src s) n).srcNo = src := by
  have hp : (islOf s n).phase = .running := by
    unfold isUp at h3
    simpa using h3
  unfold startIslandReset
  rw [if_neg (by simp [hp, h4]; omega)]
  have : ∀ o t, islOf (emit o t) n = islOf t n := fun _ _ => rfl
  rw [this, islOf_onIsl (isUp_lt h3)]
  exact ⟨rfl, rfl⟩

end Sys2Proof.Machine
end

