-- ==== Sys2Proof/Machine/Contacts.lean ====
section
/-! DEFINITION. The contacts (R38, R42 to R44): the table of the contacts' functions, the column of the table of R42 in force for the island
that owns a contact, the state of each group of contacts, and the levels of READY, FAULT_N, WAKE_N and LEASE_TX. -/
namespace Sys2Proof.Machine
open Sys2Proof

/-- Groups of contacts that take their states together: the rows of R38, parted where R42 parts them. -/
inductive Contact where
  | mains | rf | eth | pcieTx | pcieRx | perstN | clkreqN | wakeN | isthTx | isthRx | leaseTx | leaseRx | vin | vbat | resetN | ready | faultN
  | mode | conTx | conRx | tck | tms | tdi | tdo | gpio | ppsIn | tpulse | tariff | tamper | rs485 | rsv | gnd
  deriving DecidableEq, Repr

/-- Dir of R38. -/
inductive ContactDir where
  | input | output | inOut | supply | ground | none
  deriving DecidableEq, Repr

/-- Domain of R38. -/
inductive ContactDomain where
  | iso | main | holm
  deriving DecidableEq, Repr

/-- The internal 50 kΩ pull of an input (R38). -/
inductive Pull where
  | up | down
  deriving DecidableEq, Repr

/-- A row of R38: the contacts' numbers, direction, island, domain and pull. -/
structure ContactRow where
  numbers : List Nat
  dir : ContactDir
  island : Option Nat
  domain : Option ContactDomain
  pull : Option Pull
  deriving DecidableEq, Repr

/-- Contacts a to b. -/
def contactSpan (a b : Nat) : List Nat := (List.range (b + 1 - a)).map (a + ·)

/-- The table of contact functions (R38). -/
def contactRow : Contact → ContactRow
  | .mains => ⟨contactSpan 1 4, .inOut, some 12, some .iso, none⟩
  | .rf => ⟨[22, 25], .inOut, some 13, some .main, none⟩
  | .eth => ⟨contactSpan 27 34 ++ contactSpan 36 43, .inOut, some 10, some .main, none⟩
  | .pcieTx => ⟨[46, 47, 49, 50], .output, some 10, some .main, none⟩
  | .pcieRx => ⟨[52, 53, 55, 56], .input, some 10, some .main, none⟩
  | .perstN => ⟨[58], .input, some 10, some .main, some .down⟩
  | .clkreqN => ⟨[59], .inOut, some 10, some .main, none⟩
  | .wakeN => ⟨[60], .output, some 0, some .holm, none⟩
  | .isthTx => ⟨[62, 63], .output, some 11, some .main, none⟩
  | .isthRx => ⟨[65, 66], .input, some 11, some .main, none⟩
  | .leaseTx => ⟨[68], .output, some 11, some .main, none⟩
  | .leaseRx => ⟨[69], .input, some 11, some .main, some .down⟩
  | .vin => ⟨contactSpan 70 77, .supply, none, some .main, none⟩
  | .vbat => ⟨[86], .supply, some 0, some .holm, none⟩
  | .resetN => ⟨[88], .input, some 0, some .holm, some .up⟩
  | .ready => ⟨[89], .output, some 1, some .main, none⟩
  | .faultN => ⟨[90], .output, some 0, some .holm, none⟩
  | .mode => ⟨[91, 92, 93], .input, some 1, some .main, some .up⟩
  | .conTx => ⟨[94], .output, some 1, some .main, some .up⟩
  | .conRx => ⟨[95], .input, some 1, some .main, some .up⟩
  | .tck => ⟨[96], .input, some 1, some .main, some .down⟩
  | .tms => ⟨[97], .input, some 1, some .main, some .up⟩
  | .tdi => ⟨[98], .input, some 1, some .main, some .up⟩
  | .tdo => ⟨[99], .output, some 1, some .main, none⟩
  | .gpio => ⟨contactSpan 101 108, .inOut, some 1, some .main, none⟩
  | .ppsIn => ⟨[110], .input, some 10, some .main, none⟩
  | .tpulse => ⟨contactSpan 111 114, .output, some 10, some .main, none⟩
  | .tariff => ⟨contactSpan 116 119, .input, some 8, some .main, none⟩
  | .tamper => ⟨contactSpan 120 123, .input, some 0, some .holm, none⟩
  | .rs485 => ⟨[125, 126, 128, 129], .inOut, some 4, some .main, none⟩
  | .rsv => ⟨[131, 132, 133], .none, none, none, none⟩
  | .gnd => ⟨contactSpan 5 20 ++ [21, 23, 24, 26, 35, 44, 45, 48, 51, 54, 57, 61, 64, 67] ++ contactSpan 78 85 ++
      [87, 100, 109, 115, 124, 127, 130] ++ contactSpan 134 144, .ground, none, none, none⟩

/-- Columns of the table of R42. -/
inductive Column where
  | reset | run | ebb | hold | off
  deriving DecidableEq, Repr

/-- States of R42. The states of EBB that limit what a contact may do stand beside `act`; `gated` is that of R44; `supply` and `unconnected`
are the contacts that R42 has no row for. -/
inductive ContactState where
  | z | pullUp | pullDown | low | released | act | off | linkDown | receiveOnly | idleHigh
  | sampled          -- pull-up, sampled in P2
  | ignored          -- input, ignored
  | pullUpIgnored | pullDownIgnored
  | offLow           -- off, held low by the pull-down
  | beaconsOnly      -- receive continuous, transmit beacons and downlink only
  | dutyCycled
  | act100           -- at 100 Mbit/s or lower
  | actL1            -- L1 substates allowed
  | supply | unconnected
  deriving DecidableEq, Repr

/-- An island's contacts act: it runs, or awaits its IDLE_ACK (R43, R82). NET's clock and Ethernet contacts are released in P6 (R89). -/
def contactsAct (s : State) (c : Contact) (n : Nat) : Bool :=
  ((islOf s n).phase == .running || (islOf s n).phase == .idleReq) &&
    !((c == .eth || c == .ppsIn || c == .tpulse) && s.rs.starting && s.rs.phase < 7) &&
    !((c == .pcieTx || c == .pcieRx || c == .clkreqN) && s.rs.perst)

/-- The column in force for a contact of island n: a reset in force, or the power state (R42, R43). -/
def columnOf (s : State) (c : Contact) (n : Nat) : Column :=
  if n = 0 then
    if !s.pw.vinOk && s.pw.st == .off && !s.rs.episode then .off
    else if s.rs.episode then .reset
    else if s.pw.st == .hold then .hold else if s.pw.st == .ebb then .ebb else .run
  else if !s.pw.vinOk then .off
  else if s.pw.st == .hold && !mainOn s then .hold
  else if s.rs.episode || !contactsAct s c n then .reset
  else if s.pw.st == .ebb then .ebb else .run

/-- The pull of an input alone. -/
def pullOf (c : Contact) : ContactState :=
  match (contactRow c).pull with
  | some .up => .pullUp
  | some .down => .pullDown
  | none => .z

/-- The table of R42; TDO is driven while debug is unlocked or DBG_CHAL or DBG_RESP is selected (R490). RESET_N and TAMPER_0..3 are ignored
until HOLM runs. -/
def contactTable (s : State) (c : Contact) (k : Column) : ContactState :=
  match c, k with
  | .vin, _ | .vbat, _ | .gnd, _ => .supply
  | .rsv, _ => .unconnected
  | .resetN, _ | .tamper, _ => if isUp s 0 then .act else .ignored
  | .mains, .reset | .rf, .reset | .isthTx, .reset | .isthRx, .reset | .tdo, .reset => .z
  | .eth, .reset | .pcieTx, .reset | .pcieRx, .reset => .linkDown
  | .perstN, .reset | .gpio, .reset => .pullDown
  | .leaseRx, .reset => .pullDownIgnored
  | .mode, .reset => .sampled
  | .conTx, .reset => .pullUp
  | .conRx, .reset | .tck, .reset | .tms, .reset | .tdi, .reset => pullOf c
  | .clkreqN, .reset | .wakeN, .reset | .faultN, .reset => .released
  | .leaseTx, .reset | .ready, .reset | .tpulse, .reset => .low
  | .ppsIn, .reset | .tariff, .reset => .ignored
  | .rs485, .reset => .receiveOnly
  | .mains, .ebb => .beaconsOnly
  | .rf, .ebb => .dutyCycled
  | .eth, .ebb => .act100
  | .pcieTx, .ebb | .pcieRx, .ebb => .actL1
  | .mode, .run | .mode, .ebb => .pullUpIgnored
  | .conTx, .run | .conTx, .ebb => .idleHigh
  | .tdo, .run | .tdo, .ebb => if s.keys.debug || s.keys.jtagIr == 0x10 || s.keys.jtagIr == 0x11 then .act else .z
  | .wakeN, .hold | .faultN, .hold => .act
  | .wakeN, .off | .faultN, .off => .released
  | .leaseTx, .hold | .leaseTx, .off => .offLow
  | .ready, .hold | .ready, .off => .low
  | .rs485, .hold | .rs485, .off => .z
  | _, .run | _, .ebb => .act
  | _, .hold | _, .off => .off

/-- State of a group of contacts. The transmitters of the mains contacts, RF and RS-485 are gated off on a module that may not send (R44):
their receivers stay. -/
def contactState (s : State) (c : Contact) : ContactState :=
  let v := contactTable s c (columnOf s c ((contactRow c).island.getD 0))
  match c with
  | .mains | .rf | .rs485 => if !maySend s && (v == .act || v == .beaconsOnly || v == .dutyCycled) then .receiveOnly else v
  | _ => v

/-- The contact is in its operating state, be it limited by EBB. -/
def contactActs (s : State) (c : Contact) : Bool := contactTable s c (columnOf s c ((contactRow c).island.getD 0)) == .act

/-- READY is driven high in P7 (R43, R89). -/
def readyHigh (s : State) : Bool := contactActs s .ready && s.rs.phase == 7
/-- FAULT_N is driven low while an island is marked failed (R83). -/
def faultLow (s : State) : Bool := contactActs s .faultN && anyFailed s
/-- WAKE_N is driven low after a wake from HOLD (R104). -/
def wakeLow (s : State) : Bool := contactActs s .wakeN && s.host.wakeN
/-- LEASE_TX (R391). -/
def leaseTxHigh (s : State) : Bool := contactActs s .leaseTx && s.pair.leaseTx

end Sys2Proof.Machine
end

