-- ==== Sys2Proof/WellFormed.lean ====
section
/-! DEFINITION. Which commands are well formed: every operand within the range that the manual gives the thing it names (a queue, a ring
pair, an island, a phase). A command carrying a descriptor's number is well formed for every number. A meaning given an operand out
of range finds nothing there and changes nothing. -/
namespace Sys2Proof

/-- An island other than HOLM (R14). -/
def isIsland (n : Nat) : Bool := 1 ≤ n && n ≤ 13

/-- A terminal number of the station table (R300). -/
def isTei (n : Nat) : Bool := 1 ≤ n && n ≤ 1024

/-- An image type with slots (R457). -/
def isType (n : Nat) : Bool := 1 ≤ n && n ≤ 7

/-- A failing symbol is one of the code's symbols (R23). -/
def eccOk (symbols : Nat) : Ecc → Bool
  | .none => true
  | .one k => k < symbols
  | .two => true
  | .many => true

/-- Every operand is in its range. -/
def Instr.wellFormed (i : Instr) : Bool :=
  match i with
  | .straitMessage x => Machine.straitJoins x.src x.dst && x.kind < 4 && eccOk 36 x.err && eccOk 36 x.again
  | .soundRequest x => x.reqs.all (fun r => r.port < 16 && r.addr % 16 == 0 && eccOk 36 r.err && eccOk 36 r.carry) && x.weights.all (fun w => w.1 < 16 && w.2 < 16)
  | .frameArrival q _ => q < 8
  | .queuePoll q e _ => q < 8 && eccOk 36 e
  | .workItemCreate a => match a with
    | .reading q => q < 8
    | .host _ => true
    | .other c p sp k h _ n n0 n1 d => c < 3 && p < 8 && sp < 4 && k < 2 ^ 64 && h < 256 && n < 128 && (n0.getD 0) < 16384 && (n1.getD 0) < 16384 && d < 65536
  | .itemRunTimeout c => c < 24
  | .coreDrain c => c < 24
  | .coreDrained c => c < 24
  | .balWaitExpire n => n < 65536
  | .vinWarn v => v < 1024
  | .vinWarnClear v => v < 1024
  | .vinOn v => v < 1024
  | .holmPowerOn v => v < 1024
  | .islWdtExpire i => isIsland i
  | .thermalSample t => -100 < t && t < 300
  | .admitRequest i c n => isIsland i && 1 ≤ c && c ≤ 5 && 0 < n && n < 256
  | .admitRelease i n => isIsland i && n < 256
  | .admitWaitExpire i => isIsland i
  | .idleAck i => isIsland i
  | .idleTmoExpire i => isIsland i
  | .resetHoldEnd i => isIsland i
  | .pllLockHeld i => isIsland i
  | .pllLockFail i => isIsland i
  | .lockRetryExpire i => isIsland i
  | .pcieLinkUp g w => 1 ≤ g && g ≤ 4 && (w == 1 || w == 2 || w == 4)
  | .registerWrite b _ v => b < 7 && v.size ≤ 8
  | .qctrlFlush q => q < 8
  | .ringEnable r => r < 32
  | .ringDisable r => r < 32
  | .ringStopDone r => r < 32
  | .doorbellSqTail r _ => r < 32
  | .doorbellCqHead r _ => r < 32
  | .coalTimeExpire r => r < 32
  | .msixVectorUnmask w => match w with
    | .vector n _ => n < 64
    | .functionMask _ => true
    | .enable _ => true
  | .evtStatusClear h _ => h < 2
  | .fenceZlrReturn r => r < 32
  | .fenceZlrTimeout r => r < 32
  | .deliverFlushExpire r => r < 32
  | .tariffCodeStable c => c < 16
  | .calendarCross c => c < 4
  | .billingSweep c => c < 4
  | .valveRetry m => m < 2 ^ 20
  | .beaconPeriodStart p z => p < 3 && z < 65536
  | .plcFrameRx f => f.phase < 3 && f.fc.length == 16 && f.mags.all (· < 256) && f.pbs.all (fun p => p.1 < 8)
  | .plcDownlinkTx p => p < 3
  | .loadClassMeasure p n z t a => p < 3 && n < 65536 && z < 65536 && t < 65536 && a < 65536
  | .toneMapSend t => isTei t
  | .pbHoldExpire t q => isTei t && q < 256
  | .radioSlotStart r => r ≤ 2
  | .radioFrameRx f => f.radio < 2 && f.mode < 8 && f.payload.length < 2048
  | .childSilent m => m < 2 ^ 20
  | .wiredPollDue p a => p < 2 && a < 256
  | .wiredResponse p _ => p < 2
  | .wiredRespTimeout p => p < 2
  | .ptpMessageRx p _ => p < 2
  | .ptpTxDue p _ => p < 2
  | .timeCheckDue t => isTei t
  | .tpulseInstant o => o < 4
  | .confirmRx _ m r t => m < 4096 && r < 2 ^ 384 && t < 2 ^ 384
  | .urrResetRx m => m < 4096
  | .urrHandshakeTimeout m => m < 4096
  | .urrRekey m => m < 4096
  | .urrKeepaliveDue m => m < 4096
  | .urrSessionDead m => m < 4096
  | .urrResend m _ => m < 4096
  | .urrGiveUp m _ => m < 4096
  | .forwardSend m => m < 4096
  | .fwdWaitExpire m _ => m < 4096
  | .fwdBusyExpire m _ => m < 4096
  | .memWriteZlrDone m _ => m < 4096
  | .renewRx a b c d => a < 2 ^ 32 && b < 256 && c < 256 && d < 2 ^ 64
  | .renewAckRx a b => a < 2 ^ 32 && b < 512
  | .releaseRx q => q < 2 ^ 64
  | .journalAckRx q => q < 2 ^ 64
  | .confirmedRx l => l.all (· < 2 ^ 64)
  | .catchupReqRx q => q < 2 ^ 64
  | .tamperSourceActive k _ => k < 10
  | .jtagDbgResp r t => r < 2 ^ 384 && t < 2 ^ 384
  | .jtagBypass c => c < 32
  | .flashPageProgram k => k < 3
  | .collection d => d < 4
  | .programFail d b => d < 4 && b < 10896
  | .eraseFail d b => d < 4 && b < 10896
  | .dieFail d => d < 4
  | .trialWindowEnd t => isType t
  | .imageConfirm t => isType t
  | .recorderSample c _ => c < 30
  | .bgActivityDispatch r => r.progress.length ≤ 11 && eccOk 36 r.scrubErr && r.die < 4 && r.block < 10880
  | .bgPeriodEnd a => a < 11
  | .pllLockLost i => isIsland i
  | .ethLinkChange p _ _ _ => p < 2
  | .mainsZeroCrossing p => p < 3
  | .plcSackTimeout t => isTei t
  | .radioPartnerFrameRx f => f.radio < 2 && f.mode < 8
  | .itemDispatch | .itemResume _ | .itemEnd _ _ | .prioAgeTick _ | .budgetWindow | .authDone _ | .validationDone _
  | .conversionDone _ _ _ | .firmwarePathResult _ _ | .postingAppend _ | .groupCommitStart | .groupCommitComplete
  | .balanceFold _ | .replayWindowEnd | .vinBo | .vbatLost | .holmWdtExpire | .sysWdtExpire | .resetNAssert | .resetNRelease
  | .resetEpisodeEnd | .admitTick | .powerSet _ | .holdWakeAlarm | .p1PowerSwitch | .phaseP0End | .phaseP1End | .phaseP2End
  | .phaseP3End | .phaseP4End | .phaseP5End | .pcieLinkDown _ | .phaseP6End | .perstNAssert | .perstNRelease | .lagoonRead _ | .lagoonWrite _
  | .setupDoneWrite | .sysResetWrite _ | .islCtrlReset _ | .resetCauseClear _ | .descriptorFetch | .completionWrite _ _ | .nop _
  | .deliverBuf _ | .deliverConfirm _ | .steerSet _ | .meterEnrol _ | .meterRemove _ | .meterQuery _ | .routePin _
  | .profileSet _ | .prefixAdd _ | .prefixDel _ | .tableReseed _ | .reseedShadowDone | .tableSweep | .tableRebuildDone
  | .bucketReloadDone _ | .ovfStoreReloadDone | .schedSet _ | .schedStats _ | .schedSatClear _ | .quarRead _ | .quarRelease _
  | .intakeStats _ | .intakeSet _ | .virialSet _ | .convTest _ | .convStats _ | .katRun _ _ | .tariffOverrideExpire
  | .tariffMapSet _ | .tariffOverride _ | .tariffFollow _ | .billCalSet _ | .custodySet _ | .ledgerRead _ | .profileRead _
  | .auditRead _ | .ledgerSet _ | .ledgerStats _ | .friendlyEnd | .prepaySet _ | .topup _ | .valveCmd _ | .friendlySet _
  | .prepayRead _ | .prepayLogRead _ | .prepayStats _ | .nodeSet _ | .nodeMember _ | .nodeRead _ | .nodeRelearn _
  | .balReportRead _ | .indicatorRead _ | .indicatorClear _ | .balStats _ | .plcSet _ | .plcStationRead _ | .plcTonemapReset _
  | .plcStats _ | .radioSet _ | .radioProfileSet _ | .radioChildRead _ | .radioStats _ | .wiredSet _ | .wiredPollSet _
  | .wiredPollRead _ | .wiredStats _ | .rtcSetTick | .ptpSourceLost | .ppsEdge | .ppsSourceLost | .clockStepItem | .leapSecond
  | .clockValidChange | .timeCfg _ | .timeSet _ | .timeZoneSet _ | .tpulseSet _ | .timeRead _ | .timeStats _ | .timeNowNsRead
  | .helloRx _ | .helloReplyRx _ | .urrDatagramRx _ | .urrJoinRetry | .timeBroadcastDue | .tariffBroadcastDue | .bcastHoldLapse
  | .archSet _ | .archDirSet _ | .archPeers _ | .rhostSet _ | .remoteReg _ | .archLeave _ | .archStats _ | .isthmusTrained
  | .isthmusDown _ | .renewSend | .leaseExpire | .takeoverTimerExpire | .leaseRxChange _ | .journalRx _ | .mirrorTmoExpire
  | .pairSet _ | .pairSwitch _ | .pairForce _ | .pairHealthRead _ | .pairStats _ | .keyUpdate _ | .keyEntryApply _ _
  | .killSequenceDone | .keyStatusRead _ | .deviceKeyRead _ | .tamperClear _ | .tamperLatchW1c _ | .debugChallenge _
  | .debugUnlock _ | .debugLock _ | .keyStats _ | .challengeExpire | .jtagDbgChal | .jtagScan | .checkpointStart
  | .checkpointDone | .nandTempSample _ | .poolReclaim | .hostnsSet _ | .hostnsRead _ _ | .hostnsWrite _ | .hostnsDiscard _
  | .flashHealthRead _ | .flashCheckpoint _ | .flashStats _ | .imageBegin _ | .imageData _ | .imageEnd _ | .imageActivate _
  | .activationGroupDone | .imageRevert _ | .imageStatusRead _ | .campaignStart _ | .campaignQueryRound _ | .campaignStatus _
  | .campaignCancel _ | .stageForward _ | .stageFree _ | .recorderFlushDue | .recorderThawDue | .recCursorWrite _
  | .recWindowLoaded | .recWindowAutoInc | .recStatusClear _ | .cntSatClear _ | .dramRetrain | .recorderRead _
  | .recorderFreeze _ | .recorderThaw _ | .recorderFlush _ | .recorderExtReset _ | .eccLogRead _ | .eccStats _ | .eccSet _
  | .bgStats _ | .slewCtrlWrite _ | .dbgItem0Read | .catchupCheckpointRx _ _ _ _ | .hostDmaCompletion _ _ => true

end Sys2Proof
end

