-- ==== Sys2Proof/Tests/Slice0.lean ====
section
/-! SUPPORT. Tests of the model: ill-formed commands that the check refuses, values worked out from the manual, and for every statement with
hypotheses a state and operands that meet them, clause by clause. -/
namespace Sys2Proof.Machine.Tests
open Sys2Proof

set_option Elab.async false

/-! ### States and commands of these tests -/

/-- The module in service: every island runs, P7. -/
def up : State :=
  onTbl (fun t => { t with state := 0 }) <| onRs (fun r => { r with phase := 7 }) { State.reset with isl := State.reset.isl.map (fun i => { i with phase := .running }) }

/-- A descriptor of an opcode with some field bytes, started. -/
def dsc (op : Nat) (fields : List (Nat × Bytes) := []) (input : Option Bytes := none) : Desc :=
  { id := 5, ring := 0, slot := 0, stage := .started, input := input, status := 0, detail := 0, result := [], writes := 0, orphan := false, mute := false, undo := .none
    bytes := fields.foldl (fun b f => f.2.zipIdx.foldl (fun b v => setAt b (f.1 + v.2) v.1) b) (BitVec.ofNat 8 op :: List.replicate 63 0) }

/-- A state with that command started as descriptor 5. -/
def withCmd (s : State) (op : Nat) (fields : List (Nat × Bytes) := []) (input : Option Bytes := none) : State :=
  onHost (fun h => { h with descs := [dsc op fields input] }) s

/-- A METER_EVENT frame of identity 77, COUNTER 5, without content. -/
def depState : State := onSch (fun c => { c with deps := [(6, { value := 1, item := some 9, failed := false })], items :=
  [{ blankItem 0 3 0 7 1 with slot := 4, state := .running 2, step := .posted, notify0 := some 6 },
    { blankItem 0 3 0 8 1 with slot := 9, state := .waiting, dep := some 6 }] }) up
def dispatchState : State := onSch (fun c => { c with cores := modAt c.cores 0 (fun k => { k with powered := true, drained := false }), items :=
  [{ blankItem 0 3 0 7 1 with slot := 4, noFlow := true }, { blankItem 0 4 0 8 1 with slot := 5, noFlow := true }] }) up
def preemptState : State := onSch (fun c => { c with cores := modAt c.cores 0 (fun k => { k with powered := true, drained := false }), items :=
  [{ blankItem 0 3 0 7 1 with slot := 4, noFlow := true, state := .running 0 },
    { blankItem 2 4 0 8 1 with slot := 64512, noFlow := true }] }) up
def frm : QFrame :=
  { meta16 := [28, 0, 0x50] ++ List.replicate 13 0, meas := Meas.none
    bytes := [0x31, 0, 77, 0, 0, 0, 0, 0, 0, 0, 5, 0, 0, 0, 0, 0] ++ [0x62, 0x05, 0xDB, 0xA9, 0x22, 0xFD, 0xEF, 0x4E, 0xD5, 0x09, 0xCA, 0xBD] }

/-- The entry of that meter, short index 3. -/
def ent : MEntry := newEntry up 77 3 0 true
def withMeter (s : State) : State :=
  onDb (fun d => { d with entries := [(3, ent)], mstate := [(3, MState.fresh)], std := [(3, Std.fresh 0)] })
    (onTbl (fun t => { t with slots := [{ short := 3, bucket := 0, ovf := false }] }) s)
def authRd : Reading := { newReading 5 frm with short := 3 }
def authItem : Item := { blankItem 0 3 0 77 0 with slot := 4, state := .parked, step := .authWait, reading := some authRd }
def authState : State :=
  onSch (fun c => { c with items := [authItem] }) (onKeys (fun k => { k with unlocked := true, st := 1, cache := [(3, List.replicate 16 0)] }) (withMeter up))
/-- The same reading, authenticated; it waits for validation. -/
def valItem : Item := { authItem with step := .validWait }
def valState : State := onSch (fun c => { c with items := [valItem] }) (onCv (fun c => { c with okA := true, okB := true }) (withMeter up))
/-- A custody reading whose two paths differ. -/
def fwA : AltBlock := { outcome := 0, valFlags := 0, ns := [1], residuals := [] }
def fwRd : Reading := { authRd with pathA := some fwA, pathB := some { fwA with valFlags := 1 } }
def fwState : State := onSch (fun c => { c with items := [{ valItem with step := .thirdPath, state := .running 0, reading := some fwRd }] }) valState
/-- A meter event (frame type 3) ready to post. -/
def postRd : Reading := { authRd with plain := List.replicate 4 0, frame := setAt authRd.frame 1 3 }
def postState : State := onSch (fun c => { c with items := [{ valItem with step := .postWait, reading := some postRd }] }) valState
def quar : Quar :=
  { seq := 9, id := 77, short := 3, reason := 2, link := 0, valFlags := 0, arrival := 0, counter := 5, bytes := frm.bytes, outOfRange := false, meta16 := frm.meta16 }
/-- Two points, T = 1 and 2, B = 0. -/
def virBytes : Bytes := toLE 8 0x3FF0000000000000 ++ toLE 8 0 ++ toLE 8 0x4000000000000000 ++ toLE 8 0
def convBytes : Bytes := [0, 0, 1, 1] ++ List.replicate 252 0
/-- A profile of one electricity quantity without conversion, RETRY_TIME 60, 8 digits. -/
def profBytes : Bytes := [(0, 1), (3, 1), (404, 8), (408, 255), (450, 60)].foldl (fun b v => setAt b v.1 (BitVec.ofNat 8 v.2)) (List.replicate 451 0)
/-- The clock is valid and calendar 1 closes each day at 00:00. -/
def crossState : State :=
  saveOpt (fun o => { o with cals := setAt o.cals 1 { kind := 1, day := 0, hour := 0, minute := 0 } }) (onTm (fun t => { t with validSeen := true }) up)
def crossAt : Int × Int := ((comingBoundary crossState 1).getD (0, 0))
/-- A profile with prepayment, and one of four quantities. -/
def withProfile (body : Bytes) (s : State) : State :=
  onDb (fun d => { d with profiles := [(1, { body := body, version := 1, old := none })], pfxs := [{ table := 0, len := 0, key := 0, value := 1 }] }) s
def custodyState (f : List (Nat × Bytes)) : State := withProfile (setAt profBytes 3 4) (withMeter (withCmd up 0x24 f))
def custRec : Cust := Cust.fresh 3 0
def prepayStd (f : Prepay → Prepay) : Std := { Std.fresh 0 with prepay := f (Std.fresh 0).prepay }
def prepayState (p : Prepay → Prepay) (f : List (Nat × Bytes)) (op : Nat) : State :=
  onKeys (fun k => { k with unlocked := true, cache := [(3, List.replicate 16 0)] })
    (onTm (fun t => { t with validSeen := true })
      (onDb (fun d => { d with std := [(3, prepayStd p)] }) (withProfile (setAt profBytes 448 1) (withMeter (withCmd up op f)))))
/-- A VALVE_CLOSE on its way to meter 3. -/
def flightState : State :=
  onDb (fun d => { d with valves := [(3, { ValveState.fresh with cmdSeq := 1, flight := some (0x20, 1, 0, 1) })] })
    (prepayState (fun p => { p with enabled := true, valve := 2, tries := 1 }) [] 0)
def foldRec : JRec :=
  { kind := 1, seq := 9, global := false, channel := 127, short := 3, time := 0, flags := 0, body := .posting (emptyBody 0 0) }
def aNode : Node := Node.fresh none 0 0 15 0 15
def nodeFields : List (Nat × Bytes) := [(16, [4, 0, 0xFF, 0xFF, 0, 15, 0, 1]), (24, [50, 0, 0xF4, 1, 60, 0, 0, 0])]
def memberState (f : List (Nat × Bytes)) : State :=
  onTm (fun t => { t with counter := 1000000000000000 })
    (onDb (fun d => { d with nodes := [(4, aNode)] }) (withProfile (setAt profBytes 320 0x10) (withMeter (withCmd up 0x39 f))))
/-- The three phases are in service and the link may send. -/
def plcState : State :=
  saveOpt (fun o => { o with plc := { o.plc with phases := 7 } })
    (onPlc (fun p => { p with phases := p.phases.map (fun q => { q with set := { q.set with phases := 7 } }) })
      (onPair (fun p => { p with gate := true }) (onIsl 12 (fun i => { i with grant := 24 }) up)))
def plcRx : PlcRx := { phase := 0, fcOk := true, fc := [1, 0, 0, 5, 0, 0, 4, 9, 0, 0, 0xFF, 0xFF], pbs := [], snr := [20, 3, 3], margin := 1, mags := [] }
def plcJoinState : State := withProfile (setAt profBytes 8 7) (withMeter plcState)
def plcTx (w : Bool) : PlcTx := { seq := 9, body := [1, 2], pbSize := 0, pbCount := 1, done := 0, rounds := 0, toneMap := false, waiting := w }
def plcStation (w : Bool) : Station := { newStation 5 77 none 0 0 0 0 [] with queue := [plcTx w] }
def plcQueueState (w : Bool) : State := onPlc (fun p => { p with stations := [plcStation w] }) plcState
def plcHold : PlcHold := { seq := 9, pbs := [], count := 1, size := 0, since := 100000000, whole := false }
def plcFields : List (Nat × Bytes) := [(16, [1, 7, 9, 0, 3, 12, 10, 0, 10, 20, 30, 100, 30, 10, 44, 1])]
def pairCfg : PairCfg := { pairId := 1, sync := true, lease := 10, guard_ := 1, mirrorTmo := 100, partner := 2 }
/-- Both radios run. -/
def radioState : State :=
  onRad (fun r => { r with radios := r.radios.map (fun x => { x with set := { x.set with enable := true } }) })
    (onPair (fun p => { p with gate := true }) (onIsl 13 (fun i => { i with grant := 24 }) up))
def radioRx : RadioRx :=
  { radio := 0, fcsOk := true, layoutOk := true, panId := 0, source := 77, macSeq := 1, kind := 4, flags := 0, linkByte := 0xFF, time := 0,
    payload := [], mode := 0, channel := 0, rssi := -200, cfo := 0, start := 20, stamp := 0 }
def radioChild : Child :=
  { short := 3, id := 77, radio := 0, hw := none, pollSlot := 0, pollOfs := 0, dataMode := 0, drift := 0, silent := false, hopVersion := 0,
    rssi := 0, cfo := 0, channel := 0, quality := 0, heard := 0, queue := [], offered := none, dlWait := false, exchange := none, skew := none }
def radioFields : List (Nat × Bytes) := [(16, [0, 1, 1, 10, 1, 0, 1, 0, 1, 0, 0, 60, 0, 0])]
/-- Profile 3 with four channels. -/
def regBytes : Bytes :=
  [(0, 3), (1, 1), (6, 200), (8, 4), (9, 0), (10, 10), (14, 60), (16, 15), (48, 255), (56, 255), (64, 255), (72, 255)].foldl
    (fun b v => setAt b v.1 (BitVec.ofNat 8 v.2)) (List.replicate 128 0)
/-- One electricity value of address 9 on port 1, each hour. -/
def pollBytes : Bytes := padTo 144 [1, 9, 0, 1, 0x10, 0x0E, 0, 0, 0, 0, 0, 0, 0, 0, 0, 0, 1, 0, 0, 3, 1]
def poll : PollEntry :=
  { bytes := pollBytes, short := 3, id := 77, counter := 7, bump := false, held := none, lastResult := 0, lastExc := 0, failed := 2, silent := false
    suspended := false, lastDue := none }
/-- Port 1 runs and holds that entry. -/
def wiredState : State :=
  onDb (fun d => { d with polls := [(265, poll)] })
    (onWir (fun w => { w with set := w.set.map (fun v => { v with enable := true }) }) (onPair (fun p => { p with gate := true }) authState))
def wiredTx : WiredTx := { address := 9, todo := requestsOf pollBytes, words := [], tries := 0, change := none, waiting := [] }
def wiredTxState : State := setTx 1 (some wiredTx) wiredState
/-- The time counter runs; a master is selected on port 0. -/
def aMaster : Master :=
  { port := 0, gm := 7, priority1 := 1, clockClass := 6, priority2 := 1, utcOffset := 37, utcValid := false, leap61 := false, leap59 := false }
def timeState : State := onTm (fun t => { t with runs := true, master := some aMaster, cfg := { t.cfg with ports := 3 } }) up
/-- A class U item of a clock step runs on core 2. -/
def stepItem : Item := { blankItem 2 7 3 0 1 with slot := 64512, noFlow := true, task := .clockStep, state := .running 2 }
def stepState : State := onSch (fun c => { c with items := [stepItem] }) timeState
def timeStep : StepAsk := { cause := 1, old := 0, new := 5000000000, err := 0, desc := none }
def timeFields : List (Nat × Bytes) :=
  [(16, [2, 1, 0, 0, 128, 128, 0, 1, 0, 3, 0, 0, 100, 0, 0, 0, 10, 0, 0, 0, 1, 0, 1, 0])]
def checkState : State :=
  onTm (fun t => { t with cfg := { t.cfg with checkPeriod := 60 } }) (onPlc (fun p => { p with stations := [newStation 5 77 none 0 0 0 0 []] }) authState)
def aSession : Session :=
  { txId := 5, rxId := 5, txKey := List.replicate 32 0, rxKey := List.replicate 32 0, txSalt := [0, 0, 0, 0], rxSalt := [0, 0, 0, 0], txSeq := 0, rxHigh := 0, rxSet := [],
    since := 0, rxAt := 0, txAt := 0 }
def aPeer : Peer := { Peer.fresh 9 8 with state := 1, session := some aSession, nextId := 4 }
def outMsg (u : MsgUse) : OutMsg := { msgId := 4, type := 0x10, flags := 2, body := [], use := u, ack := true, first := 0, last := 0, rto := 100 }
/-- A message `[2]`, r = s = its hash, and the key under which that signature holds (R - G with R at abscissa r). -/
def sigE : Nat := 33750065268495529574932666342322076192589114497619245129949337146713516424303643899998842747758705341771693003546473
def sigKey : Nat × Nat := (27724005210814955755181343692686032540680445212788637993068781829480169933497637831453733479898458336049954036954130, 31835564559501825665034193890245469220927980474296170769374605265329833719261805158386847455789764673195641352331196)
def archState (use : Option MsgUse) : State :=
  onArch (fun a => { a with role := 1, member := 8, peers := [{ aPeer with out := (use.map outMsg).toList }] }) up
def fwdFrame (k : Option Nat) : FwdFrame := { id := 77, frame := frm, body := [], msgId := k, sent := 0, holdTo := 0 }
/-- One frame for home 9, whose session is up. -/
def fwdArchState (k : Option Nat) : State :=
  onArch (fun a => { a with fwd := [fwdFrame k] }) (onDb (fun d => { d with entries := [(3, { ent with homeSelf := false, home := 9 })] }) (archState none))
/-- SEQ 1 on session 5, sealed, with no message in it. -/
def aDatagram : Bytes :=
  [16, 0, 0, 5, 0, 0, 0, 0, 0, 0, 0, 1, 0, 0, 0, 0, 26, 183, 60, 229, 228, 104, 237, 90, 215, 126, 97, 178, 238, 251, 120, 189]
/-- A HELLO of member 9 under that key. -/
def gBytes : Bytes := List.replicate 36 0 ++ [4] ++ toBE 48 p384G.1 ++ toBE 48 p384G.2 ++ List.replicate 5 0
def aCert : Cert := { tbs := [2], sigR := sigE, sigS := sigE, pubX := 1, pubY := 2, member := 9, unit := 5, notBefore := 0, notAfter := 1 }
def aHello : Hello := { isthmus := false, body := gBytes, cert := aCert, sigR := 0, sigS := 0 }
def helloState : State :=
  let s := saveOpt (fun o => { o with authority := some sigKey, cert := some [] }) (onKeys (fun k => { k with unlocked := true, slots := k.slots.map (fun r => { r with valid := true }) }) (archState none))
  onArch (fun a => { a with dir := [{ state := 1, role := 2, member := 9, address := 0, port := 0 }] }) s
def aHandshake : Handshake :=
  { initiator := true, rxId := 5, peerRx := 0, hello := [3], eph := 1, since := 0, ready := none, h := [], pubX := 0, pubY := 0 }
def replySig : Nat := 38354414981605660665696656024217992235731162607922412738604783712456086234671416347147451687156695129885107311035808
/-- The HELLO_REPLY to that handshake. -/
def replyHello : Hello :=
  { isthmus := false, body := gBytes, sigR := replySig, sigS := replySig
    cert := { aCert with
      pubX := 14266163314981208565448705195470938815896025125323194429123990035246483525368298743242558183414620683754784974260053
      pubY := 3402694909810396141348888380986450951257626382111163225377810917638349254272724409746790699719986966238989697902139 } }
def replyState : State := onPeer 9 (fun p => { p with session := none, hs := some aHandshake }) helloState
def confirmHs : Handshake := { aHandshake with initiator := false, h := [2], pubX := sigKey.1, pubY := sigKey.2, ready := some aSession }
def confirmState : State := onPeer 9 (fun p => { p with session := none, resp := some confirmHs }) helloState
/-- The isthmus lane is trained; this member is active. -/
def laneState (s : State) : State :=
  onArch (fun a => { a with member := 0 }) (onPair (fun p => { p with trained := true, cfg := some { pairCfg with partner := 5 }, st := .active, leaseRx := false }) s)
def archFields : List (Nat × Bytes) := [(16, [9, 0, 0, 0, 10, 0, 8, 0, 60, 0, 3])]
def dirBytes : Bytes := padTo 24 [0x50, 9]
def hubState (op : Nat) (f : List (Nat × Bytes)) : State :=
  onHost (fun h => { h with descs := [dsc op f] }) (onArch (fun a => { a with role := 2, member := 0 }) helloState)
/-! Update messages for UNIT_ID 0. Each of the last three is signed as `sigE` is, under a key of its own. -/
def headKeys : Bytes := [68, 80, 85, 75, 2, 1, 1] ++ List.replicate 13 0 ++ [4, 0, 0, 0, 184] ++ List.replicate 223 0
def sigKeys : Nat := 18240101889411666259434028551331838852576590426287370758114024665708094957431885593289897395169828306593702050829268
def msgKeys : Bytes := headKeys ++ toBE 48 sigKeys ++ toBE 48 sigKeys
def keyKeys : Nat × Nat :=
  (24525801065905770773580748417231926024373061381670123640996101888614939255659952839626185687938197481738025801753291,
   12504316098798455595750608867526756820580282498622977940240325260903752107841923717928583515976533720826478497186428)
def headCert : Bytes := [68, 80, 85, 75, 3, 1] ++ List.replicate 14 0 ++ [3, 0, 0, 0, 1] ++ List.replicate 39 0 ++ [1]
def sigCert : Nat := 26942902693074215081101029225454798965920582800368641048256303418642463259115450291602179948245436772342303677925240
def msgCert : Bytes := headCert ++ toBE 48 sigCert ++ toBE 48 sigCert
def keyCert : Nat × Nat :=
  (37027361661466372860613401662756886731314885901029246050797007046171742547111759850136551342401744104453741121685608,
   11605713397836123780006386350748298182747729002429677637240935279409859440590119689636502270152332886208713414507241)
def headTamper : Bytes := [68, 80, 85, 75, 4, 1] ++ List.replicate 14 0 ++ [5, 0, 0, 0, 16] ++ List.replicate 49 0 ++ [10, 0, 0, 0, 0, 0]
def sigTamper : Nat := 14436620834490529505660202292649896270015263416189257661111785744508300829674208021841028146661254833613522340435211
def msgTamper : Bytes := headTamper ++ toBE 48 sigTamper ++ toBE 48 sigTamper
def keyTamper : Nat × Nat :=
  (16919252790173183572008930566641332463589228684771679745706017984104990570468549329577745848483511583603506204291573,
   10839301894154870608691558520626402501353110685749583117183697956841343658374607557774461437018740533224836610508065)
/-- A MODULE message with the authority's key G, signed with the private key 1. -/
def headCommission : Bytes :=
  [68, 80, 85, 75, 1, 1] ++ List.replicate 18 0 ++ [112] ++ List.replicate 39 0 ++ [4] ++ toBE 48 p384G.1 ++ toBE 48 p384G.2 ++ [1] ++ List.replicate 14 0
def sigCommission : Nat × Nat :=
  (26247035095799689268623156744566981891852923491109213387815615900925518854738050089022388053975719786650872476732087,
   6397982975289422974700434364079420885875185028531762538851499187385484406757503754437823868221428990721688588212909)
def msgCommission : Bytes := headCommission ++ toBE 48 sigCommission.1 ++ toBE 48 sigCommission.2
def keyDsc (m : Bytes) : Desc := dsc 0x80 [(32, toLE 4 m.length)] (some m)
def keyCmd (st : Nat) (m : Bytes) : State :=
  let key := if m = msgKeys then keyKeys else if m = msgCert then keyCert else keyTamper
  saveOpt (fun o => { o with authority := some key })
    (onKeys (fun k => { k with unitId := 0, st := st, unlocked := true, slots := k.slots.map (fun r => { r with valid := true }) })
      (onHost (fun h => { h with descs := [keyDsc m] }) up))

/-- The pair: this member in a state, the isthmus Up. -/
def pairState (st : PairState) : State :=
  onPair (fun p => { p with cfg := some pairCfg, st := st, isthmus := { p.isthmus with session := some aSession }, leaseRx := false }) (laneState up)
/-- A standby whose checks have all passed. -/
def healthyState : State :=
  onPair (fun p => { p with takeover := some (0, 0, 0), dramAt := some 0, katAt := some 0, flashAt := some 0, catchup := false, partnerKeys := [] })
    (pairState .standby)
def aRoot : Root := { n := 1, j := 4, s := 0, image := Db.reset, good := true, copyGood := true }
def pairBytes : Bytes := padTo 32 [1, 0, 0, 0, 0, 0, 0, 0, 0, 0, 200, 0, 50, 0, 20, 0]
/-- An entry for a meter that is not enrolled. -/
def keyEntry : KeyEntry := { id := 77, mode := 0, key := none, blob := [], pre := 0 }
def setEntry : KeyEntry := { keyEntry with key := some (List.replicate 16 0) }
def keyMsg : KeyMsg := { desc := 5, entries := [keyEntry, keyEntry], counter := 1, status := [none, none], seq := 0 }
def entryState : State :=
  onKeys (fun k => { k with st := 1, unlocked := true, slots := k.slots.map (fun r => { r with valid := true }), msgs := [keyMsg] }) up
def debugDsc : Desc := dsc 0x85 [] (some (toBE 48 sigE ++ toBE 48 sigE))
def debugState (m : Bytes) : State :=
  saveOpt (fun o => { o with authority := some sigKey, debugAllowed := true })
    (onKeys (fun k => { k with st := 1, challenge := some (m, 0) }) (onHost (fun h => { h with descs := [debugDsc] }) up))

/-! The flash store. -/
def aCheckpoint : Root := { n := 7, j := 0, s := 0, image := Db.reset, good := true, copyGood := true }
def cpState (d : Option Nat) : State := holdDesc 5 (onFl (fun f => { f with mount := 1, running := some (aCheckpoint, d) }) (withCmd up 0x95))
def aBlock (die : Nat) : Block :=
  { die := die, num := 20, st := .open_, erases := 1, reads := 0, stream := 1, openSeq := 1, pages := [], emptied := 0 }
def flashState : State := onFl (fun f => { f with mount := 1, blocks := (List.range 4).map aBlock }) up
/-- Die 0 has no free block; its block 20 is closed. -/
def closedState : State := onFl (fun f => { f with mount := 1, fresh := [20000, 16, 16, 16], blocks := [{ aBlock 0 with st := .closed }] }) up

/-! Images. The headers of a power-line image and of a meter image whose body is `[7]`, each signed as `sigE` is. -/
def header416 (type version : Nat) : Bytes :=
  [0x31, 0x47, 0x4D, 0x49, BitVec.ofNat 8 type, 0] ++ (if type ≤ 7 then [0x44, 0x61] else [0, 0]) ++ List.replicate 12 0 ++ toLE 4 version ++
    List.replicate 8 0 ++ [1] ++ List.replicate 7 0 ++
    toBE 48 37119695597561245103510210655384224987389884291209174395192522138673426954558063920169467473986962650408814501385983 ++
    List.replicate 328 0
def sigImg : Nat := 22676548287496466268331282949944224469214971103439802567868670497358500890499110204069212655980216311909438289477618
def imgHead : Bytes := header416 3 10 ++ toBE 48 sigImg ++ toBE 48 sigImg
def keyImg : Nat × Nat :=
  (39129300659861630197406952344775959498506803010482987798189186956458727662521372323316129641578248837475892317932493,
   11510877304938158666482000833069170997792091798477585534353025711018907649480772384621162216452130590308357893431000)
def sigStage : Nat := 39172474904447306445772725223404002868584886403750988028258132400102376949440175217851081919351156518483733987054393
def stageHead : Bytes := header416 8 3 ++ toBE 48 sigStage ++ toBE 48 sigStage
def keyStage : Nat × Nat :=
  (39368403861335147196485617716637382733734450986128843644861276649024943620053443735863878968422294475846244007903170,
   32604652118749364366928535110677852827607003878851842114018903667206457476455011545353745159128007451334043148055359)
def imgCmd (m : Bytes) : Desc := dsc 0xA0 [] (some m)
def imgState (m : Bytes) : State :=
  saveOpt (fun o => { o with authority := some keyStage })
    (onKeys (fun k => { k with st := 1, imageKey := keyImg }) (onHost (fun h => { h with descs := [imgCmd m] }) up))
def rxSlot (body : Bytes) : ImgSlot := { header := imgHead, body := body, complete := false }
/-- Types 3 and 7 receive that image. -/
def rxState (op : Nat) (f : List (Nat × Bytes)) (input : Option Bytes) (body : Bytes) : State :=
  onImg (fun i => { i with types := i.types.map (fun t => { t with slotA := some (rxSlot body), slotB := some (rxSlot body), receiving := true }) })
    (withCmd up op f input)
/-- Every inactive slot holds a complete image. -/
def fullState (f : List (Nat × Bytes)) : State :=
  onImg (fun i => { i with types := i.types.map (fun t => { t with slotB := some { rxSlot [7] with complete := true } }) }) (withCmd up 0xA3 f)
def anAct (type step : Nat) : Activation := { type := type, step := step, desc := 5, trial := 600, back := false, loaded := true }
def actState (type step : Nat) : State := holdDesc 5 (onImg (fun i => { i with act := some (anAct type step) }) (withCmd up 0xA3))
/-- The power-line image is on trial in slot 1. -/
def trialState (s : State) : State :=
  onImg (fun i => { i with types := setAt i.types 2 { ImgType.reset with running := 1, state := 1, deadline := some 9 } }) s
def stagedSlot : ImgSlot := { header := stageHead, body := [7], complete := true }
def stagedState (s : State) : State := onImg (fun i => { i with staging := [(2, stagedSlot)] }) s
def aTarget : Target := { short := 3, state := 1, result := 0, answered := false, missing := [], asked := none, heard := false }
def aCampaign : Campaign :=
  { id := 1, entry := 2, media := 31, rounds := 5, burst := 16, delay := 2, key := [], start := 0, round := 1, toPlc := [], toA := [], toB := []
    targets := [], cmdSeq := 0, lastDone := 0, applyAt := none, finished := false }
def campState (c : Campaign) (s : State) : State := onImg (fun i => { i with campaigns := [c] }) (stagedState s)
def startFields : List (Nat × Bytes) := [(16, [2, 31]), (32, [1])]
/-- The meter of that target is on link 0. -/
def startState : State :=
  onDb (fun d => { d with entries := [(3, { ent with link := 0 })] }) (stagedState (withMeter (withCmd up 0xA6 startFields (some [3, 0, 0, 0]))))

/-- s with the work item of command 5, class U, already made. -/
def withItem (s : State) : State := onSch (fun h => { h with items := [{ blankItem 2 0 0 77 0 with desc := some 5 }] }) s
/-- s in mid-second. -/
def quietState (s : State) : State := onTm (fun t => { t with counter := 500000000 }) s

/-! ### Ill-formed commands -/

def goodXfer : StraitXfer := { src := 1, dst := 2, data := 0, first := true, last := true, kind := 1, copyOk := true, err := .none, again := .none }
def goodSound : SoundReq := { port := 3, write := true, addr := 16, data := 0, err := .none, loc := .sram 3, carry := .none }
def aRun : BgRun := { progress := [], scrubErr := .none, scrubAddr := 0, hitByWrite := false, die := 0, block := 0, corrected := [], lost := [], pass := true }

/-- The terms below differ from these in one operand. -/
theorem test_well_formed : ([.straitMessage goodXfer, .soundRequest ⟨[goodSound], [(0, 15)]⟩, .workItemCreate (.other 1 3 0 (7) 1 false 0 none none 0), .plcFrameRx { plcRx with fc := List.replicate 16 0 },
    .radioFrameRx radioRx, .bgActivityDispatch aRun, .admitRequest 1 1 1, .pcieLinkUp 1 1, .registerWrite 0 0 ⟨4, 0⟩, .balWaitExpire 65535] : List Instr).all (fun c => c.wellFormed) = true := by decide +kernel

theorem test_ill_formed_scheduling : ([.straitMessage { goodXfer with src := 14 },
    .straitMessage { goodXfer with dst := 14 },
    .straitMessage { goodXfer with src := 2 },
    .straitMessage { goodXfer with kind := 4 },
    .straitMessage { goodXfer with err := .one 36 },
    .straitMessage { goodXfer with again := .one 36 },
    .soundRequest ⟨[{ goodSound with port := 16 }], []⟩,
    .soundRequest ⟨[{ goodSound with addr := 8 }], []⟩,
    .soundRequest ⟨[{ goodSound with err := .one 36 }], []⟩,
    .soundRequest ⟨[{ goodSound with carry := .one 36 }], []⟩,
    .soundRequest ⟨[goodSound], [(16, 1)]⟩,
    .soundRequest ⟨[goodSound], [(1, 16)]⟩,
    .straitMessage { goodXfer with src := 2, dst := 3 },
    .frameArrival 8 false,
    .queuePoll 8 .none false,
    .queuePoll 0 (.one 36) false,
    .workItemCreate (.reading 8),
    .workItemCreate (.other 3 3 0 (7) 1 false 0 none none 0),
    .workItemCreate (.other 1 8 0 (7) 1 false 0 none none 0),
    .workItemCreate (.other 1 3 4 (7) 1 false 0 none none 0),
    .workItemCreate (.other 1 3 0 (2 ^ 64) 1 false 0 none none 0),
    .workItemCreate (.other 1 3 0 (7) 256 false 0 none none 0),
    .workItemCreate (.other 1 3 0 (7) 1 false 128 none none 0),
    .workItemCreate (.other 1 3 0 (7) 1 false 0 (some 16384) none 0),
    .workItemCreate (.other 1 3 0 (7) 1 false 0 none (some 16384) 0),
    .workItemCreate (.other 1 3 0 (7) 1 false 0 none none 65536),
    .itemRunTimeout 24,
    .coreDrain 24,
    .coreDrained 24,
    .balWaitExpire 65536] : List Instr).all (fun c => !c.wellFormed) = true := by decide +kernel

theorem test_ill_formed_host_and_resets : ([.vinWarn 1024,
    .vinWarnClear 1024,
    .vinOn 1024,
    .holmPowerOn 1024,
    .islWdtExpire 0,
    .islWdtExpire 14,
    .thermalSample (-100),
    .thermalSample 300,
    .admitRequest 0 1 1,
    .admitRequest 1 0 1,
    .admitRequest 1 6 1,
    .admitRequest 1 1 0,
    .admitRequest 1 1 256,
    .admitRelease 14 1,
    .admitRelease 1 256,
    .admitWaitExpire 0,
    .idleAck 14,
    .idleTmoExpire 0,
    .resetHoldEnd 14,
    .pllLockHeld 0,
    .pllLockFail 14,
    .lockRetryExpire 0,
    .pllLockLost 14,
    .pcieLinkUp 0 1,
    .pcieLinkUp 5 1,
    .pcieLinkUp 1 3,
    .registerWrite 7 0 ⟨4, 0⟩,
    .registerWrite 0 0 ⟨9, 0⟩,
    .qctrlFlush 8,
    .ringEnable 32,
    .ringDisable 32,
    .ringStopDone 32,
    .doorbellSqTail 32 0,
    .doorbellCqHead 32 0,
    .coalTimeExpire 32,
    .msixVectorUnmask (.vector 64 true),
    .evtStatusClear 2 0,
    .fenceZlrReturn 32,
    .fenceZlrTimeout 32,
    .deliverFlushExpire 32] : List Instr).all (fun c => !c.wellFormed) = true := by decide +kernel

theorem test_ill_formed_links : ([.tariffCodeStable 16,
    .calendarCross 4,
    .billingSweep 4,
    .valveRetry (2 ^ 20),
    .beaconPeriodStart 3 0,
    .beaconPeriodStart 0 65536,
    .plcFrameRx { plcRx with phase := 3, fc := List.replicate 16 0 },
    .plcFrameRx plcRx,
    .plcFrameRx { plcRx with fc := List.replicate 16 0, mags := [256] },
    .plcFrameRx { plcRx with fc := List.replicate 16 0, pbs := [(8, [])] },
    .plcDownlinkTx 3,
    .loadClassMeasure 3 0 0 0 0,
    .loadClassMeasure 0 65536 0 0 0,
    .loadClassMeasure 0 0 65536 0 0,
    .loadClassMeasure 0 0 0 65536 0,
    .loadClassMeasure 0 0 0 0 65536,
    .toneMapSend 0,
    .pbHoldExpire 1025 0,
    .pbHoldExpire 1 256,
    .mainsZeroCrossing 3,
    .plcSackTimeout 0,
    .radioSlotStart 3,
    .radioFrameRx { radioRx with radio := 2 },
    .radioFrameRx { radioRx with mode := 8 },
    .radioFrameRx { radioRx with payload := List.replicate 2048 0 },
    .radioPartnerFrameRx { radioRx with radio := 2 },
    .radioPartnerFrameRx { radioRx with mode := 8 },
    .childSilent (2 ^ 20),
    .wiredPollDue 2 0,
    .wiredPollDue 0 256,
    .wiredResponse 2 .crcError,
    .wiredRespTimeout 2] : List Instr).all (fun c => !c.wellFormed) = true := by decide +kernel

theorem test_ill_formed_time_and_peers : ([.ptpMessageRx 2 .management,
    .ptpTxDue 2 .sync,
    .timeCheckDue 0,
    .tpulseInstant 4,
    .confirmRx false 4096 0 0,
    .confirmRx false 0 (2 ^ 384) 0,
    .confirmRx false 0 0 (2 ^ 384),
    .urrResetRx 4096,
    .urrHandshakeTimeout 4096,
    .urrRekey 4096,
    .urrKeepaliveDue 4096,
    .urrSessionDead 4096,
    .urrResend 4096 0,
    .urrGiveUp 4096 0,
    .forwardSend 4096,
    .fwdWaitExpire 4096 0,
    .fwdBusyExpire 4096 0,
    .memWriteZlrDone 4096 0,
    .renewRx (2 ^ 32) 0 0 0,
    .renewRx 0 256 0 0,
    .renewRx 0 0 256 0,
    .renewRx 0 0 0 (2 ^ 64),
    .renewAckRx (2 ^ 32) 0,
    .renewAckRx 0 512,
    .releaseRx (2 ^ 64),
    .journalAckRx (2 ^ 64),
    .confirmedRx [2 ^ 64],
    .catchupReqRx (2 ^ 64),
    .tamperSourceActive 10 true,
    .jtagDbgResp (2 ^ 384) 0,
    .jtagDbgResp 0 (2 ^ 384),
    .jtagBypass 32] : List Instr).all (fun c => !c.wellFormed) = true := by decide +kernel

theorem test_ill_formed_store : ([.flashPageProgram 3,
    .collection 4,
    .programFail 4 0,
    .programFail 0 10896,
    .eraseFail 4 0,
    .eraseFail 0 10896,
    .dieFail 4,
    .trialWindowEnd 0,
    .imageConfirm 8,
    .recorderSample 30 0,
    .bgActivityDispatch { aRun with progress := List.replicate 12 0 },
    .bgActivityDispatch { aRun with scrubErr := .one 36 },
    .bgActivityDispatch { aRun with die := 4 },
    .bgActivityDispatch { aRun with block := 10880 },
    .bgPeriodEnd 11,
    .ethLinkChange 2 false 0 false] : List Instr).all (fun c => !c.wellFormed) = true := by decide +kernel

/-! ### Values from the manual and from the standards it names -/

/-- No row of the table has bits, so no word spells a command. -/
theorem test_no_word : decodeTableWord 8 0 = none ∧ decodeTableWord 16 0xFFFF = none := by decide

/-- FIPS 180-4's example message "abc". -/
theorem test_sha384_abc : beNat (sha384 [0x61, 0x62, 0x63]) =
    0xcb00753f45a35e8bb5a03d699ac65007272c32ab0eded1631a8b605a43ff5bed8086072ba1e7cc2358baeca134c825a7 := by decide +kernel

/-- FIPS 197, appendix C.1. -/
theorem test_aes128 : beNat (aesEnc (toBE 16 0x000102030405060708090a0b0c0d0e0f) (toBE 16 0x00112233445566778899aabbccddeeff)) =
    0x69c4e0d86a7b0430d8cdb78070b4c55a := by decide +kernel

/-- A command at the front of the queue runs with the rest behind it. -/
theorem test_step_takes_front :
    (match step { up with pending := [.resetCauseClear 1, .budgetWindow] } with | .next t => (t.pending, t.rs.cause) | _ => ([], 1)) =
      ([.budgetWindow], 0) := by decide +kernel

/-- R95's example of chapter 23: SLEW_CTRL resets to 0xAAAA_AAAA; the reference board writes 0x00AA_AAAA. -/
theorem test_slew_reset : readReg up 0 0x1020 = some 0xAAAAAAAA := by decide +kernel

/-- HW_ID shows the type 0x6144 (R5). -/
theorem test_hw_type : (readReg up 0 0x0C).map (· / 65536) = some 0x6144 := by decide +kernel

/-- BKP_7 reads back what was written (R96). -/
theorem test_bkp : (match exec (.registerWrite 0 0x5C ⟨4, 0xDEADBEEF⟩) up with | .next t => (readReg t 0 0x5C, readReg t 0 0x58) | _ => (none, none)) =
    (some 0xDEADBEEF, some 0) := by decide +kernel

/-- Two bits of EVT_STATUS are set; the write clears the one it names (R126). -/
theorem test_evt_w1c : (match exec (.evtStatusClear 1 0x100) (raise 40 0 (raise 42 0 up)) with | .next t => t.host.evt.toNat | _ => 0) = 2 ^ 42 := by
  decide +kernel

/-- The worked example of R145: table 0 holds a prefix of length 24 with profile 17 and one of length 40 with profile 18. -/
def twoPrefixes : List Pfx :=
  [{ table := 0, len := 24, key := 0x4F3A2C0000000000, value := 17 }, { table := 0, len := 40, key := 0x4F3A2C0712000000, value := 18 }]
theorem test_trie : trieLookup twoPrefixes 0 0x4F3A2C0712000051 = some 18 ∧ trieLookup twoPrefixes 0 0x4F3A2C0713000051 = some 17 := by decide +kernel

/-- The worked example of R417: C = 9,000 programs two bits; after the loss C is 12,288 with a third. -/
theorem test_counter : (let s := lostCounter (takeCounter 9000 up); (s.keys.hwm, s.keys.c)) = (3, 12288) := by decide +kernel

/-- The worked example of R390: the defaults, 500 ms and 50 ms. -/
theorem test_lease : (leaseCyc { pairCfg with lease := 500 }, guardCyc { pairCfg with guard_ := 50 }) = (16384, 1639) := by decide +kernel

/-- A byte of 0 written over a listed byte leaves nothing listed; byte 0 of a unit stands at the lowest address (R7). -/
theorem test_memory : memWrite [(64, 5)] 64 0 = [] ∧ memRead (unitWrite [] 32 0x0102) 32 = 2 ∧ memRead (unitWrite [] 32 0x0102) 33 = 1 ∧
    unitRead (unitWrite [(32, 9)] 32 0x0102) 32 = 0x0102 := by decide +kernel

/-- The current slot is the lowest that is not Dead; what is programmed into a Dead slot leaves it Dead: its bits are one-time (R409). -/
theorem test_current_slot : (currentSlot (onKeys (fun k => { k with slots := [RootSlot.gone, RootSlot.fresh] }) up).keys) = some 1 := by decide +kernel
theorem test_dead_slot (v : BitVec 256) : RootSlot.gone.secret ||| v = RootSlot.gone.secret := BitVec.allOnes_or

/-- An access beyond 2 GiB is the only one that faults (R37). -/
theorem test_dram_end : (match exec (.soundRequest ⟨[{ port := 3, write := true, addr := 2 ^ 31, data := 0, err := .none, loc := .sram 3, carry := .none }], []⟩) up with
    | .fault .dramAddress => true | _ => false) = true := by decide +kernel

/-- An opcode's reserved bytes: SCHED_SET takes bytes 16 to 18 (R166). -/
theorem test_reserved : reservedFaults (dsc 0x4C [(16, [1, 1, 7])]).bytes = [] ∧ reservedFaults (dsc 0x4C [(16, [1, 2, 8, 1])]).bytes = [17, 18, 19] := by
  decide +kernel


/-- The worked example of R190: the water meter's values at 09:00 and 09:15 between its readings at 08:50 and 09:20. -/
theorem test_estimate : estimate 8 99998500 1900 600 0 1800 = 99999133 ∧ estimate 8 99998500 1900 1500 0 1800 = 83 := by decide +kernel

/-- The worked example of R345: TYPE uint32 at register 0x0100, data 0x0012 and 0xD687. -/
def mapBytes : Bytes := [0, 0, 0, 1] ++ List.replicate 12 0 ++ [1, 0xFD, 2, 3, 0, 1] ++ List.replicate 10 0
theorem test_registers : requestsOf mapBytes = [.registers 3 0x100 2] ∧
    rawOf mapBytes (wordsOf (.registers 3 0x100 2) [0x0012, 0xD687]) 0 = 1234567 := by decide +kernel

/-- FIPS 180-4's example message "abc" under SHA-256. -/
theorem test_sha256_abc : beNat (sha256 [0x61, 0x62, 0x63]) =
    0xba7816bf8f01cfea414140de5dae2223b00361a396177a9cb410ff61f20015ad := by decide +kernel

/-- Control and data straits (R15; the pairs are log 93's): CAPE reaches PLC, ATOLL reaches LEDGER, and PLC no strait to RADIO. -/
theorem test_straits : straitJoins 1 12 = true ∧ straitJoins 9 8 = true ∧ straitJoins 12 13 = false := by decide +kernel

/-- R447: the flash patrol finds a lost sector in a closed block; it is counted, and the root that it held does not read back. A page of an open
block whose stripe has parity is rebuilt instead (R438). -/
def oldBlock : Block := { die := 0, num := 16, st := .closed, erases := 1, reads := 0, stream := 0, openSeq := 1, pages := [], emptied := 0 }
def patrolRun : BgRun :=
  { progress := [], scrubErr := .none, scrubAddr := 0, hitByWrite := false, die := 0, block := 16, corrected := [40, 41], lost := [.root 1], pass := true }
def patrolled (b : Block) : State := patrolBlock patrolRun (onFl (fun f => { f with blocks := [b], parity := [(0, 0)], roots := [aRoot] }) up)
theorem test_patrol_lost : (patrolled oldBlock).fl.uncorrectable = 1 ∧ (patrolled oldBlock).fl.roots.map (·.good) = [false] := by decide +kernel
theorem test_patrol_rebuilt : (patrolled { oldBlock with st := .open_ }).fl.stats.getD 5 0 = 1 ∧
    (patrolled { oldBlock with st := .open_ }).fl.roots.map (·.good) = [true] := by decide +kernel

/-! ### States and operands that meet the hypotheses of the statements -/

theorem cyclesSince_now {s : State} {t : Nat} (h : s.now = t) : cyclesSince s t = 0 := by
  unfold cyclesSince
  simp [h]

theorem cyclesNs_zero : cyclesNs 0 = 0 := by
  unfold cyclesNs
  simp only [Nat.zero_mul, Nat.zero_add]
  split
  · rfl
  · exact Nat.div_eq_of_lt (by omega)

theorem free_of {s : State} (h : s.fl.fresh.getD 0 16 = 20000) (he : s.fl.free.getD 0 [] = []) : freeCount s 0 < 128 := by
  unfold freeCount neverOpened blocksPerDie
  rw [h, he, List.length_nil]
  omega

theorem signed_of {s : State} {m : Bytes} {k : Nat × Nat} (h : u8 m 4 = 1) (hk : pointOf (msgBody m) = some k)
    (hv : ecdsaVerify k (m.take (64 + msgBodyLen m)) (beNat (slice m (64 + msgBodyLen m) 48)) (beNat (slice m (64 + msgBodyLen m + 48) 48)) = true) :
    msgSigned s m = true := by
  unfold msgSigned msgKey
  rw [if_pos h, hk]
  exact hv

theorem status_of {s : State} {m : Bytes} (h1 : msgFormat m = true) (h2 : slice m 8 12 = unitBytes s) (h3 : msgState s (u8 m 4) = 0)
    (h4 : msgSigned s m = true) (h5 : u8 m 4 = 1) : msgStatus s m = 0 := by
  rw [h5] at h3
  unfold msgStatus
  simp [h1, h2, h3, h4, h5]

/-- The signature of that COMMISSION holds under the key that the message itself carries. -/
theorem commission_signed (s : State) : msgSigned s msgCommission = true :=
  signed_of (k := p384G) (by decide +kernel) (by decide +kernel) (by decide +kernel)

/-- No traffic of the phases in service meets a frame that starts in mid-period: the longest lasts 51 ms. -/
theorem quiet_of {s : State} (h : ((phasesUp s).all fun q =>
    decide (20000 ≤ periodUs s q ∧ periodUs s q + 51000 ≤ 1000000) && (phaseAt s q).lastPeriod.isNone) = true) :
    meetsTraffic s (durOf s) = false := by
  have hd : durOf s < 256 := Nat.mod_lt _ (by decide)
  unfold meetsTraffic
  rw [List.any_eq_false]
  intro q hq
  have hx := List.all_eq_true.mp h q hq
  rw [Bool.and_eq_true, decide_eq_true_eq, Option.isNone_iff_eq_none] at hx
  obtain ⟨⟨h1, h2⟩, h3⟩ := hx
  simp only [h3, Bool.or_eq_true, decide_eq_true_eq]
  intro hc
  rcases hc with (hc | hc) | hc
  · omega
  · omega
  · simp at hc

theorem wit_StepRunsFront : ∃ (c : Instr) (rest : List Instr) (s : State), s.pending = c :: rest :=
  ⟨.groupCommitStart, [.budgetWindow], { up with pending := [.groupCommitStart, .budgetWindow] }, rfl⟩

theorem wit_StepWithoutCommand : ∃ s : State, s.pending = [] := ⟨up, rfl⟩

/-- Slot 0 Dead, slot 1 Live, the others Fresh; HWM 7; a byte in each memory; 2^40 - 1 operating seconds. -/
def wornState : State :=
  onFab (fun f => { f with dram := [(64, 5)] })
    (onRs (fun r => { r with lagoon := [(0x400, 1)], opSeconds := 2 ^ 40 - 1 })
      (onKeys (fun k => { k with hwm := 7, slots := [RootSlot.gone, { secret := 9, valid := true, dead := false }, RootSlot.fresh, RootSlot.fresh] }) up))

theorem wornState_inv : wornState.Inv where
  dram := by decide +kernel
  lagoon := by decide +kernel
  islands := by decide +kernel
  rings := by decide +kernel
  backup := by decide +kernel
  slots := rfl
  legal := by
    intro r hr
    have hr : r ∈ [RootSlot.gone, { secret := 9, valid := true, dead := false }, RootSlot.fresh, RootSlot.fresh] := hr
    simp only [List.mem_cons, List.not_mem_nil, or_false] at hr
    rcases hr with h | h | h | h <;> subst h
    · exact Or.inr (Or.inr rfl)
    · exact Or.inr (Or.inl ⟨rfl, rfl⟩)
    · exact Or.inl rfl
    · exact Or.inl rfl
  hwm := by decide +kernel
  seconds := by decide +kernel

theorem wit_StepKeepsInvariant : ∃ s t : State, s.Inv ∧ step s = .next t := ⟨wornState, tick wornState, wornState_inv, rfl⟩

theorem wit_OneTimeBitsOnlySet : ∃ s t : State, s.Inv ∧ step s = .next t ∧ s.keys.slots.getD 0 RootSlot.fresh = RootSlot.gone :=
  ⟨wornState, tick wornState, wornState_inv, rfl, rfl⟩

theorem wit_TimeNeverGoesBack : ∃ s t : State, step s = .next t := ⟨up, tick up, rfl⟩

theorem wit_BackupRegisters :
    (∃ (k : Nat) (s : State), k < 8 ∧ s.rs.bkp.length = 8 ∧ regOpen s 0 = true) ∧ (∃ s : State, isUp s 0 = false) ∧
    (∃ s : State, isUp s 0 = true) ∧ (∃ src : RstSrc, srcReach src ≠ 0) ∧ (∃ (c : Instr) (s t : State), exec c s = .next t) :=
  ⟨⟨7, up, by decide +kernel⟩, ⟨onIsl 0 (fun i => { i with phase := .off }) up, by decide +kernel⟩, ⟨up, by decide +kernel⟩, ⟨.sysSw, by decide⟩,
    ⟨.budgetWindow, up, _, rfl⟩⟩

/-- A write and a read of the last unit, and a write of the first. -/
def lastUnit : List SoundReq :=
  [{ port := 3, write := true, addr := 2 ^ 31 - 16, data := 77, err := .none, carry := .none, loc := .sram 3 },
   { port := 4, write := false, addr := 2 ^ 31 - 16, data := 0, err := .none, carry := .none, loc := .sram 3 },
   { port := 3, write := true, addr := 0, data := 78, err := .none, carry := .none, loc := .sram 3 }]

theorem wit_DramUnitsWhole : ∃ (rs : List SoundReq) (s : State), isUp s 3 = true ∧ memWf s.fab.dram = true ∧ s.fab.soundWait = [] ∧
    (∀ r ∈ rs, r.addr % 16 = 0 ∧ r.addr < 2 ^ 31 ∧ r.err = .none ∧ r.carry = .none) := ⟨lastUnit, wornState, by decide +kernel⟩

theorem wit_ReservedIdentities :
    (∃ (d : Nat) (s : State) (x : Desc), Ready 0x10 d s x ∧ u64 x.bytes 16 = 0) ∧
    (∃ (d : Nat) (s : State) (x : Desc), Ready 0x10 d s x ∧ u64 x.bytes 16 = 2 ^ 64 - 1) :=
  ⟨⟨5, withCmd up 0x10, dsc 0x10, by decide +kernel⟩,
   ⟨5, withCmd up 0x10 [(16, List.replicate 8 255)], dsc 0x10 [(16, List.replicate 8 255)], by decide +kernel⟩⟩

theorem wit_SchedulerParameters :
    (∃ (d : Nat) (s : State) (x : Desc), Ready 0x4C d s x ∧ InTurn s x ∧ u8 x.bytes 16 = 1) ∧
    (∃ (d : Nat) (s : State) (x : Desc), Ready 0x4C d s x ∧ InTurn s x ∧ u8 x.bytes 16 = 50) ∧
    (∃ (d : Nat) (s : State) (x : Desc), Ready 0x4C d s x ∧ ¬(1 ≤ u8 x.bytes 16 ∧ u8 x.bytes 16 ≤ 50) ∧ u8 x.bytes 16 = 51) ∧
    (∃ (d : Nat) (s : State) (x : Desc), descOf s d = some x ∧ x.stage = .started ∧ opcodeOf x = 0x4C ∧ x.orphan = false ∧ isUp s 10 = true ∧
      u8 x.bytes 19 ≠ 0) ∧
    (∃ (d : Nat) (s : State) (x : Desc), descOf s d = some x ∧ x.stage = .started ∧ opcodeOf x = 0x4C ∧ x.orphan = false ∧ isUp s 10 = true ∧
      2 ≤ u8 x.bytes 17) ∧
    (∃ (d : Nat) (s : State) (x : Desc), descOf s d = some x ∧ x.stage = .started ∧ opcodeOf x = 0x4C ∧ x.orphan = false ∧ isUp s 10 = true ∧
      8 ≤ u8 x.bytes 18) :=
  ⟨⟨5, withCmd up 0x4C [(16, [1])], dsc 0x4C [(16, [1])], by decide +kernel⟩, ⟨5, withCmd up 0x4C [(16, [50])], dsc 0x4C [(16, [50])], by decide +kernel⟩,
   ⟨5, withCmd up 0x4C [(16, [51])], dsc 0x4C [(16, [51])], by decide +kernel⟩,
   ⟨5, withCmd up 0x4C [(16, [1, 0, 0, 1])], dsc 0x4C [(16, [1, 0, 0, 1])], by decide +kernel⟩,
   ⟨5, withCmd up 0x4C [(16, [1, 2])], dsc 0x4C [(16, [1, 2])], by decide +kernel⟩,
   ⟨5, withCmd up 0x4C [(16, [1, 0, 8])], dsc 0x4C [(16, [1, 0, 8])], by decide +kernel⟩⟩

theorem wit_LongRunResetsAtoll : ∃ (core : Nat) (s : State) (i : Item), runningOn s core = some i ∧ isUp s 9 = true ∧ s.rs.episode = false ∧ s.isl.length = 14 :=
  ⟨2, onSch (fun c => { c with items := [{ blankItem 0 3 0 7 1 with state := .running 2 }] }) up, { blankItem 0 3 0 7 1 with state := .running 2 },
    by decide +kernel⟩

def capReq (credits reserved : Nat) : AdmitReq := { island := 9, cls := 4, credits := credits, reserved := reserved, since := 0, limited := false, use := .plain }
def capState (q : AdmitReq) : State := onPw (fun p => { p with waiting := [q] }) up

theorem wit_AdmitLimitRaised :
    (∃ (island : Nat) (s : State) (q : AdmitReq), s.pw.waiting.find? (fun r => r.island == island && !r.limited) = some q) ∧
    (∃ (s u : State) (q : AdmitReq), u = settleDrive (settlePa 1 (settlePa 0 s)) ∧ servedRequest s = some q ∧ q.limited = false ∧
      capNow u < granted u + q.credits ∧ q.reserved < q.credits) ∧
    (∃ (s u : State) (q : AdmitReq), u = settleDrive (settlePa 1 (settlePa 0 s)) ∧ servedRequest s = some q ∧
      granted u + reservedCredits u < capNow u ∧ granted u + q.credits = capNow u) :=
  ⟨⟨9, capState (capReq 5 0), capReq 5 0, by decide +kernel⟩, ⟨capState (capReq 141 0), _, capReq 141 0, rfl, by decide +kernel⟩,
   ⟨capState (capReq 140 139), _, capReq 140 139, rfl, by decide +kernel⟩⟩

theorem wit_ReservedBitsRefused : ∃ (c : Instr) (op d : Nat) (s : State) (x : Desc), ringOp c = some (op, d) ∧ descOf s d = some x ∧
    x.stage = .started ∧ opcodeOf x = op ∧ x.orphan = false ∧ isUp s 10 = true ∧ reservedFaults x.bytes = [2, 63] :=
  ⟨.nop 5, 0, 5, withCmd up 0 [(2, [1]), (63, [1])], dsc 0 [(2, [1]), (63, [1])], by decide +kernel⟩

theorem wit_HeldIslandAborts :
    (∃ (c : Instr) (op d : Nat) (s : State) (x : Desc), ringOp c = some (op, d) ∧ descOf s d = some x ∧ x.stage = .started ∧ opcodeOf x = op ∧
      x.orphan = false ∧ isUp s 10 = true ∧ servedBy op ≠ 0 ∧ (needsAtoll op = false ∨ isUp s 9 = true) ∧ isUp s (servedBy op) = false) ∧
    (∃ (c : Instr) (op d : Nat) (s : State) (x : Desc), ringOp c = some (op, d) ∧ descOf s d = some x ∧ x.stage = .started ∧ opcodeOf x = op ∧
      x.orphan = false ∧ isUp s 10 = true ∧ needsAtoll op = true ∧ isUp s 9 = false) :=
  ⟨⟨.meterEnrol 5, 0x10, 5, onIsl 5 (fun i => { i with phase := .inReset }) (withCmd up 0x10), dsc 0x10, by decide +kernel⟩,
   ⟨.topup 5, 0x31, 5, onIsl 9 (fun i => { i with phase := .inReset }) (withCmd up 0x31), dsc 0x31, by decide +kernel⟩⟩

theorem wit_UnstartedCommandIdle : ∃ (c : Instr) (op d : Nat) (s : State), ringOp c = some (op, d) ∧
    (∀ x, descOf s d = some x → x.stage ≠ .started ∨ opcodeOf x ≠ op) := by
  refine ⟨.meterEnrol 5, 0x10, 5, withCmd up 0x11, by decide +kernel, ?_⟩
  intro x hx
  have h : descOf (withCmd up 0x11) 5 = some (dsc 0x11) := by decide +kernel
  rw [h] at hx
  cases hx
  right
  decide +kernel

theorem wit_FrameFabricPowerResets : ∃ (c : Instr) (s t : State), familyOf c = .resets ∧ exec c s = .next t := ⟨.islCtrlReset 2, up, _, rfl, rfl⟩
theorem wit_FrameHostTable : ∃ (c : Instr) (s t : State), familyOf c = .host ∧ exec c s = .next t := ⟨.ringEnable 3, up, _, rfl, rfl⟩
theorem wit_FrameSchedulerIntakeConversion : ∃ (c : Instr) (s t : State), familyOf c = .sched ∧ exec c s = .next t := ⟨.budgetWindow, up, _, rfl, rfl⟩
theorem wit_FrameLedgerPrepayBalance : ∃ (c : Instr) (s t : State), familyOf c = .ledger ∧ exec c s = .next t := ⟨.calendarCross 1, crossState, _, rfl, rfl⟩
theorem wit_FrameLinks : ∃ (c : Instr) (s t : State), familyOf c = .plc ∧ exec c s = .next t := ⟨.beaconPeriodStart 0 0, plcState, _, rfl, rfl⟩
theorem wit_FrameTimeArchipelago : ∃ (c : Instr) (s t : State), familyOf c = .time ∧ exec c s = .next t := ⟨.ppsEdge, timeState, _, rfl, rfl⟩
theorem wit_FramePairKeys : ∃ (c : Instr) (s t : State), familyOf c = .pair ∧ exec c s = .next t := ⟨.renewSend, pairState .active, _, rfl, rfl⟩
theorem wit_FrameFlashImagesRecorder : ∃ (c : Instr) (s t : State), familyOf c = .flash ∧ exec c s = .next t := ⟨.checkpointDone, cpState none, _, rfl, rfl⟩

theorem wit_FabricCommands :
    (∃ (x : StraitXfer) (s : State), (isUp s x.src = true) ∧ (isUp s x.dst = true) ∧ (straitJoins x.src x.dst = true) ∧ (x.copyOk = true) ∧ (x.err = .none) ∧ (x.first = true) ∧ (x.last = true)) ∧
    (∃ (r : SoundReq) (ws : List (Nat × Nat)) (s : State), (isUp s 3 = true) ∧ (r.write = true) ∧ (r.carry = .none) ∧ (s.fab.soundWait = []) ∧ (r.addr < dramBytes) ∧ (r.port < 16)) ∧
    (∃ (r : SoundReq) (ws : List (Nat × Nat)) (s : State), (isUp s 3 = true) ∧ (r.write = false) ∧ (r.carry = .none) ∧ (s.fab.soundWait = []) ∧ (r.addr < dramBytes) ∧ (r.port < 16) ∧ (r.err = .none) ∧ (¬r.addr ∈ s.fab.poison)) ∧
    (∃ (s : State), (isUp s 3 = true) ∧ (s.fl.readOnly = false) ∧ (s.jr.commit = none) ∧ (s.jr.cut = none)) ∧
    (∃ (s : State) (rs : List JRec), (s.jr.commit = some rs) ∧ (isUp s 3 = true) ∧ (s.fl.readOnly = false) ∧ (s.pw.hotOff = false)) :=
  ⟨⟨{ src := 1, dst := 2, data := 77, first := true, last := true, kind := 1, copyOk := true, err := .none, again := .none }, up, by decide +kernel⟩,
    ⟨{ port := 3, write := true, addr := 2147483632, data := 77, err := .none, carry := .none, loc := .sram 3 }, [(3, 9)], up, by decide +kernel⟩,
    ⟨{ port := 3, write := false, addr := 64, data := 77, err := .none, carry := .none, loc := .sram 3 }, [(3, 9)], onFab (fun f => { f with dram := [(64, 5)] }) up, by decide +kernel⟩,
    ⟨up, by decide +kernel⟩,
    ⟨onJr (fun j => { j with commit := some [] }) up, [], by decide +kernel⟩⟩

theorem wit_SupplyAndAdmission_1 :
    (∃ (vin : Nat) (s : State), (s.pw.warned = false) ∧ (vin < 106) ∧ (s.pw.vinOk = true) ∧ (s.pw.st ≠ .hold) ∧ (s.rs.episode = false) ∧ (isUp s 10 = true) ∧ (isUp s 3 = true) ∧ (s.jr.commit = none) ∧ (s.jr.cut = none)) ∧
    (∃ (vin : Nat) (s : State), (s.pw.warned = true)) ∧
    (∃ (island credits : Nat) (s : State), (island < s.isl.length)) ∧
    (∃ (s : State) (q : AdmitReq), (servedRequest s = some q) ∧ (granted s + reservedCredits s < capNow s) ∧ (q.credits ≤ q.reserved + 1) ∧ (q.island < s.isl.length)) :=
  ⟨⟨105, onPw (fun p => { p with vinOk := true, st := .run }) up, by decide +kernel⟩,
    ⟨130, onPw (fun p => { p with warned := true }) up, by decide +kernel⟩,
    ⟨3, 4, onIsl 3 (fun i => { i with grant := 9 }) up, by decide +kernel⟩,
    ⟨onPw (fun p => { p with waiting := [{ island := 3, cls := 1, credits := 1, reserved := 0, since := 0, limited := false, use := .plain }] }) up, { island := 3, cls := 1, credits := 1, reserved := 0, since := 0, limited := false, use := .plain }, by decide +kernel⟩⟩

theorem wit_SupplyAndAdmission_2 :
    (∃ (island : Nat) (s : State) (q : AdmitReq), ((s.pw.waiting.find? fun q => q.island == island && !q.limited) = some q)) ∧
    (∃ (d : Nat) (s : State) (x : Desc), (Ready 0x40 d s x) ∧ (checkFaults (powerChecks x.bytes) = []) ∧ (powerBusy s = false) ∧ (u8 x.bytes 16 ≤ 1 ∨ allDurable s = true)) ∧
    (∃ (s : State), (s.pw.vinOk = true) ∧ ((s.pw.warned || s.rs.episode || s.rs.starting || s.pw.st == .hold) = true)) ∧
    (∃ (s : State), (0 < s.isl.length)) :=
  ⟨⟨3, onPw (fun p => { p with waiting := [{ island := 3, cls := 1, credits := 1, reserved := 0, since := 0, limited := false, use := .plain }] }) up, { island := 3, cls := 1, credits := 1, reserved := 0, since := 0, limited := false, use := .plain }, by decide +kernel⟩,
    ⟨5, withCmd up 0x40 [(16, [1, 8])], dsc 0x40 [(16, [1, 8])], by decide +kernel⟩,
    ⟨onPw (fun p => { p with vinOk := true, warned := true }) up, by decide +kernel⟩,
    ⟨up, by decide +kernel⟩⟩

theorem wit_SupplyAndAdmission_3 :
    (∃ (s : State) (w : Nat), (s.pw.holdWake = some w) ∧ (inHold s = true)) ∧
    (∃ (tj : Int) (s : State), (isUp s 0 = true)) ∧
    (∃ (s : State), (inPhase 1 s = true) ∧ (s.pw.p1Switch < 13) ∧ (s.isl.length = 14)) ∧
    (∃ (port : Nat) (on : Bool) (speed : Nat) (full : Bool) (s : State), (isUp s 10 = true) ∧ (6 ≤ s.rs.phase) ∧ (port < 2) ∧ (speed ≤ 2) ∧ (s.tel.eth.length = 2)) :=
  ⟨⟨onIsl 1 (fun i => { i with phase := .off }) (onPw (fun p => { p with st := .hold, holdWake := some 1000 }) up), 1000, by decide +kernel⟩,
    ⟨130, up, by decide +kernel⟩,
    ⟨onPw (fun p => { p with p1Switch := 12 }) (onRs (fun r => { r with starting := true, phase := 1 }) up), by decide +kernel⟩,
    ⟨1, true, 2, true, up, by decide +kernel⟩⟩

theorem wit_ResetSources_1 :
    (∃ (vin : Nat) (s : State), (s.pw.vinOk = false) ∧ (vStart ≤ vin) ∧ (isUp s 0 = true)) ∧
    (∃ (vin : Nat) (s : State), (isUp s 0 = false)) ∧
    (∃ (s : State), (isUp s 0 = true)) ∧
    (∃ (s : State), (isUp s 1 = true) ∧ (2 ≤ s.rs.phase) ∧ (s.rs.episode = false)) ∧
    (∃ (n : Nat) (s : State), (1 ≤ n) ∧ (n ≤ 13) ∧ (isUp s n = true) ∧ (s.rs.episode = false)) :=
  ⟨⟨108, up, by decide +kernel, Nat.min_le_left _ _, by decide +kernel⟩,
    ⟨120, onIsl 0 (fun i => { i with phase := .off }) up, by decide +kernel⟩,
    ⟨up, by decide +kernel⟩,
    ⟨up, by decide +kernel⟩,
    ⟨13, up, by decide +kernel⟩⟩

theorem wit_ResetSources_2 :
    (∃ (s : State), (isUp s 0 = true)) ∧
    (∃ (s : State), (s.rs.episode = true) ∧ (s.rs.asserted = [])) ∧
    (∃ (n : Nat) (s : State), ((islOf s n).phase = .idleReq) ∧ ((n = 3 → s.jr.commit = none)) ∧ ((n = 2 → s.keys.msgs = []))) ∧
    (∃ (n : Nat) (s : State), ((islOf s n).phase = .idleReq)) ∧
    (∃ (n : Nat) (s : State), ((islOf s n).phase = .inReset)) :=
  ⟨⟨up, by decide +kernel⟩,
    ⟨onRs (fun r => { r with episode := true, asserted := [], epCauses := 64 }) up, by decide +kernel⟩,
    ⟨4, onIsl 4 (fun i => { i with phase := .idleReq }) up, by decide +kernel⟩,
    ⟨4, onIsl 4 (fun i => { i with phase := .idleReq }) up, by decide +kernel⟩,
    ⟨4, onIsl 4 (fun i => { i with phase := .inReset }) up, by decide +kernel⟩⟩

theorem wit_ResetSources_3 :
    (∃ (n : Nat) (s : State), ((islOf s n).phase = .locking)) ∧
    (∃ (n : Nat) (s : State), (1 ≤ n) ∧ (n ≤ 13) ∧ ((islOf s n).phase = .locking)) ∧
    (∃ (n : Nat) (s : State), ((islOf s n).phase = .retryWait)) ∧
    (∃ (n : Nat) (s : State), (1 ≤ n) ∧ (n ≤ 13) ∧ (isUp s n = true) ∧ (s.rs.episode = false)) :=
  ⟨⟨4, onIsl 4 (fun i => { i with phase := .locking }) up, by decide +kernel⟩,
    ⟨4, onIsl 4 (fun i => { i with phase := .locking, lockFails := 2 }) up, by decide +kernel⟩,
    ⟨4, onIsl 4 (fun i => { i with phase := .retryWait }) up, by decide +kernel⟩,
    ⟨4, up, by decide +kernel⟩⟩

theorem wit_StartUpAndResetRegisters_1 :
    (∃ (s : State), (inPhase 0 s = true) ∧ (s.pw.vinOk = true) ∧ ((s.rs.thermalHold = true → s.pw.tj ≤ 115))) ∧
    (∃ (s : State), (inPhase 1 s = true) ∧ (s.pw.p1Switch = 13) ∧ ((islOf s 1).phase = .held)) ∧
    (∃ (s : State), (inPhase 2 s = true) ∧ (isUp s 1 = true) ∧ (readyToRun s [10] = true)) ∧
    (∃ (s : State), (inPhase 3 s = true) ∧ (readyToRun s [2] = true) ∧ (macsGood (unlockReef (judgeLoss (executePending s))) = true)) :=
  ⟨⟨onPw (fun p => { p with vinOk := true }) (onRs (fun r => { r with starting := true, phase := 0 }) up), by decide +kernel⟩,
    ⟨onPw (fun p => { p with p1Switch := 13 }) (onIsl 1 (fun i => { i with phase := .held }) (onRs (fun r => { r with starting := true, phase := 1 }) up)), by decide +kernel⟩,
    ⟨onIsl 10 (fun i => { i with phase := .held }) (onRs (fun r => { r with starting := true, phase := 2 }) up), by decide +kernel⟩,
    ⟨onRs (fun r => { r with starting := true, phase := 3 }) up, by decide +kernel⟩⟩

theorem wit_StartUpAndResetRegisters_2 :
    (∃ (s : State), (inPhase 6 s = true) ∧ (isUp s 10 = true) ∧ (readyToRun s [11, 12, 13] = true)) ∧
    (∃ (speed width : Nat) (s : State), (isUp s 10 = true) ∧ (remoteHosted s = false) ∧ (s.rs.perst = false) ∧ (1 ≤ speed ∧ speed ≤ 3) ∧ (1 ≤ width ∧ width ≤ 2) ∧ (s.host.link = .training ∨ s.host.link = .l1)) ∧
    (∃ (s : State), (s.rs.perst = true) ∧ (isUp s 10 = true) ∧ (2 < s.rs.phase) ∧ (remoteHosted s = false)) ∧
    (∃ (d : Nat) (s : State) (x : Desc), (Ready 0x41 d s x) ∧ (u16 x.bytes 16 % 16 = 0 ∧ 0x400 ≤ u16 x.bytes 16 ∧ u16 x.bytes 16 ≤ 0xFF0) ∧ (u16 x.bytes 18 % 16 = 0 ∧ 16 ≤ u16 x.bytes 18 ∧ u16 x.bytes 18 ≤ 0x1000 - u16 x.bytes 16)) :=
  ⟨⟨onRs (fun r => { r with starting := true, phase := 6 }) up, by decide +kernel⟩,
    ⟨3, 2, onHost (fun h => { h with link := .training, wakeN := true }) (onRs (fun r => { r with perst := false }) up), by decide +kernel⟩,
    ⟨onRs (fun r => { r with perst := true }) up, by decide +kernel⟩,
    ⟨5, withCmd up 0x41 [(16, [0xF0, 0x0F, 16, 0]), (24, [64])], dsc 0x41 [(16, [0xF0, 0x0F, 16, 0]), (24, [64])], by decide +kernel⟩⟩

theorem wit_StartUpAndResetRegisters_3 :
    (∃ (d : Nat) (s : State) (x : Desc) (data : Bytes), (Ready 0x42 d s x) ∧ (u16 x.bytes 16 % 16 = 0 ∧ 0x400 ≤ u16 x.bytes 16 ∧ u16 x.bytes 16 ≤ 0xFF0) ∧ (u16 x.bytes 18 % 16 = 0 ∧ 16 ≤ u16 x.bytes 18 ∧ u16 x.bytes 18 ≤ 0x1000 - u16 x.bytes 16) ∧ (x.input = some data)) ∧
    (∃ (v : BitVec 32) (s : State), (isUp s 10 = true) ∧ (isUp s 0 = true)) ∧
    (∃ (n : Nat) (v : BitVec 32) (s : State), (isUp s 10 = true) ∧ (isUp s 0 = true) ∧ (s.rs.episode = false) ∧ (1 ≤ n ∧ n ≤ 13) ∧ (isUp s n = true) ∧ (bit v.toNat n = true)) ∧
    (∃ (v : BitVec 32) (s : State) (k : Nat), (isUp s 10 = true) ∧ (isUp s 0 = true) ∧ (k < 10) ∧ (s.rs.cause < 1024)) :=
  ⟨⟨5, withCmd up 0x42 [(16, [0xF0, 0x0F, 16, 0]), (24, [64])] (some (List.replicate 16 7)), dsc 0x42 [(16, [0xF0, 0x0F, 16, 0]), (24, [64])] (some (List.replicate 16 7)), List.replicate 16 7, by decide +kernel⟩,
    ⟨0xC0DE, up, by decide +kernel⟩,
    ⟨13, 0x2000, up, by decide +kernel⟩,
    ⟨0x209, onRs (fun r => { r with cause := 0x3FF }) up, 9, by decide +kernel⟩⟩

theorem wit_RingsAndDoorbells_1 :
    (∃ (dest : LinkDown) (s : State), (s.host.link = .l0)) ∧
    (∃ (s : State), (remoteHosted s = false) ∧ (isUp s 10 = true)) ∧
    (∃ (s : State), (isUp s 10 = false)) ∧
    (∃ (n : Nat) (s : State), (isUp s 10 = true) ∧ (n < 32) ∧ (s.host.rings.length = 32) ∧ ((ringOf s n).state = .disabled) ∧ (ringsOverlap (ringOf s n) = false)) ∧
    (∃ (n : Nat) (s : State), (isUp s 10 = true) ∧ (n < 32) ∧ (s.host.rings.length = 32) ∧ ((ringOf s n).state = .disabled) ∧ (ringsOverlap (ringOf s n) = true)) :=
  ⟨⟨.l11, onHost (fun h => { h with link := .l0, speed := 3, width := 2 }) up, by decide +kernel⟩,
    ⟨onTel (fun r => { r with copy := 3, locked := true }) (onHost (fun h => { h with link := .l0, setupDone := true, evt := 5 }) up), by decide +kernel⟩,
    ⟨onHost (fun h => { h with setupDone := true }) (onIsl 10 (fun i => { i with phase := .inReset }) up), by decide +kernel⟩,
    ⟨31, onRing 31 (fun r => { r with cbase := 1024 }) up, by decide +kernel⟩,
    ⟨31, up, by decide +kernel⟩⟩

theorem wit_RingsAndDoorbells_2 :
    (∃ (n : Nat) (s : State), (isUp s 10 = true) ∧ (n < s.host.rings.length) ∧ ((ringOf s n).state = .enabled)) ∧
    (∃ (n : Nat) (s : State), (n < s.host.rings.length) ∧ ((ringOf s n).state = .stopping) ∧ (ringHolds s n = false)) ∧
    (∃ (n : Nat) (v : BitVec 32) (s : State), (isUp s 10 = true) ∧ (n < 32) ∧ (s.host.rings.length = 32) ∧ ((ringOf s n).state = .enabled) ∧ (v.toNat % 65536 < 2 ^ (ringOf s n).sqLog)) ∧
    (∃ (n : Nat) (v : BitVec 32) (s : State), (isUp s 10 = true) ∧ (n < 32) ∧ (s.host.rings.length = 32) ∧ ((ringOf s n).state = .enabled) ∧ (2 ^ (ringOf s n).sqLog ≤ v.toNat % 65536)) ∧
    (∃ (n : Nat) (v : BitVec 32) (s : State), (isUp s 10 = true) ∧ (n < 32) ∧ (s.host.rings.length = 32) ∧ ((ringOf s n).state = .enabled) ∧ (v.toNat % 65536 < 2 ^ (ringOf s n).cqLog)) :=
  ⟨⟨3, onRing 3 Ring.enabled up, by decide +kernel⟩,
    ⟨3, onRing 3 (fun r => { r with state := .stopping }) up, by decide +kernel⟩,
    ⟨3, 9, onRing 3 Ring.enabled up, by decide +kernel⟩,
    ⟨3, 65535, onRing 3 Ring.enabled up, by decide +kernel⟩,
    ⟨3, 9, onRing 3 Ring.enabled up, by decide +kernel⟩⟩

theorem wit_RingsAndDoorbells_3 :
    (∃ (s : State) (n : Nat), (mayFetch s = true) ∧ (descOf s s.host.nextDesc = none) ∧ (((List.range 32).map (fun k => (s.host.rr + 1 + k) % 32)).find? (fetchable s) = some n)) ∧
    (∃ (d : Nat) (s : State) (x : Desc) (a : Nat) (e : Bytes), (descOf s d = some x) ∧ (entryDue s x = true) ∧ (remoteHosted s = false) ∧ (opcodeOf x ≠ 0x40) ∧ ((ringOf s x.ring).cbase.toNat * 4096 + 32 * (ringOf s x.ring).cqIndex = a) ∧ (completionEntry x (ringOf s x.ring) = e)) ∧
    (∃ (d : Nat) (s : State) (x : Desc), (descOf s d = some x) ∧ (entryDue s x = true) ∧ (x.ring < 32) ∧ (s.host.rings.length = 32)) ∧
    (∃ (n : Nat) (s : State) (since : Nat), (isUp s 10 = true) ∧ (n < 32) ∧ (s.host.rings.length = 32) ∧ ((ringOf s n).coalSince = some since) ∧ (0 < (ringOf s n).unnotified)) :=
  ⟨⟨onRing 3 (fun r => { r.enabled with sqTail := 1 }) (onHost (fun h => { h with link := .l0, setupDone := true }) (onRs (fun r => { r with perst := false }) up)), 3, by decide +kernel⟩,
    ⟨5, onHost (fun h => { h with link := .l0, descs := [{ dsc 0 with stage := .done }] }) (onRing 0 Ring.enabled (onRs (fun r => { r with perst := false }) up)), { dsc 0 with stage := .done }, 0, completionEntry { dsc 0 with stage := .done } (ringOf (onRing 0 Ring.enabled up) 0), by decide +kernel⟩,
    ⟨5, onHost (fun h => { h with link := .l0, descs := [{ dsc 0 with stage := .done }] }) (onRing 0 Ring.enabled (onRs (fun r => { r with perst := false }) up)), { dsc 0 with stage := .done }, by decide +kernel⟩,
    ⟨3, onRing 3 (fun r => { r with coalSince := some 4, unnotified := 2 }) up, 4, by decide +kernel⟩⟩

theorem wit_FencesVectorsAndDelivery_1 :
    (∃ (n : Nat) (s : State) (x : Desc), (isUp s 10 = true) ∧ ((ringOf s n).zlr = true) ∧ ((ringOf s n).zlrBack = false) ∧ ((ringOf s n).state = .enabled) ∧ (n < s.host.rings.length) ∧ (ringDescs s n = [x]) ∧ (descOf s x.id = some x) ∧ (x.stage = .fetched) ∧ (hasFence x = true) ∧ (bit (u8 x.bytes 1) 1 = false) ∧ (opcodeOf x = 0) ∧ (s.rs.recovery = false)) ∧
    (∃ (n : Nat) (s : State) (x : Desc), (isUp s 10 = true) ∧ ((ringOf s n).zlr = true) ∧ ((ringOf s n).zlrBack = false) ∧ ((ringDescs s n).find? (fun x => x.stage == .fetched) = some x) ∧ (descOf s x.id = some x)) ∧
    (∃ (n : Nat) (s : State), (isUp s 10 = true) ∧ (remoteHosted s = false) ∧ (n < 64) ∧ (s.host.msixFmask = false) ∧ (s.host.link = .l0) ∧ (s.host.msixEnable = true) ∧ (s.host.msixPending = 1#64 <<< n)) ∧
    (∃ (n : Nat) (s : State), (isUp s 10 = true) ∧ (remoteHosted s = false) ∧ (n < 64)) ∧
    (∃ (on : Bool) (s : State), (isUp s 10 = true) ∧ (remoteHosted s = false)) :=
  ⟨⟨0, onRing 0 (fun r => { r.enabled with zlr := true }) (onHost (fun h => { h with descs := [{ dsc 0 [(1, [1])] with stage := .fetched }] }) up), { dsc 0 [(1, [1])] with stage := .fetched }, by decide +kernel⟩,
    ⟨0, onRing 0 (fun r => { r.enabled with zlr := true }) (onHost (fun h => { h with descs := [{ dsc 0 [(1, [1])] with stage := .fetched }] }) up), { dsc 0 [(1, [1])] with stage := .fetched }, by decide +kernel⟩,
    ⟨63, onHost (fun h => { h with link := .l0, msixEnable := true, msixPending := 1#64 <<< 63 }) up, by decide +kernel⟩,
    ⟨63, up, by decide +kernel⟩,
    ⟨true, up, by decide +kernel⟩⟩

theorem wit_FencesVectorsAndDelivery_2 :
    (∃ (on : Bool) (s : State), (isUp s 10 = true) ∧ (remoteHosted s = false)) ∧
    (∃ (d : Nat) (s : State) (x : Desc), (Ready 0x00 d s x)) ∧
    (∃ (d : Nat) (s : State) (x : Desc), (Ready 0x01 d s x) ∧ (u32 x.bytes 16 % 4096 = 0 ∧ 4096 ≤ u32 x.bytes 16 ∧ u32 x.bytes 16 ≤ 65536) ∧ (u64 x.bytes 24 % 64 = 0) ∧ ((ringOf s x.ring).state = .enabled) ∧ (s.fl.log = [])) ∧
    (∃ (d : Nat) (s : State) (x : Desc), (Ready 0x01 d s x) ∧ (u32 x.bytes 16 % 4096 = 0 ∧ 4096 ≤ u32 x.bytes 16 ∧ u32 x.bytes 16 ≤ 65536) ∧ (u64 x.bytes 24 % 64 = 0) ∧ ((ringOf s x.ring).state = .stopping)) ∧
    (∃ (n : Nat) (s : State) (b : DelBuf) (x : Desc), (isUp s 10 = true) ∧ (s.host.bufs.find? (fun b => b.ring == n && b.first.isSome) = some b) ∧ (n < s.host.rings.length) ∧ (descOf s b.desc = some x) ∧ (x.stage = .waiting) ∧ (x.orphan = false)) :=
  ⟨⟨true, up, by decide +kernel⟩,
    ⟨5, withCmd up 0, dsc 0, by decide +kernel⟩,
    ⟨5, onRing 0 Ring.enabled (withCmd up 1 [(16, [0, 0, 1])]), dsc 1 [(16, [0, 0, 1])], by decide +kernel⟩,
    ⟨5, onRing 0 (fun r => { r with state := .stopping }) (withCmd up 1 [(16, [0, 0x10])]), dsc 1 [(16, [0, 0x10])], by decide +kernel⟩,
    ⟨0, onHost (fun h => { h with descs := [{ dsc 1 with stage := .waiting }], bufs := [{ desc := 5, ring := 0, addr := 64, len := 4096, records := 1, first := some 0 }] }) up, { desc := 5, ring := 0, addr := 64, len := 4096, records := 1, first := some 0 }, { dsc 1 with stage := .waiting }, by decide +kernel⟩⟩

theorem wit_FencesVectorsAndDelivery_3 :
    (∃ (d : Nat) (s : State) (x : Desc), (Ready 0x02 d s x) ∧ (u64 x.bytes 16 < (ringOf s x.ring).batch) ∧ ((ringOf s x.ring).confirmed < u64 x.bytes 16) ∧ (x.ring < s.host.rings.length)) ∧
    (∃ (d : Nat) (s : State) (x : Desc), (Ready 0x02 d s x) ∧ ((ringOf s x.ring).batch ≤ u64 x.bytes 16)) ∧
    (∃ (d : Nat) (s : State) (x : Desc) (k : Nat), (Ready 0x03 d s x) ∧ (u16 x.bytes 16 ≤ u16 x.bytes 18) ∧ (u16 x.bytes 18 ≤ 1023)) ∧
    (∃ (d : Nat) (s : State) (x : Desc), (Ready 0x03 d s x) ∧ (u16 x.bytes 16 ≤ u16 x.bytes 18) ∧ (u16 x.bytes 18 ≤ 1023) ∧ (s.fl.log = [])) ∧
    (∃ (tag : Nat) (b : Bytes) (s : State) (a : Dma) (d : Nat) (x : Desc), (isUp s 10 = true) ∧ (s.host.dma.find? (fun a => a.tag == tag) = some a) ∧ (a.use = .input d) ∧ (remoteHosted s = false) ∧ (a.len = b.length) ∧ (descOf s d = some x)) :=
  ⟨⟨5, onRing 0 (fun r => { r with batch := 4, confirmed := 1 }) (withCmd up 2 [(16, [3])]), dsc 2 [(16, [3])], by decide +kernel⟩,
    ⟨5, withCmd up 2 [(16, [3])], dsc 2 [(16, [3])], by decide +kernel⟩,
    ⟨5, withCmd up 3 [(16, [1, 0, 3, 0, 7])], dsc 3 [(16, [1, 0, 3, 0, 7])], 3, by decide +kernel⟩,
    ⟨5, withCmd up 3 [(16, [1, 0, 3, 0, 7])], dsc 3 [(16, [1, 0, 3, 0, 7])], by decide +kernel⟩,
    ⟨3, [1, 2], onHost (fun h => { h with link := .l0, dma := [{ tag := 3, use := .input 5, addr := 0, len := 2, got := [] }], descs := [dsc 0x42] }) (onRs (fun r => { r with perst := false }) up), { tag := 3, use := .input 5, addr := 0, len := 2, got := [] }, 5, dsc 0x42, by decide +kernel⟩⟩

theorem wit_MeterEntries_1 :
    (∃ (d : Nat) (s : State) (x : Desc) (k : Nat) (m : MSlot) (p : Nat), (Ready 0x10 d s x) ∧ (1 ≤ u64 x.bytes 16 ∧ u64 x.bytes 16 ≤ 2 ^ 64 - 2) ∧ (bit (u8 x.bytes 29) 7 = true ∨ s.arch.role = 1) ∧ (isStandby s = false) ∧ (mayAppend s = true) ∧ (s.tbl.state ≠ 2) ∧ (entryById s (u64 x.bytes 16) = none) ∧ (trieLookup s.db.pfxs 0 (u64 x.bytes 16) = some p) ∧ (bit (u8 x.bytes 27) 6 = true) ∧ (u24 x.bytes 24 % 2 ^ 20 = 0) ∧ (lowestIndex s = some k) ∧ (placeFor s k (u64 x.bytes 16) = some m)) ∧
    (∃ (d : Nat) (s : State) (x : Desc), (Ready 0x10 d s x) ∧ (1 ≤ u64 x.bytes 16 ∧ u64 x.bytes 16 ≤ 2 ^ 64 - 2) ∧ (bit (u8 x.bytes 29) 7 = true) ∧ (isStandby s = false) ∧ (mayAppend s = true) ∧ (s.tbl.state ≠ 2) ∧ (entryById s (u64 x.bytes 16) = none) ∧ (trieLookup s.db.pfxs 0 (u64 x.bytes 16) = none) ∧ (bit (u8 x.bytes 27) 6 = false)) ∧
    (∃ (d : Nat) (s : State) (x : Desc) (k : Nat) (e : MEntry), (Ready 0x11 d s x) ∧ (checkFaults (refChecks x.bytes) = []) ∧ (s.tbl.state ≠ 2) ∧ (refMeter true s x.bytes = some (k, e)) ∧ (isStandby s = false) ∧ (mayAppend s = true) ∧ (InTurn s x) ∧ (bit (u8 x.bytes 28) 0 = false) ∧ (e.retired = false)) ∧
    (∃ (d : Nat) (s : State) (x : Desc) (k : Nat) (e : MEntry), (Ready 0x11 d s x) ∧ (checkFaults (refChecks x.bytes) = []) ∧ (s.tbl.state ≠ 2) ∧ (refMeter true s x.bytes = some (k, e)) ∧ (isStandby s = false) ∧ (mayAppend s = true) ∧ (InTurn s x) ∧ (bit (u8 x.bytes 28) 0 = true)) ∧
    (∃ (d : Nat) (s : State) (x : Desc) (k : Nat) (e : MEntry), (Ready 0x12 d s x) ∧ (checkFaults (refChecks x.bytes) = []) ∧ (u64 x.bytes 32 % 32 = 0) ∧ (s.tbl.state ≠ 2 ∨ bit (u8 x.bytes 27) 7 = true) ∧ (refMeter true s x.bytes = some (k, e))) :=
  ⟨⟨5, onDb (fun d => { d with pfxs := [{ table := 0, len := 0, key := 0, value := 3 }] }) (withCmd up 0x10 [(16, [77]), (27, [0x40]), (29, [0x80])]),
      dsc 0x10 [(16, [77]), (27, [0x40]), (29, [0x80])], 0, { short := 0, bucket := bucketOf 0 0 77, ovf := false }, 3, by decide +kernel, by decide +kernel,
      by decide +kernel, by decide +kernel, by decide +kernel, by decide +kernel, by decide +kernel, by decide +kernel, by decide +kernel,
      by decide +kernel, by decide +kernel, rfl⟩,
    ⟨5, withCmd up 0x10 [(16, [77]), (29, [0x80])], dsc 0x10 [(16, [77]), (29, [0x80])], by decide +kernel⟩,
    ⟨5, withMeter (withCmd up 0x11 [(16, [77])]), dsc 0x11 [(16, [77])], 3, ent, by decide +kernel⟩,
    ⟨5, withMeter (withCmd up 0x11 [(16, [77]), (28, [1])]), dsc 0x11 [(16, [77]), (28, [1])], 3, ent, by decide +kernel⟩,
    ⟨5, withMeter (withCmd up 0x12 [(16, [77])]), dsc 0x12 [(16, [77])], 3, ent, by decide +kernel⟩⟩

theorem wit_MeterEntries_2 :
    (∃ (d : Nat) (s : State) (x : Desc), (Ready 0x12 d s x) ∧ (checkFaults (refChecks x.bytes) = []) ∧ (u64 x.bytes 32 % 32 = 0) ∧ (s.tbl.state ≠ 2 ∨ bit (u8 x.bytes 27) 7 = true) ∧ (refMeter true s x.bytes = none)) ∧
    (∃ (d : Nat) (s : State) (x : Desc) (k : Nat) (e : MEntry), (Ready 0x13 d s x) ∧ (checkFaults (refChecks x.bytes) = []) ∧ (u8 x.bytes 28 / 16 ≤ 7 ∨ (u8 x.bytes 28 / 16 = 15 ∧ u16 x.bytes 30 = 0)) ∧ (s.tbl.state ≠ 2) ∧ (refMeter false s x.bytes = some (k, e)) ∧ (isStandby s = false) ∧ (mayAppend s = true)) ∧
    (∃ (d : Nat) (s : State) (x : Desc) (data : Bytes), (Ready 0x14 d s x) ∧ (u16 x.bytes 16 ≤ 1023) ∧ (x.input = some data) ∧ (isStandby s = false) ∧ (mayAppend s = true) ∧ (profileFault (u16 x.bytes 16) (fun t => (Tab.get s.db.virials t).isSome) (data.take 1024) = none) ∧ (oldCopyInUse s (u16 x.bytes 16) = false) ∧ (profileComing s (u16 x.bytes 16) = false) ∧ (s.db.cust = [])) ∧
    (∃ (d : Nat) (s : State) (x : Desc) (data : Bytes) (o : Nat), (Ready 0x14 d s x) ∧ (u16 x.bytes 16 ≤ 1023) ∧ (x.input = some data) ∧ (isStandby s = false) ∧ (mayAppend s = true) ∧ (profileFault (u16 x.bytes 16) (fun t => (Tab.get s.db.virials t).isSome) (data.take 1024) = some o)) :=
  ⟨⟨5, withCmd up 0x12 [(16, [77])], dsc 0x12 [(16, [77])], by decide +kernel⟩,
    ⟨5, withMeter (withCmd up 0x13 [(16, [77]), (28, [0x70])]), dsc 0x13 [(16, [77]), (28, [0x70])], 3, ent, by decide +kernel⟩,
    ⟨5, withCmd up 0x14 [(16, [1])] (some profBytes), dsc 0x14 [(16, [1])] (some profBytes), profBytes, by decide +kernel⟩,
    ⟨5, withCmd up 0x14 [(16, [1])] (some []), dsc 0x14 [(16, [1])] (some []), [], 0, by decide +kernel⟩⟩

theorem wit_TableMaintenance_1 :
    (∃ (d : Nat) (s : State) (x : Desc), (Ready 0x15 d s x) ∧ (checkFaults (pfxChecks x.bytes) = []) ∧ (u16 x.bytes 18 ≤ (if u8 x.bytes 16 = 0 then 1023 else 4095)) ∧ (isStandby s = false) ∧ (mayAppend s = true) ∧ (laterRecs s = []) ∧ (s.db.cust = []) ∧ (s.db.pfxs.any (samePfx (u8 x.bytes 16) (u8 x.bytes 17) (pfxKey x.bytes)) = false) ∧ (s.db.pfxs.length < 16384)) ∧
    (∃ (d : Nat) (s : State) (x : Desc), (Ready 0x15 d s x) ∧ (checkFaults (pfxChecks x.bytes) = []) ∧ (u16 x.bytes 18 ≤ (if u8 x.bytes 16 = 0 then 1023 else 4095)) ∧ (isStandby s = false) ∧ (mayAppend s = true) ∧ ((soonDb s).pfxs.any (samePfx (u8 x.bytes 16) (u8 x.bytes 17) (pfxKey x.bytes)) = true)) ∧
    (∃ (d : Nat) (s : State) (x : Desc), (Ready 0x16 d s x) ∧ (checkFaults (pfxChecks x.bytes) = []) ∧ (isStandby s = false) ∧ (mayAppend s = true) ∧ (laterRecs s = []) ∧ (s.db.cust = []) ∧ (s.db.pfxs.any (samePfx (u8 x.bytes 16) (u8 x.bytes 17) (pfxKey x.bytes)) = true)) ∧
    (∃ (d : Nat) (s : State) (x : Desc), (Ready 0x16 d s x) ∧ (checkFaults (pfxChecks x.bytes) = []) ∧ (isStandby s = false) ∧ (mayAppend s = true) ∧ ((soonDb s).pfxs.any (samePfx (u8 x.bytes 16) (u8 x.bytes 17) (pfxKey x.bytes)) = false)) :=
  ⟨⟨5, withCmd up 0x15 [(16, [0, 8, 3]), (31, [0x77])], dsc 0x15 [(16, [0, 8, 3]), (31, [0x77])], by decide +kernel⟩,
    ⟨5, onDb (fun d => { d with pfxs := [{ table := 0, len := 0, key := 0, value := 3 }] }) (withCmd up 0x15), dsc 0x15, by decide +kernel⟩,
    ⟨5, onDb (fun d => { d with pfxs := [{ table := 0, len := 0, key := 0, value := 3 }] }) (withCmd up 0x16), dsc 0x16, by decide +kernel⟩,
    ⟨5, withCmd up 0x16, dsc 0x16, by decide +kernel⟩⟩

theorem wit_TableMaintenance_2 :
    (∃ (d : Nat) (s : State) (x : Desc), (Ready 0x17 d s x) ∧ (isStandby s = false) ∧ (s.tbl.reseed = none) ∧ (s.tbl.state ≠ 2)) ∧
    (∃ (s : State) (r : Reseed), (isUp s 5 = true) ∧ (s.tbl.state ≠ 2) ∧ (s.tbl.reseed = some r) ∧ (r.switched = false) ∧ (((buildSlots (hashRootNow s) r.epoch s.db.entries).filter (·.ovf)).length ≤ 4096)) ∧
    (∃ (s : State), (isUp s 5 = true) ∧ (s.tbl.state = 2)) ∧
    (∃ (slot u : Nat) (s : State) (i : Item), (s.tbl.bktReload.find? (fun p => p.1 == slot) = some (slot, u)) ∧ (itemAt s slot = some i) ∧ (i.state = .parked) ∧ (i.reading.isSome = true) ∧ ((s.sch.items.all fun u => u.cls != 2) = true) ∧ (tableCopyGood s = true)) :=
  ⟨⟨5, withCmd up 0x17, dsc 0x17, by decide +kernel⟩,
    ⟨onTbl (fun t => { t with reseed := some { epoch := 1, tries := 1, desc := none, switched := false } }) up, { epoch := 1, tries := 1, desc := none, switched := false }, by decide +kernel⟩,
    ⟨onTbl (fun t => { t with state := 2 }) up, by decide +kernel⟩,
    ⟨4, 4096, onTbl (fun t => { t with bktReload := [(4, 4096)] }) (onFab (fun f => { f with poison := [4096] }) (onSch (fun c => { c with items := [{ valItem with step := .rebuildWait }] }) up)), { valItem with step := .rebuildWait }, by decide +kernel⟩⟩

theorem wit_TableMaintenance_3 :
    (∃ (slot u : Nat) (s : State), (s.tbl.bktReload.find? (fun p => p.1 == slot) = some (slot, u)) ∧ (tableCopyGood s = false)) ∧
    (∃ (s : State), (s.tbl.ovfReload = true)) ∧
    (∃ (s : State) (k : Nat) (e : MEntry), (isUp s 5 = true) ∧ (Tab.get s.db.entries k = some e)) :=
  ⟨⟨4, 4096, onTbl (fun t => { t with bktReload := [(4, 4096)] }) (onFl (fun f => { f with roots := [{ aRoot with copyGood := false }] }) up), by decide +kernel⟩,
    ⟨onTbl (fun t => { t with ovfReload := true }) up, by decide +kernel⟩,
    ⟨withMeter up, 3, ent, by decide +kernel⟩⟩

theorem wit_SchedulerCommands_1 :
    (∃ (slot : Nat) (s : State) (i : Item), (itemAt s slot = some i) ∧ (isUp s 9 = true) ∧ (i.state = .parked) ∧ (i.step = .authed ∨ i.step = .posted ∨ i.step = .thirdPath) ∧ ((s.sch.items.all fun u => u.cls != 2) = true)) ∧
    (∃ (slot : Nat) (s : State) (i : Item), (itemAt s slot = some i) ∧ (i.state ≠ .parked)) ∧
    (∃ (slot : Nat) (failed : Bool) (s : State) (i : Item), (itemAt s slot = some i) ∧ (isUp s 9 = true) ∧ (i.step = .posted) ∧ (i.notify0 = none) ∧ (i.notify1 = none) ∧ (s.sch.asks = [])) ∧
    (∃ (slot : Nat) (failed : Bool) (s : State) (i j : Item) (c k : Nat) (n : DepCounter), (itemAt s slot = some i) ∧ (isUp s 9 = true) ∧ (i.step = .posted) ∧ (i.notify0 = some c) ∧ (i.notify1 = none) ∧ (s.sch.asks = []) ∧ ((s.sch.items.all fun u => u.cls != 2) = true) ∧ (Tab.get s.sch.deps c = some n) ∧ (n.value = 1) ∧ (n.item = some k) ∧ (k ≠ slot) ∧ (itemAt s k = some j) ∧ (j.state = .waiting)) ∧
    (∃ (slot : Nat) (s : State) (i : Item), (itemAt s slot = some i) ∧ (i.state = .ready) ∧ (i.prio + i.aged < 7)) :=
  ⟨⟨4, onSch (fun c => { c with items := [{ blankItem 0 3 0 7 1 with slot := 4, state := .parked, step := .authed }], locks := [] }) up, { blankItem 0 3 0 7 1 with slot := 4, state := .parked, step := .authed }, by decide +kernel⟩,
    ⟨4, onSch (fun c => { c with items := [{ blankItem 0 3 0 7 1 with slot := 4, step := .authed }] }) up, { blankItem 0 3 0 7 1 with slot := 4, step := .authed }, by decide +kernel⟩,
    ⟨4, false, onSch (fun c => { c with items := [{ blankItem 0 3 0 7 1 with slot := 4, state := .running 2, step := .posted }], locks := [] }) up, { blankItem 0 3 0 7 1 with slot := 4, state := .running 2, step := .posted }, by decide +kernel⟩,
    ⟨4, true, depState, { blankItem 0 3 0 7 1 with slot := 4, state := .running 2, step := .posted, notify0 := some 6 }, { blankItem 0 3 0 8 1 with slot := 9, state := .waiting, dep := some 6 }, 6, 9, { value := 1, item := some 9, failed := false }, by decide +kernel⟩,
    ⟨4, onSch (fun c => { c with items := [{ blankItem 0 3 0 7 1 with slot := 4, state := .ready, step := .lookup }], locks := [] }) up, { blankItem 0 3 0 7 1 with slot := 4, state := .ready, step := .lookup }, by decide +kernel⟩⟩

theorem wit_SchedulerCommands_2 :
    (∃ (s : State), (isUp s 9 = true)) ∧
    (∃ (s : State), (isUp s 9 = true) ∧ ((s.sch.items.all fun i => i.state == .ready || i.state == .parked || i.state == .waiting) = true)) ∧
    (∃ (s : State) (i : Item) (c : Nat), (isUp s 9 = true) ∧ (s.sch.items = [i]) ∧ (i.state = .running c) ∧ (i.cls = 1)) ∧
    (∃ (core : Nat) (s : State), (isUp s 9 = true) ∧ ((s.sch.cores.getD core Core.reset).powered = true) ∧ (core < s.sch.cores.length)) ∧
    (∃ (core : Nat) (s : State), ((s.sch.cores.getD core Core.reset).draining = true) ∧ (runningOn s core = none) ∧ ((s.sch.items.any fun i => i.state == .preempted core) = false) ∧ (core < s.sch.cores.length)) :=
  ⟨⟨onSch (fun c => { c with busyNow := [1, 2, 3], used := 5 }) up, by decide +kernel⟩,
    ⟨onSch (fun c => { c with busyNow := [1, 2, 3], used := 5 }) up, by decide +kernel⟩,
    ⟨onSch (fun c => { c with busyNow := [1, 2, 3], used := 5, items := [{ blankItem 1 3 0 7 1 with slot := 4, state := .running 2 }] }) up, { blankItem 1 3 0 7 1 with slot := 4, state := .running 2 }, 2, by decide +kernel⟩,
    ⟨3, onSch (fun c => { c with cores := c.cores.map (fun k => { k with powered := true }), items := [{ blankItem 0 3 0 7 1 with slot := 4, state := .slotted 3 }] }) up, by decide +kernel⟩,
    ⟨23, onSch (fun c => { c with cores := c.cores.map (fun k => { k with powered := true, draining := true }) }) up, by decide +kernel⟩⟩

theorem wit_SchedulerCommands_3 :
    (∃ (d : Nat) (s : State) (x : Desc), (Ready 0x4D d s x) ∧ (u64 x.bytes 24 % 64 = 0)) ∧
    (∃ (v : BitVec 32) (s : State), (regOpen s 9 = true)) ∧
    (∃ (q : Nat) (s : State) (f : QFrame) (r : List QFrame) (k : Nat), (isUp s 4 = true) ∧ (isUp s 9 = true) ∧ (q < s.ik.queues.length) ∧ ((queueOf s q).taken = f :: r) ∧ (badHeader f = false) ∧ (freeSlot s (poolOf true 0) = some k)) ∧
    (∃ (q : Nat) (s : State) (f : QFrame) (r : List QFrame), (isUp s 4 = true) ∧ (isUp s 9 = true) ∧ (q < s.ik.queues.length) ∧ ((queueOf s q).taken = f :: r) ∧ (badHeader f = true)) ∧
    (∃ (d : Nat) (s : State) (x : Desc) (k : Nat), (isUp s 9 = true) ∧ (isUp s 10 = true) ∧ (descOf s d = some x) ∧ (x.stage = .started) ∧ (itemOfDesc s x.id = none) ∧ ((s.sch.asks.any fun w => w.item.desc == some x.id) = false) ∧ (needsAtoll (opcodeOf x) = true) ∧ (onFlow (opcodeOf x) = false) ∧ (freeSlot s (poolOf false 0) = some k)) :=
  ⟨⟨5, withCmd up 0x4D [(16, [1]), (24, [64, 2])], dsc 0x4D [(16, [1]), (24, [64, 2])], by decide +kernel⟩,
    ⟨0x05000000, onSch (fun c => { c with sat := 7 }) up, by decide +kernel⟩,
    ⟨0, onQueue 0 (fun q => { q with taken := [frm] }) up, frm, [], 0, by decide +kernel⟩,
    ⟨0, onQueue 0 (fun q => { q with taken := [{ frm with bytes := [] }] }) up, { frm with bytes := [] }, [], by decide +kernel⟩,
    ⟨5, withCmd up 0x4C, dsc 0x4C, 60416, by decide +kernel⟩⟩

theorem wit_SchedulerCommands_4 :
    (∃ (d : Nat) (s : State) (x : Desc) (k m : Nat) (e : MEntry), (isUp s 9 = true) ∧ (isUp s 10 = true) ∧ (descOf s d = some x) ∧ (x.stage = .started) ∧ (itemOfDesc s x.id = none) ∧ ((s.sch.asks.any fun w => w.item.desc == some x.id) = false) ∧ (onFlow (opcodeOf x) = true) ∧ (onNodeFlow x.bytes (opcodeOf x) = false) ∧ (opcodeOf x ≠ 0x32) ∧ (refMeter true s x.bytes = some (m, e)) ∧ (freeSlot s (poolOf false 0) = some k)) ∧
    (∃ (d : Nat) (s : State) (x : Desc) (k m : Nat) (e : MEntry), (isUp s 9 = true) ∧ (isUp s 10 = true) ∧ (descOf s d = some x) ∧ (x.stage = .started) ∧ (itemOfDesc s x.id = none) ∧ ((s.sch.asks.any fun w => w.item.desc == some x.id) = false) ∧ (opcodeOf x = 0x32) ∧ (refMeter true s x.bytes = some (m, e)) ∧ (freeSlot s (poolOf false 2) = some k)) ∧
    (∃ (cls prio space key handler : Nat) (noFlow : Bool) (n0 n1 : Option Nat) (deadline : Nat) (s : State) (k : Nat), (isUp s 9 = true) ∧ (cls ≤ 2) ∧ (freeSlot s (poolOf false cls) = some k)) ∧
    (∃ (cls prio space key handler count : Nat) (noFlow : Bool) (n0 n1 : Option Nat) (deadline : Nat) (s : State) (k c : Nat), (isUp s 9 = true) ∧ (cls ≤ 2) ∧ (1 ≤ count) ∧ (freeSlot s (poolOf false cls) = some k) ∧ (freeCounter s = some c)) ∧
    (∃ (s : State) (c : Nat) (r : List Nat) (i : Item), (isUp s 9 = true) ∧ (s.sch.items = [i]) ∧ (i.state = .ready) ∧ (i.cls = 0) ∧ (i.noFlow = true) ∧ (hasWork i = false) ∧ (i.image = coreImage s c) ∧ (idleCores s = c :: r)) :=
  ⟨⟨5, withMeter (withCmd up 0x30 [(16, [77])]), dsc 0x30 [(16, [77])], 60416, 3, ent, by decide +kernel⟩,
    ⟨5, withMeter (withCmd up 0x32 [(16, [77]), (30, [9])]), dsc 0x32 [(16, [77]), (30, [9])], 64512, 3, ent, by decide +kernel⟩,
    ⟨1, 9, 2, 77, 3, true, none, none, 0, up, 60416, by decide +kernel⟩,
    ⟨1, 9, 2, 77, 3, 2, true, none, none, 0, up, 60416, 0, by decide +kernel⟩,
    ⟨onSch (fun c => { c with cores := c.cores.map (fun k => { k with powered := true, drained := false }), items := [{ blankItem 0 3 0 7 1 with slot := 4, noFlow := true }] }) up, 0, (List.range 23).map (· + 1), { blankItem 0 3 0 7 1 with slot := 4, noFlow := true }, by decide +kernel⟩⟩

theorem wit_SchedulerCommands_5 :
    (∃ (s : State) (c : Nat) (r : List Nat) (i : Item), (isUp s 9 = true) ∧ (s.sch.items = [i]) ∧ (i.state = .ready) ∧ (i.cls = 0) ∧ (i.noFlow = false) ∧ (i.locked = false) ∧ (i.released = false) ∧ (Tab.get s.sch.locks (lockEntry s i) = none) ∧ (hasWork i = false) ∧ (i.image = coreImage s c) ∧ (idleCores s = c :: r)) ∧
    (∃ (s : State) (c : Nat) (r : List Nat) (i j : Item), (isUp s 9 = true) ∧ (s.sch.items = [i, j]) ∧ (i.slot ≠ j.slot) ∧ (i.state = .ready ∧ j.state = .ready) ∧ (i.cls = 0 ∧ j.cls = 0) ∧ (i.noFlow = true ∧ j.noFlow = true) ∧ (i.front = j.front) ∧ (hasWork i = false ∧ hasWork j = false) ∧ (i.image = coreImage s c ∧ j.image = coreImage s c) ∧ (idleCores s = c :: r)) ∧
    (∃ (s : State) (c : Nat) (u w : Item), (isUp s 9 = true) ∧ (s.sch.items = [w, u]) ∧ (w.slot ≠ u.slot) ∧ (w.state = .running c ∧ u.state = .ready) ∧ (w.cls = 0 ∧ u.cls = 2) ∧ (u.noFlow = true ∧ w.locked = false) ∧ (hasWork u = false) ∧ (u.image = coreImage s c) ∧ (coreServes (s.sch.cores.getD c Core.reset) = true) ∧ (c < s.sch.cores.length) ∧ (idleCores s = [])) ∧
    (∃ (s : State) (c : Nat) (r : List Nat) (i : Item) (a b : Bool), (isUp s 9 = true) ∧ (s.sch.items = [i]) ∧ (i.state = .ready) ∧ (i.cls = 1) ∧ (i.noFlow = true) ∧ (i.reading = none) ∧ (i.task = .kat a b) ∧ (s.pw.stopB = false) ∧ (s.sch.used < budgetNs s) ∧ (idleCores s = c :: r) ∧ (isUp s 6 = true ∧ isUp s 7 = true) ∧ (s.rs.episode = false)) :=
  ⟨⟨onSch (fun c => { c with cores := c.cores.map (fun k => { k with powered := true, drained := false }), items := [{ blankItem 0 3 0 7 1 with slot := 4 }] }) up, 0, (List.range 23).map (· + 1), { blankItem 0 3 0 7 1 with slot := 4 }, by decide +kernel⟩,
    ⟨dispatchState, 0, [], { blankItem 0 3 0 7 1 with slot := 4, noFlow := true }, { blankItem 0 4 0 8 1 with slot := 5, noFlow := true }, by decide +kernel⟩,
    ⟨preemptState, 0, { blankItem 2 4 0 8 1 with slot := 64512, noFlow := true }, { blankItem 0 3 0 7 1 with slot := 4, noFlow := true, state := .running 0 }, by decide +kernel⟩,
    ⟨onSch (fun c => { c with cores := c.cores.map (fun k => { k with powered := true, drained := false }), items := [{ blankItem 1 3 0 7 1 with slot := 60416, noFlow := true, task := .kat false true }] }) up, 0, (List.range 23).map (· + 1), { blankItem 1 3 0 7 1 with slot := 60416, noFlow := true, task := .kat false true }, false, true, by decide +kernel⟩⟩

theorem wit_IntakeCommands_1 :
    (∃ (q : Nat) (s : State), (isUp s 10 = true) ∧ (isUp s 4 = true) ∧ (q < 8) ∧ (s.ik.queues.length = 8)) ∧
    (∃ (q : Nat) (s : State) (f : QFrame) (r : List QFrame), (isUp s 4 = true) ∧ (q < s.ik.queues.length) ∧ ((queueOf s q).coming = f :: r) ∧ (wordsUsed (queueOf s q) + frameWords f ≤ queueSize q)) ∧
    (∃ (q : Nat) (aborted : Bool) (s : State) (f : QFrame) (r : List QFrame), (isUp s 4 = true) ∧ (q < s.ik.queues.length) ∧ ((queueOf s q).coming = f :: r) ∧ (aborted = true ∨ queueSize q < wordsUsed (queueOf s q) + frameWords f)) ∧
    (∃ (q : Nat) (s : State) (f : QFrame) (r : List QFrame), (isUp s 4 = true) ∧ (isUp s 9 = true) ∧ (q < s.ik.queues.length) ∧ ((queueOf s q).frames = f :: r) ∧ ((freeSlot s (poolOf true 0)).isSome = true)) ∧
    (∃ (q : Nat) (s : State) (e : Ecc) (f : QFrame) (r : List QFrame), (isUp s 4 = true) ∧ (isUp s 9 = true) ∧ (q < s.ik.queues.length) ∧ ((queueOf s q).frames = f :: r) ∧ ((freeSlot s (poolOf true 0)).isSome = true)) :=
  ⟨⟨7, up, by decide +kernel⟩,
    ⟨7, onQueue 7 (fun q => { q with coming := [frm] }) up, frm, [], by decide +kernel⟩,
    ⟨6, true, onQueue 6 (fun q => { q with coming := [frm] }) up, frm, [], by decide +kernel⟩,
    ⟨0, onQueue 0 (fun q => { q with frames := [frm] }) up, frm, [], by decide +kernel⟩,
    ⟨0, onQueue 0 (fun q => { q with frames := [frm] }) up, .none, frm, [], by decide +kernel⟩⟩

theorem wit_IntakeCommands_2 :
    (∃ (slot : Nat) (s : State) (i : Item) (rd : Reading) (plain : Bytes), (itemAt s slot = some i) ∧ (i.reading = some rd) ∧ (i.step = .authWait) ∧ (i.state = .parked) ∧ (isUp s 2 = true ∧ isUp s 4 = true ∧ mayAppend s = true) ∧ (keyless s = false) ∧ (openUnder s rd.short (frameId rd.frame) rd.frame = some (plain, false)) ∧ ((mstateOf s rd.short).rekey = false) ∧ ((mstateOf s rd.short).lastCounter < frameCounter rd.frame)) ∧
    (∃ (slot : Nat) (s : State) (i : Item) (rd : Reading), (itemAt s slot = some i) ∧ (i.reading = some rd) ∧ (i.step = .authWait) ∧ (i.state = .parked) ∧ (isUp s 2 = true ∧ isUp s 4 = true ∧ mayAppend s = true) ∧ (keyless s = true) ∧ (rd.replay = false) ∧ (s.ik.keylessLast.any (fun p => p.1 == frameId rd.frame && p.2 == rd.frame) = false) ∧ (keylessCount s < keylessLimit)) ∧
    (∃ (slot : Nat) (s : State) (i : Item) (rd : Reading) (b : Bool), (itemAt s slot = some i) ∧ (i.reading = some rd) ∧ (i.step = .validWait) ∧ (i.state = .parked) ∧ (pickCalc s = some b) ∧ (calcServes s rd.onB = true)) ∧
    (∃ (d : Nat) (s : State) (x : Desc), (Ready 0xB0 d s x) ∧ (checkFaults (logChecks x.bytes 64) = []) ∧ (remoteHosted s = false) ∧ (s.db.quars.filter (fun q => u64 x.bytes 16 ≤ q.seq) = [])) ∧
    (∃ (d : Nat) (s : State) (x : Desc), (Ready 0xB0 d s x) ∧ (checkFaults (logChecks x.bytes 64) = []) ∧ ((quarFill (s.db.quars.filter (fun q => u64 x.bytes 16 ≤ q.seq)) (u32 x.bytes 32) [] 0).1 ≠ [])) :=
  ⟨⟨4, authState, authItem, authRd, [], by decide +kernel⟩,
    ⟨4, onKeys (fun k => { k with st := 2 }) authState, authItem, authRd, by decide +kernel⟩,
    ⟨4, valState, valItem, authRd, true, by decide +kernel⟩,
    ⟨5, withCmd up 0xB0 [(32, [0, 0x10])], dsc 0xB0 [(32, [0, 0x10])], by decide +kernel⟩,
    ⟨5, onDb (fun d => { d with quars := [quar] }) (withCmd up 0xB0 [(32, [0, 0x10])]), dsc 0xB0 [(32, [0, 0x10])], by decide +kernel⟩⟩

theorem wit_IntakeCommands_3 :
    (∃ (d : Nat) (s : State) (x : Desc) (q : Quar), (Ready 0xB1 d s x) ∧ (isStandby s = false) ∧ (mayAppend s = true) ∧ (s.db.quars.find? (fun q => q.seq == u64 x.bytes 16) = some q) ∧ (bit (u8 x.bytes 24) 0 = true)) ∧
    (∃ (d : Nat) (s : State) (x : Desc), (Ready 0xB1 d s x) ∧ (isStandby s = false) ∧ (mayAppend s = true) ∧ (s.db.quars.find? (fun q => q.seq == u64 x.bytes 16) = none)) ∧
    (∃ (d : Nat) (s : State) (x : Desc), (Ready 0xB3 d s x) ∧ (0 < u16 x.bytes 16) ∧ (0 < u16 x.bytes 18) ∧ (1 ≤ u16 x.bytes 20 ∧ u16 x.bytes 20 ≤ 3600)) ∧
    (∃ (d : Nat) (s : State) (x : Desc), (Ready 0xB2 d s x) ∧ (u64 x.bytes 24 % 64 = 0)) :=
  ⟨⟨5, onDb (fun d => { d with quars := [quar] }) (withCmd up 0xB1 [(16, [9]), (24, [1])]), dsc 0xB1 [(16, [9]), (24, [1])], quar, by decide +kernel⟩,
    ⟨5, withCmd up 0xB1 [(16, [9])], dsc 0xB1 [(16, [9])], by decide +kernel⟩,
    ⟨5, withCmd up 0xB3 [(16, [1, 0, 2, 0, 0x10, 0x0E])], dsc 0xB3 [(16, [1, 0, 2, 0, 0x10, 0x0E])], by decide +kernel⟩,
    ⟨5, withCmd up 0xB2 [(16, [1])], dsc 0xB2 [(16, [1])], by decide +kernel⟩⟩

theorem wit_ConversionCommands_1 :
    (∃ (slot : Nat) (s : State) (i : Item) (rd : Reading), (itemAt s slot = some i) ∧ (i.reading = some rd) ∧ (i.step = .convWait) ∧ (i.state = .parked) ∧ (isCustody s rd = false) ∧ (calcServes s rd.onB = true)) ∧
    (∃ (slot : Nat) (s : State) (i : Item) (rd : Reading) (core : Nat) (a b : AltBlock), (itemAt s slot = some i) ∧ (i.reading = some rd) ∧ (i.step = .thirdPath) ∧ (i.state = .running core) ∧ (mayAppend s = true) ∧ (rd.pathA = some a) ∧ (rd.pathB = some b) ∧ (a ≠ b)) ∧
    (∃ (a b : Bool) (s : State) (k : Nat), (isUp s 1 = true) ∧ (isUp s 9 = true) ∧ (freeSlot s (poolOf false 1) = some k)) :=
  ⟨⟨4, onSch (fun c => { c with items := [{ valItem with step := .convWait, reading := some { authRd with reason := 5 } }] }) valState, { valItem with step := .convWait, reading := some { authRd with reason := 5 } }, { authRd with reason := 5 }, by decide +kernel⟩,
    ⟨4, fwState, { valItem with step := .thirdPath, state := .running 0, reading := some fwRd }, fwRd, 0, fwA, { fwA with valFlags := 1 }, by decide +kernel⟩,
    ⟨true, false, up, 60416, by decide +kernel⟩⟩

theorem wit_ConversionCommands_2 :
    (∃ (d : Nat) (s : State) (x : Desc) (data : Bytes), (Ready 0xB8 d s x) ∧ (u8 x.bytes 16 ≤ 15) ∧ (2 ≤ u8 x.bytes 17 ∧ u8 x.bytes 17 ≤ 32) ∧ (u64 x.bytes 24 % 16 = 0) ∧ (x.input = some data) ∧ (isStandby s = false) ∧ (mayAppend s = true) ∧ (virialFault (virialPoints (data.take (16 * u8 x.bytes 17))) = none) ∧ (oldVirialInUse s (u8 x.bytes 16) = false) ∧ (virialComing s (u8 x.bytes 16) = false)) ∧
    (∃ (d : Nat) (s : State) (x : Desc) (data : Bytes), (Ready 0xB9 d s x) ∧ (u64 x.bytes 24 % 64 = 0) ∧ (x.input = some data) ∧ ((testFaults s data).min? = none) ∧ ((bit (u8 data 2) 0 = true → calcServes s false = true) ∧ (bit (u8 data 2) 1 = true → calcServes s true = true))) ∧
    (∃ (d : Nat) (s : State) (x : Desc), (Ready 0xBA d s x) ∧ (u64 x.bytes 24 % 64 = 0)) :=
  ⟨⟨5, withCmd up 0xB8 [(16, [15, 2])] (some virBytes), dsc 0xB8 [(16, [15, 2])] (some virBytes), virBytes, by decide +kernel⟩,
    ⟨5, onDb (fun d => { d with profiles := [(0, { body := List.replicate 1024 0, version := 1, old := none })] }) (withCmd up 0xB9 [] (some convBytes)), dsc 0xB9 [] (some convBytes), convBytes, by decide +kernel⟩,
    ⟨5, withCmd up 0xBA [(16, [1])], dsc 0xBA [(16, [1])], by decide +kernel⟩⟩

theorem wit_PostingsAndTariffs_1 :
    (∃ (s : State), (inPhase 5 s = true) ∧ (isUp s 3 = true) ∧ (readyToRun s [4, 5, 6, 7, 8, 9] = true) ∧ (s.rs.recovery = false)) ∧
    (∃ (slot : Nat) (s : State) (i : Item) (rd : Reading) (e : MEntry), (itemAt s slot = some i) ∧ (i.reading = some rd) ∧ (i.step = .postWait) ∧ (i.state = .parked) ∧ (mayAppend s = true) ∧ (poolHasRoom s 2 = true) ∧ (entryOf s rd.short = some e) ∧ (frameType rd.frame = 3) ∧ (rd.replay = false)) ∧
    (∃ (code : Nat) (s : State), (mayAppend s = true)) ∧
    (∃ (code : Nat) (s : State) (p : Nat × Nat), (mayAppend s = true) ∧ (s.lg.sampled = true) ∧ (p = periodSource (onLg (fun l => { l with lastCode := code, map := l.nextMap.getD l.map }) s))) ∧
    (∃ (s : State) (p e : Nat), (s.lg.ovr = some (p, some e)) ∧ (isUp s 8 = true)) :=
  ⟨⟨onRs (fun r => { r with starting := true, phase := 5 }) up, by decide +kernel⟩,
    ⟨4, postState, { valItem with step := .postWait, reading := some postRd }, postRd, ent, by decide +kernel⟩,
    ⟨3, up, by decide +kernel⟩,
    ⟨3, onLg (fun l => { l with sampled := true, map := [0, 0, 0, 5] }) up, (5, 0), by decide +kernel⟩,
    ⟨onLg (fun l => { l with ovr := some (2, some 24) }) up, 2, 24, by decide +kernel⟩⟩

theorem wit_PostingsAndTariffs_2 :
    (∃ (cal : Nat) (s : State) (b : Int × Int), (mayAppend s = true) ∧ (s.tm.validSeen = true) ∧ (cal < s.db.crossings.length) ∧ (comingBoundary s cal = some b) ∧ (cal ≠ 0 ∨ s.opt.nextZone = none)) ∧
    (∃ (s : State) (b : Int × Int) (z : Int), (mayAppend s = true) ∧ (s.tm.validSeen = true) ∧ (comingBoundary s 0 = some b) ∧ (s.opt.nextZone = some z)) ∧
    (∃ (cal : Nat) (s : State) (w : Nat × Nat × Int), (s.lg.sweeps.find? (fun w => w.1 == cal) = some w) ∧ (mayAppend s = true) ∧ (isUp s 9 = true)) ∧
    (∃ (cal : Nat) (s : State) (w : Nat × Nat × Int) (k : Nat), (s.lg.sweeps.find? (fun w => w.1 == cal) = some w) ∧ (mayAppend s = true) ∧ (isUp s 9 = true) ∧ (ledgerMeters s = [k]) ∧ (channelOf s k = none) ∧ (closeDue s k cal w.2.1 w.2.2 = true)) :=
  ⟨⟨1, crossState, crossAt, by decide +kernel⟩,
    ⟨saveOpt (fun o => { o with nextZone := some 60, cals := setAt o.cals 0 { kind := 1, day := 0, hour := 0, minute := 0 } }) crossState, crossAt, 60, by decide +kernel⟩,
    ⟨2, onLg (fun l => { l with sweeps := [(2, 1, 7)] }) up, (2, 1, 7), by decide +kernel⟩,
    ⟨0, onLg (fun l => { l with sweeps := [(0, 1, 7000000000)] }) (withMeter up), (0, 1, 7000000000), 3, by decide +kernel⟩⟩

theorem wit_LedgerCommands_1 :
    (∃ (d : Nat) (s : State) (x : Desc), (Ready 0x20 d s x) ∧ (isStandby s = false)) ∧
    (∃ (d : Nat) (s : State) (x : Desc), (Ready 0x21 d s x) ∧ (isStandby s = false)) ∧
    (∃ (d : Nat) (s : State) (x : Desc), (Ready 0x22 d s x) ∧ (isStandby s = false)) ∧
    (∃ (d : Nat) (s : State) (x : Desc), (Ready 0x23 d s x) ∧ (u8 x.bytes 16 ≤ 3) ∧ (u8 x.bytes 17 ≤ 3) ∧ ((u8 x.bytes 17 = 2 → u8 x.bytes 18 ≤ 6) ∧ (u8 x.bytes 17 = 3 → 1 ≤ u8 x.bytes 18 ∧ u8 x.bytes 18 ≤ 28)) ∧ (u8 x.bytes 19 ≤ 23) ∧ (u8 x.bytes 20 ≤ 59) ∧ (isStandby s = false)) ∧
    (∃ (d : Nat) (s : State) (x : Desc) (k : Nat) (e : MEntry), (Ready 0x24 d s x) ∧ (checkFaults (refChecks x.bytes) = []) ∧ (u8 x.bytes 28 ≤ 95) ∧ (refMeter false s x.bytes = some (k, e)) ∧ (isStandby s = false) ∧ (mayAppend s = true) ∧ (bit (u8 x.bytes 29) 0 = true) ∧ (e.homeSelf = true ∧ (profileFor s e.id).isSome = true ∧ pfQuantities (bodyOfShort s k) = 4) ∧ ((Tab.get s.db.cust (u8 x.bytes 28)).filter (·.enabled) = none) ∧ (channelOf s k = none) ∧ ((stdOf s k).prepay.enabled = false)) :=
  ⟨⟨5, withCmd up 0x20 [(16, [1, 2, 3])], dsc 0x20 [(16, [1, 2, 3])], by decide +kernel⟩,
    ⟨5, withCmd up 0x21 [(16, [0x83]), (20, [60])], dsc 0x21 [(16, [0x83]), (20, [60])], by decide +kernel⟩,
    ⟨5, withCmd up 0x22 [(16, [1])], dsc 0x22 [(16, [1])], by decide +kernel⟩,
    ⟨5, withCmd up 0x23 [(16, [3, 3, 28, 23, 59])], dsc 0x23 [(16, [3, 3, 28, 23, 59])], by decide +kernel⟩,
    ⟨5, custodyState [(16, [77]), (28, [7, 1])], dsc 0x24 [(16, [77]), (28, [7, 1])], 3, ent, by decide +kernel⟩⟩

theorem wit_LedgerCommands_2 :
    (∃ (d : Nat) (s : State) (x : Desc) (k : Nat) (e : MEntry) (cu : Cust), (Ready 0x24 d s x) ∧ (checkFaults (refChecks x.bytes) = []) ∧ (u8 x.bytes 28 ≤ 95) ∧ (refMeter false s x.bytes = some (k, e)) ∧ (isStandby s = false) ∧ (mayAppend s = true) ∧ (bit (u8 x.bytes 29) 0 = false) ∧ (Tab.get s.db.cust (u8 x.bytes 28) = some cu) ∧ (cu.enabled = true ∧ cu.short = k)) ∧
    (∃ (d : Nat) (s : State) (x : Desc) (k : Nat) (e : MEntry) (cu : Cust), (Ready 0x24 d s x) ∧ (checkFaults (refChecks x.bytes) = []) ∧ (u8 x.bytes 28 ≤ 95) ∧ (refMeter false s x.bytes = some (k, e)) ∧ (isStandby s = false) ∧ (mayAppend s = true) ∧ (bit (u8 x.bytes 29) 0 = false) ∧ (Tab.get s.db.cust (u8 x.bytes 28) = some cu) ∧ (cu.enabled = true ∧ cu.short ≠ k)) ∧
    (∃ (d : Nat) (s : State) (x : Desc) (k : Nat) (e : MEntry) (p : Snapshot), (Ready 0x25 d s x) ∧ (bit (u8 x.bytes 29) 0 = false) ∧ (checkFaults (refChecks x.bytes) = []) ∧ (u8 x.bytes 28 ≤ 2) ∧ (u64 x.bytes 32 % 64 = 0) ∧ (refMeter true s x.bytes = some (k, e)) ∧ (e.homeSelf = true) ∧ (ledgerPart s k (u8 x.bytes 28) = some p)) ∧
    (∃ (d : Nat) (s : State) (x : Desc) (cu : Cust) (p : Snapshot), (Ready 0x25 d s x) ∧ (bit (u8 x.bytes 29) 0 = true) ∧ ((List.range 12).all (fun i => u8 x.bytes (16 + i) == 0) = true) ∧ (u8 x.bytes 30 ≤ 95) ∧ (u8 x.bytes 28 ≤ 2) ∧ (u64 x.bytes 32 % 64 = 0) ∧ ((Tab.get s.db.cust (u8 x.bytes 30)).filter (·.enabled) = some cu) ∧ (ledgerPart s cu.short (u8 x.bytes 28) = some p)) ∧
    (∃ (d : Nat) (s : State) (x : Desc), (Ready 0x25 d s x) ∧ (bit (u8 x.bytes 29) 0 = true) ∧ ((List.range 12).all (fun i => u8 x.bytes (16 + i) == 0) = true) ∧ (u8 x.bytes 30 ≤ 95) ∧ (u8 x.bytes 28 ≤ 2) ∧ (u64 x.bytes 32 % 64 = 0) ∧ ((Tab.get s.db.cust (u8 x.bytes 30)).filter (·.enabled) = none)) :=
  ⟨⟨5, onDb (fun d => { d with cust := [(7, custRec)], std := [] }) (custodyState [(16, [77]), (28, [7, 0])]), dsc 0x24 [(16, [77]), (28, [7, 0])], 3, ent, custRec, by decide +kernel⟩,
    ⟨5, onDb (fun d => { d with cust := [(7, { custRec with short := 4 })] }) (custodyState [(16, [77]), (28, [7, 0])]), dsc 0x24 [(16, [77]), (28, [7, 0])], 3, ent, { custRec with short := 4 }, by decide +kernel⟩,
    ⟨5, withMeter (withCmd up 0x25 [(16, [77])]), dsc 0x25 [(16, [77])], 3, ent, stdSnapshot (stdOf (withMeter up) 3) 0, by decide +kernel⟩,
    ⟨5, onDb (fun d => { d with cust := [(7, custRec)] }) (withCmd up 0x25 [(29, [1, 7])]), dsc 0x25 [(29, [1, 7])], custRec, custSnapshot custRec 0, by decide +kernel⟩,
    ⟨5, withCmd up 0x25 [(29, [1, 7])], dsc 0x25 [(29, [1, 7])], by decide +kernel⟩⟩

theorem wit_LedgerCommands_3 :
    (∃ (d : Nat) (s : State) (x : Desc) (l : List Minute), (Ready 0x26 d s x) ∧ (u8 x.bytes 16 ≤ 95) ∧ (checkFaults (logChecks x.bytes 64) = []) ∧ (enabledChannel s (u8 x.bytes 16) = true) ∧ (l = (Tab.getD s.db.minutes (u8 x.bytes 16) []).reverse.filter (fun m => u32 x.bytes 20 ≤ m.minute))) ∧
    (∃ (d : Nat) (s : State) (x : Desc), (Ready 0x27 d s x) ∧ (u8 x.bytes 16 ≤ 95) ∧ (checkFaults (logChecks x.bytes 32) = []) ∧ (enabledChannel s (u8 x.bytes 16) = true)) ∧
    (∃ (d : Nat) (s : State) (x : Desc), (Ready 0x28 d s x) ∧ (100 ≤ u32 x.bytes 16 ∧ u32 x.bytes 16 ≤ 60000) ∧ (isStandby s = false)) ∧
    (∃ (d : Nat) (s : State) (x : Desc), (Ready 0x29 d s x) ∧ (u64 x.bytes 24 % 64 = 0)) :=
  ⟨⟨5, onDb (fun d => { d with cust := [(7, custRec)] }) (withCmd up 0x26 [(16, [7]), (32, [0, 0x10])]), dsc 0x26 [(16, [7]), (32, [0, 0x10])], [], by decide +kernel⟩,
    ⟨5, onDb (fun d => { d with cust := [(7, custRec)] }) (withCmd up 0x27 [(16, [7]), (32, [0, 0x10])]), dsc 0x27 [(16, [7]), (32, [0, 0x10])], by decide +kernel⟩,
    ⟨5, withCmd up 0x28 [(16, [0x60, 0xEA])], dsc 0x28 [(16, [0x60, 0xEA])], by decide +kernel⟩,
    ⟨5, withCmd up 0x29 [(16, [1])], dsc 0x29 [(16, [1])], by decide +kernel⟩⟩

theorem wit_PrepaymentCommands_1 :
    (∃ (s u : State) (k : Nat) (cu : Std), (toFriendlyEnd 9 s = u) ∧ (mayAppend u = true) ∧ (u.tm.validSeen = true) ∧ (isFriendly u (taiSec u) = false) ∧ (u.db.std = [(k, cu)]) ∧ (cu.prepay.valve = 1) ∧ (maySendTo u k = true)) ∧
    (∃ (k : Nat) (s : State) (f : Nat × Nat × Nat × Nat), (mayAppend s = true) ∧ ((valveOf s k).flight = some f) ∧ ((Tab.get s.db.std k).isSome = true) ∧ (maySendTo s k = true) ∧ ((stdOf s k).prepay.tries ≠ 0)) ∧
    (∃ (d : Nat) (s : State) (x : Desc) (k : Nat) (e : MEntry), (Ready 0x30 d s x) ∧ (InTurn s x) ∧ (checkFaults (refChecks x.bytes) = []) ∧ (refMeter false s x.bytes = some (k, e)) ∧ (isStandby s = false) ∧ (mayAppend s = true) ∧ (prepayRefusal s k e false = none) ∧ ((Tab.get s.db.std k).isSome = true)) ∧
    (∃ (d : Nat) (s : State) (x : Desc) (k : Nat) (e : MEntry) (st : Nat), (Ready 0x30 d s x) ∧ (InTurn s x) ∧ (checkFaults (refChecks x.bytes) = []) ∧ (refMeter false s x.bytes = some (k, e)) ∧ (isStandby s = false) ∧ (prepayRefusal s k e false = some st)) :=
  ⟨⟨prepayState (fun p => { p with valve := 1 }) [] 0, toFriendlyEnd 9 (prepayState (fun p => { p with valve := 1 }) [] 0), 3, prepayStd (fun p => { p with valve := 1 }), rfl, by decide +kernel⟩,
    ⟨3, flightState, (0x20, 1, 0, 1), by decide +kernel⟩,
    ⟨5, prepayState id [(16, [77]), (28, [0x82, 1])] 0x30, dsc 0x30 [(16, [77]), (28, [0x82, 1])], 3, ent, by decide +kernel⟩,
    ⟨5, withMeter (withCmd up 0x30 [(16, [77])]), dsc 0x30 [(16, [77])], 3, ent, 0x20, by decide +kernel⟩⟩

theorem wit_PrepaymentCommands_2 :
    (∃ (d : Nat) (s : State) (x : Desc) (k : Nat) (e : MEntry), (Ready 0x31 d s x) ∧ (InTurn s x) ∧ (checkFaults (refChecks x.bytes) = []) ∧ (u64 x.bytes 32 ≠ 0) ∧ (refMeter false s x.bytes = some (k, e)) ∧ (isStandby s = false) ∧ (mayAppend s = true) ∧ (prepayRefusal s k e true = none) ∧ ((Tab.get s.db.std k).isSome = true)) ∧
    (∃ (d : Nat) (s : State) (x : Desc) (k : Nat) (e : MEntry), (Ready 0x32 d s x) ∧ (InTurn s x) ∧ (checkFaults (refChecks x.bytes) = []) ∧ (u8 x.bytes 28 < 2) ∧ (refMeter false s x.bytes = some (k, e)) ∧ (isStandby s = false) ∧ (mayAppend s = true) ∧ (prepayRefusal s k e true = none) ∧ ((Tab.get s.db.std k).isSome = true) ∧ ((valveOf s k).flight = none)) ∧
    (∃ (d : Nat) (s : State) (x : Desc) (k : Nat) (e : MEntry), (Ready 0x32 d s x) ∧ (InTurn s x) ∧ (checkFaults (refChecks x.bytes) = []) ∧ (u8 x.bytes 28 < 2) ∧ (refMeter false s x.bytes = some (k, e)) ∧ (isStandby s = false) ∧ (mayAppend s = true) ∧ (prepayRefusal s k e true = none) ∧ ((valveOf s k).flight.isSome = true)) ∧
    (∃ (d : Nat) (s : State) (x : Desc) (data : Bytes), (Ready 0x33 d s x) ∧ (u64 x.bytes 24 % 64 = 0) ∧ (x.input = some data) ∧ (isStandby s = false) ∧ (friendlyFaults data = [])) :=
  ⟨⟨5, prepayState (fun p => { p with enabled := true }) [(16, [77]), (32, [9])] 0x31, dsc 0x31 [(16, [77]), (32, [9])], 3, ent, by decide +kernel⟩,
    ⟨5, withItem (prepayState (fun p => { p with enabled := true }) [(16, [77]), (28, [1])] 0x32), dsc 0x32 [(16, [77]), (28, [1])], 3, ent, by decide +kernel⟩,
    ⟨5, withItem (onHost (fun h => { h with descs := [dsc 0x32 [(16, [77])]] }) flightState), dsc 0x32 [(16, [77])], 3, ent, by decide +kernel⟩,
    ⟨5, withCmd up 0x33 [] (some (List.replicate 384 0)), dsc 0x33 [] (some (List.replicate 384 0)), List.replicate 384 0, by decide +kernel⟩⟩

theorem wit_PrepaymentCommands_3 :
    (∃ (d : Nat) (s : State) (x : Desc) (k : Nat) (e : MEntry), (Ready 0x34 d s x) ∧ (InTurn s x) ∧ (checkFaults (refChecks x.bytes) = []) ∧ (refMeter false s x.bytes = some (k, e)) ∧ (prepayRefusal s k e false = none)) ∧
    (∃ (d : Nat) (s : State) (x : Desc), (Ready 0x35 d s x) ∧ (checkFaults (logChecks x.bytes 32) = [])) ∧
    (∃ (d : Nat) (s : State) (x : Desc), (Ready 0x36 d s x) ∧ (u64 x.bytes 24 % 64 = 0)) :=
  ⟨⟨5, prepayState id [(16, [77])] 0x34, dsc 0x34 [(16, [77])], 3, ent, by decide +kernel⟩,
    ⟨5, withCmd up 0x35 [(32, [0, 0x10])], dsc 0x35 [(32, [0, 0x10])], by decide +kernel⟩,
    ⟨5, withCmd up 0x36 [(16, [1])], dsc 0x36 [(16, [1])], by decide +kernel⟩⟩

theorem wit_BalanceCommands_1 :
    (∃ (s : State) (r : JRec) (rest : List JRec) (p : PostBody), (s.lg.folds = r :: rest) ∧ (mayAppend s = true) ∧ (r.body = .posting p)) ∧
    (∃ (node : Nat) (s : State) (n : Node) (p : Nat), (Tab.get s.db.nodes node = some n) ∧ (n.passes.head? = some p) ∧ (n.enabled = true) ∧ (mayAppend s = true) ∧ (p + n.wait ≤ s.rs.opSeconds)) ∧
    (∃ (d : Nat) (s : State) (x : Desc) (k : Nat), (Ready 0x38 d s x) ∧ (InTurn s x) ∧ (checkFaults (nodeSetChecks x.bytes) = []) ∧ (isStandby s = false) ∧ (mayAppend s = true) ∧ (Tab.get s.db.nodes (u16 x.bytes 16) = none) ∧ (bit (u8 x.bytes 23) 0 = true) ∧ (depthUnder s (u16 x.bytes 16) (if u16 x.bytes 18 = 65535 then none else some (u16 x.bytes 18)) = some k)) ∧
    (∃ (d : Nat) (s : State) (x : Desc) (n : Node), (Ready 0x38 d s x) ∧ (InTurn s x) ∧ (checkFaults (nodeSetChecks x.bytes) = []) ∧ (isStandby s = false) ∧ (mayAppend s = true) ∧ (Tab.get s.db.nodes (u16 x.bytes 16) = some n) ∧ (bit (u8 x.bytes 23) 0 = false) ∧ (hasMeters s (u16 x.bytes 16) = false) ∧ (hasChildren s (u16 x.bytes 16) = false)) :=
  ⟨⟨onLg (fun l => { l with folds := [foldRec] }) up, foldRec, [], emptyBody 0 0, by decide +kernel⟩,
    ⟨4, onRs (fun r => { r with opSeconds := 4000 }) (onDb (fun d => { d with nodes := [(4, { aNode with passes := [10] })] }) up), { aNode with passes := [10] }, 10, by decide +kernel⟩,
    ⟨5, withCmd up 0x38 nodeFields, dsc 0x38 nodeFields, 0, by decide +kernel⟩,
    ⟨5, onDb (fun d => { d with nodes := [(4, aNode)] }) (withCmd up 0x38 (nodeFields ++ [(23, [0])])), dsc 0x38 (nodeFields ++ [(23, [0])]), aNode, by decide +kernel⟩⟩

theorem wit_BalanceCommands_2 :
    (∃ (d : Nat) (s : State) (x : Desc) (n : Node), (Ready 0x38 d s x) ∧ (InTurn s x) ∧ (checkFaults (nodeSetChecks x.bytes) = []) ∧ (isStandby s = false) ∧ (mayAppend s = true) ∧ (Tab.get s.db.nodes (u16 x.bytes 16) = some n) ∧ (bit (u8 x.bytes 23) 0 = true ∧ n.enabled = true) ∧ (n.parent = (if u16 x.bytes 18 = 65535 then none else some (u16 x.bytes 18)) ∧ n.balQ = u8 x.bytes 20 ∧ n.balLen = u8 x.bytes 21 ∧ n.eNode = i8 x.bytes 22) ∧ (depthUnder s (u16 x.bytes 16) n.parent = some n.depth)) ∧
    (∃ (d : Nat) (s : State) (x : Desc) (k : Nat) (e : MEntry) (n : Node) (m : Memb), (Ready 0x39 d s x) ∧ (InTurn s x) ∧ (checkFaults (refChecks x.bytes) = []) ∧ (refMeter false s x.bytes = some (k, e)) ∧ (isStandby s = false) ∧ (mayAppend s = true) ∧ (e.homeSelf = true) ∧ (Tab.get s.db.nodes (u16 x.bytes 28) = some n) ∧ (m = Tab.getD s.db.memb k Memb.none) ∧ (bit (u8 x.bytes 30) 1 = false) ∧ (roleRefusal s k (u16 x.bytes 28) n (bit (u8 x.bytes 30) 0) m = none) ∧ ((if bit (u8 x.bytes 30) 0 then m.memberOf else m.supplyOf) = none)) ∧
    (∃ (d : Nat) (s : State) (x : Desc) (k : Nat) (e : MEntry) (n : Node) (m : Memb), (Ready 0x39 d s x) ∧ (InTurn s x) ∧ (checkFaults (refChecks x.bytes) = []) ∧ (refMeter false s x.bytes = some (k, e)) ∧ (isStandby s = false) ∧ (mayAppend s = true) ∧ (e.homeSelf = true) ∧ (Tab.get s.db.nodes (u16 x.bytes 28) = some n) ∧ (Tab.get s.db.memb k = some m) ∧ (bit (u8 x.bytes 30) 1 = true) ∧ (if bit (u8 x.bytes 30) 0 then m.memberOf = some (u16 x.bytes 28) ∧ m.leaveM = none else m.supplyOf = some (u16 x.bytes 28) ∧ m.leaveS = none) ∧ ((if bit (u8 x.bytes 30) 0 then m.endM else m.endS) < nextGrid s n.balLen)) ∧
    (∃ (d : Nat) (s : State) (x : Desc) (k : Nat) (e : MEntry) (n : Node) (m : Memb), (Ready 0x39 d s x) ∧ (InTurn s x) ∧ (checkFaults (refChecks x.bytes) = []) ∧ (refMeter false s x.bytes = some (k, e)) ∧ (isStandby s = false) ∧ (mayAppend s = true) ∧ (e.homeSelf = true) ∧ (Tab.get s.db.nodes (u16 x.bytes 28) = some n) ∧ (m = Tab.getD s.db.memb k Memb.none) ∧ (bit (u8 x.bytes 30) 1 = true) ∧ ((if bit (u8 x.bytes 30) 0 then m.memberOf else m.supplyOf) ≠ some (u16 x.bytes 28))) :=
  ⟨⟨5, onDb (fun d => { d with nodes := [(4, aNode)] }) (withCmd up 0x38 nodeFields), dsc 0x38 nodeFields, aNode, by decide +kernel⟩,
    ⟨5, memberState [(16, [77]), (28, [4, 0, 1])], dsc 0x39 [(16, [77]), (28, [4, 0, 1])], 3, ent, aNode, Memb.none, by decide +kernel⟩,
    ⟨5, onDb (fun d => { d with memb := [(3, { Memb.none with memberOf := some 4 })] }) (memberState [(16, [77]), (28, [4, 0, 3])]), dsc 0x39 [(16, [77]), (28, [4, 0, 3])], 3, ent, aNode, { Memb.none with memberOf := some 4 }, by decide +kernel⟩,
    ⟨5, memberState [(16, [77]), (28, [4, 0, 3])], dsc 0x39 [(16, [77]), (28, [4, 0, 3])], 3, ent, aNode, Memb.none, by decide +kernel⟩⟩

theorem wit_BalanceCommands_3 :
    (∃ (d : Nat) (s : State) (x : Desc) (n : Node), (Ready 0x3A d s x) ∧ (InTurn s x) ∧ (u64 x.bytes 24 % 64 = 0) ∧ (Tab.get s.db.nodes (u16 x.bytes 16) = some n)) ∧
    (∃ (d : Nat) (s : State) (x : Desc), (Ready 0x3A d s x) ∧ (InTurn s x) ∧ (u64 x.bytes 24 % 64 = 0) ∧ (Tab.get s.db.nodes (u16 x.bytes 16) = none)) ∧
    (∃ (d : Nat) (s : State) (x : Desc) (n : Node), (Ready 0x3B d s x) ∧ (InTurn s x) ∧ (isStandby s = false) ∧ (mayAppend s = true) ∧ (Tab.get s.db.nodes (u16 x.bytes 16) = some n)) ∧
    (∃ (d : Nat) (s : State) (x : Desc), (Ready 0x3C d s x) ∧ (checkFaults (logChecks x.bytes 64) = [])) :=
  ⟨⟨5, onDb (fun d => { d with nodes := [(4, aNode)] }) (withCmd up 0x3A [(16, [4])]), dsc 0x3A [(16, [4])], aNode, by decide +kernel⟩,
    ⟨5, withCmd up 0x3A [(16, [4])], dsc 0x3A [(16, [4])], by decide +kernel⟩,
    ⟨5, onDb (fun d => { d with nodes := [(4, aNode)] }) (withCmd up 0x3B [(16, [4])]), dsc 0x3B [(16, [4])], aNode, by decide +kernel⟩,
    ⟨5, withCmd up 0x3C [(32, [0, 0x10])], dsc 0x3C [(32, [0, 0x10])], by decide +kernel⟩⟩

theorem wit_BalanceCommands_4 :
    (∃ (d : Nat) (s : State) (x : Desc) (k : Nat) (e : MEntry), (Ready 0x3D d s x) ∧ (checkFaults (refChecks x.bytes) = []) ∧ (u64 x.bytes 32 % 64 = 0) ∧ (refMeter false s x.bytes = some (k, e))) ∧
    (∃ (d : Nat) (s : State) (x : Desc) (k : Nat) (e : MEntry) (i : Ind), (Ready 0x3E d s x) ∧ (InTurn s x) ∧ (bit (u8 x.bytes 30) 1 = false) ∧ (checkFaults (refChecks x.bytes) = []) ∧ (isStandby s = false) ∧ (mayAppend s = true) ∧ (refMeter false s x.bytes = some (k, e)) ∧ (Tab.get s.db.inds k = some i)) ∧
    (∃ (d : Nat) (s : State) (x : Desc) (n : Node), (Ready 0x3E d s x) ∧ (InTurn s x) ∧ (bit (u8 x.bytes 30) 1 = true) ∧ (allZero (slice x.bytes 16 12) = true) ∧ (isStandby s = false) ∧ (mayAppend s = true) ∧ (Tab.get s.db.nodes (u16 x.bytes 32) = some n)) ∧
    (∃ (d : Nat) (s : State) (x : Desc), (Ready 0x3F d s x) ∧ (u64 x.bytes 24 % 64 = 0)) :=
  ⟨⟨5, withMeter (withCmd up 0x3D [(16, [77])]), dsc 0x3D [(16, [77])], 3, ent, by decide +kernel⟩,
    ⟨5, onDb (fun d => { d with inds := [(3, { Ind.fresh with ind := 7 })] }) (withMeter (withCmd up 0x3E [(16, [77]), (28, [5, 0, 1])])), dsc 0x3E [(16, [77]), (28, [5, 0, 1])], 3, ent, { Ind.fresh with ind := 7 }, by decide +kernel⟩,
    ⟨5, onDb (fun d => { d with nodes := [(4, aNode)] }) (withCmd up 0x3E [(30, [2]), (32, [4])]), dsc 0x3E [(30, [2]), (32, [4])], aNode, by decide +kernel⟩,
    ⟨5, withCmd up 0x3F [(16, [1])], dsc 0x3F [(16, [1])], by decide +kernel⟩⟩

theorem wit_PowerLineLink_1 :
    (∃ (ph zc : Nat) (s u : State), (isUp s 12 = true) ∧ (ph < s.plc.phases.length) ∧ (onPhase ph (fun p => { p with lastPeriod := some (periodNo (toPeriod ph s) ph).toNat, alloc := [] }) (takePlcSet ph (toPeriod ph s)) = u) ∧ (plcInService u ph = true) ∧ ((startFrame 1 (durOf u) u).1 = true)) ∧
    (∃ (ph zc : Nat) (s : State), (isUp s 12 = true) ∧ (ph < s.plc.phases.length) ∧ (bit s.opt.plc.phases ph = false)) ∧
    (∃ (f : PlcRx) (s : State), (isUp s 12 = true) ∧ (plcInService s f.phase = true) ∧ (f.fcOk = false)) ∧
    (∃ (f : PlcRx) (s : State), (isUp s 12 = true) ∧ (plcInService s f.phase = true) ∧ (f.fcOk = true) ∧ (u16 f.fc 1 ≠ (phaseAt s f.phase).set.nid)) :=
  ⟨⟨2, 5, plcState, onPhase (2) (fun p => { p with lastPeriod := some (periodNo (toPeriod (2) (plcState)) (2)).toNat, alloc := [] }) (takePlcSet (2) (toPeriod (2) (plcState))), by decide +kernel, by decide +kernel, rfl, by decide +kernel⟩,
    ⟨2, 5, saveOpt (fun o => { o with plc := { o.plc with phases := 3 } }) plcState, by decide +kernel⟩,
    ⟨{ plcRx with fcOk := false }, plcState, by decide +kernel⟩,
    ⟨{ plcRx with fc := setAt plcRx.fc 1 7 }, plcState, by decide +kernel⟩⟩

theorem wit_PowerLineLink_2 :
    (∃ (f : PlcRx) (s : State), (isUp s 12 = true) ∧ (plcInService s f.phase = true) ∧ (f.fcOk = true) ∧ (u16 f.fc 1 = (phaseAt s f.phase).set.nid) ∧ (fcDown f.fc = true) ∧ (fcDt f.fc = 0) ∧ (pairedUp s = true)) ∧
    (∃ (f : PlcRx) (s : State) (body : Bytes), (isUp s 12 = true) ∧ (plcInService s f.phase = true) ∧ (f.fcOk = true) ∧ (u16 f.fc 1 = (phaseAt s f.phase).set.nid) ∧ (fcDown f.fc = false) ∧ (fcDt f.fc = 3) ∧ (f.pbs.length = bits (u8 f.fc 6) 5 2) ∧ ((receiveMpdu (fcTei f.fc) f (statPlc f.phase 1 s)).1 = some body) ∧ (joinStatus s (u64 body 0) (u8 body 10) (decidePhase s (fcPhase f.fc) (fcZc f.fc) f.snr).1 = 0) ∧ (stationOf s (u64 body 0) = none)) ∧
    (∃ (f : PlcRx) (s : State) (body fr : Bytes) (x : Station), (isUp s 12 = true) ∧ (plcInService s f.phase = true) ∧ (f.fcOk = true) ∧ (u16 f.fc 1 = (phaseAt s f.phase).set.nid) ∧ (fcDown f.fc = false) ∧ (fcDt f.fc = 1) ∧ (f.pbs.length = bits (u8 f.fc 6) 5 2) ∧ ((receiveMpdu (fcTei f.fc) f (statPlc f.phase 1 s)).1 = some body) ∧ (frameIn body = fr) ∧ (s.plc.stations.find? (fun t => t.tei == fcTei f.fc) = some x) ∧ (x.id = frameId fr) ∧ (isUp s 4 = true) ∧ ((decidePhase s (fcPhase f.fc) (fcZc f.fc) f.snr).1 < s.ik.queues.length)) ∧
    (∃ (f : PlcRx) (s : State) (x : Station) (q : PlcTx) (r : List PlcTx), (isUp s 12 = true) ∧ (plcInService s f.phase = true) ∧ (f.fcOk = true) ∧ (u16 f.fc 1 = (phaseAt s f.phase).set.nid) ∧ (fcDown f.fc = false) ∧ (fcDt f.fc = 2) ∧ (s.plc.stations.find? (fun t => t.tei == fcTei f.fc) = some x) ∧ (x.queue = q :: r) ∧ (q.waiting = true ∧ q.seq = fcSeq f.fc) ∧ (u8 f.fc 10 % 4 = 0)) :=
  ⟨⟨{ plcRx with fc := [0, 0, 0, 0, 0x80, 0, 0, 0, 0, 0, 0, 0] }, onPair (fun p => { p with cfg := some pairCfg }) plcState, by decide +kernel⟩,
    ⟨{ plcRx with fc := setAt plcRx.fc 0 3, pbs := [(0, [77, 0, 0, 0, 0, 0, 0, 0, 9, 0, 1])] }, plcJoinState, padTo 68 [77, 0, 0, 0, 0, 0, 0, 0, 9, 0, 1], by decide +kernel⟩,
    ⟨{ plcRx with pbs := [(0, frm.bytes)] }, onPlc (fun p => { p with stations := [newStation 5 77 none 0 0 0 0 []] }) plcState, padTo 68 frm.bytes, frm.bytes, newStation 5 77 none 0 0 0 0 [], by decide +kernel⟩,
    ⟨{ plcRx with fc := [2, 0, 0, 5, 0, 0, 4, 9, 0, 0, 0, 0] }, plcQueueState true, plcStation true, plcTx true, [], by decide +kernel⟩⟩

theorem wit_PowerLineLink_3 :
    (∃ (ph : Nat) (s u : State) (x : Station) (q : PlcTx) (r : List PlcTx), (isUp s 12 = true) ∧ (plcInService s ph = true) ∧ (idleMedium s = u) ∧ (meetsTraffic u (durOf u) = false) ∧ (s.plc.bcast = []) ∧ ((startFrame 1 (durOf u) u).1 = true) ∧ (nextStation s ph = some x) ∧ (s.plc.stations.find? (fun t => t.tei == x.tei) = some x) ∧ (x.queue = q :: r) ∧ (q.waiting = false)) ∧
    (∃ (ph : Nat) (s u : State) (mask dt : Nat) (b : Bytes) (r : List (Nat × Nat × Bytes)), (isUp s 12 = true) ∧ (plcInService s ph = true) ∧ (idleMedium s = u) ∧ (meetsTraffic u (durOf u) = false) ∧ (s.plc.bcast = (mask, dt, b) :: r) ∧ ((startFrame ((phasesUp u).filter (bit mask)).length (durOf u) u).1 = true)) ∧
    (∃ (ph noise imped period lag : Nat) (s : State), (isUp s 12 = true) ∧ (ph < s.plc.phases.length)) ∧
    (∃ (ph : Nat) (s : State), (isUp s 12 = true) ∧ (plcInService s ph = true) ∧ (ph < s.plc.phases.length)) :=
  ⟨⟨0, quietState (plcQueueState false), idleMedium (quietState (plcQueueState false)), plcStation false, plcTx false, [], by decide +kernel, by decide +kernel, rfl,
      quiet_of (by decide +kernel), by decide +kernel⟩,
    ⟨0, onPlc (fun p => { p with bcast := [(5, 4, [1])] }) (quietState plcState), idleMedium (onPlc (fun p => { p with bcast := [(5, 4, [1])] }) (quietState plcState)),
      5, 4, [1], [], by decide +kernel, by decide +kernel, rfl, quiet_of (by decide +kernel), by decide +kernel⟩,
    ⟨1, 35, 5, 20000, 6667, plcState, by decide +kernel⟩,
    ⟨1, plcState, by decide +kernel⟩⟩

theorem wit_PowerLineCommands_1 :
    (∃ (tei : Nat) (s : State) (x : Station) (q : PlcTx) (r : List PlcTx), (s.plc.stations.find? (fun t => t.tei == tei) = some x) ∧ (x.queue = q :: r) ∧ (isUp s 12 = true) ∧ (q.waiting = true)) ∧
    (∃ (tei : Nat) (s : State) (x : Station) (o : Nat × Nat), (s.plc.stations.find? (fun t => t.tei == tei) = some x) ∧ (stationOf s x.id = some x) ∧ (x.owes = some o) ∧ (isUp s 12 = true) ∧ (maySend s = true)) ∧
    (∃ (tei seq : Nat) (s : State) (x : Station) (g : PlcHold), (s.plc.stations.find? (fun t => t.tei == tei) = some x) ∧ (x.holds.find? (fun h => h.seq == seq) = some g)) ∧
    (∃ (d : Nat) (s : State) (x : Desc), (Ready 0x50 d s x) ∧ (checkFaults (plcSetChecks x.bytes) = []) ∧ (isUp s 12 = true)) ∧
    (∃ (d : Nat) (s : State) (x : Desc), (Ready 0x50 d s x) ∧ (checkFaults (plcSetChecks x.bytes) = []) ∧ (isUp s 12 = false)) :=
  ⟨⟨5, plcQueueState true, plcStation true, plcTx true, [], by decide +kernel⟩,
    ⟨5, onPlc (fun p => { p with stations := [{ plcStation true with owes := some (1, 0) }] }) plcState, { plcStation true with owes := some (1, 0) }, (1, 0), by decide +kernel⟩,
    ⟨5, 9, onPlc (fun p => { p with stations := [{ plcStation true with holds := [plcHold] }] }) ({ plcState with now := 300000000 }), { plcStation true with holds := [plcHold] }, plcHold, by decide +kernel⟩,
    ⟨5, withCmd up 0x50 plcFields, dsc 0x50 plcFields, by decide +kernel⟩,
    ⟨5, onIsl 12 (fun i => { i with phase := .failed }) (withCmd up 0x50 plcFields), dsc 0x50 plcFields, by decide +kernel⟩⟩

theorem wit_PowerLineCommands_2 :
    (∃ (d : Nat) (s : State) (x : Desc) (k : Nat) (e : MEntry) (q : Station), (Ready 0x51 d s x) ∧ (checkFaults (refChecks x.bytes) = []) ∧ (u64 x.bytes 32 % 64 = 0) ∧ (refMeter false s x.bytes = some (k, e)) ∧ (isUp s 12 = true) ∧ (stationOf s e.id = some q)) ∧
    (∃ (d : Nat) (s : State) (x : Desc) (k : Nat) (e : MEntry) (q : Station), (Ready 0x52 d s x) ∧ (bit (u8 x.bytes 28) 7 = false) ∧ (checkFaults (refChecks x.bytes) = []) ∧ (refMeter false s x.bytes = some (k, e)) ∧ (isUp s 12 = true) ∧ (stationOf s e.id = some q)) ∧
    (∃ (d : Nat) (s : State) (x : Desc), (Ready 0x52 d s x) ∧ (bit (u8 x.bytes 28) 7 = true) ∧ (allZero (slice x.bytes 16 12) = true) ∧ (isUp s 12 = true)) ∧
    (∃ (d : Nat) (s : State) (x : Desc), (Ready 0x53 d s x) ∧ (u64 x.bytes 24 % 64 = 0) ∧ (isUp s 12 = true)) ∧
    (∃ (d : Nat) (s : State) (x : Desc), (Ready 0x53 d s x) ∧ (u64 x.bytes 24 % 64 = 0) ∧ (isUp s 12 = false)) :=
  ⟨⟨5, onPlc (fun p => { p with stations := [plcStation true] }) (withMeter (withCmd up 0x51 [(16, [77])])), dsc 0x51 [(16, [77])], 3, ent, plcStation true, by decide +kernel⟩,
    ⟨5, onPlc (fun p => { p with stations := [plcStation true] }) (withMeter (withCmd up 0x52 [(16, [77]), (28, [3])])), dsc 0x52 [(16, [77]), (28, [3])], 3, ent, plcStation true, by decide +kernel⟩,
    ⟨5, onPlc (fun p => { p with stations := [plcStation true] }) (withCmd up 0x52 [(28, [0x83])]), dsc 0x52 [(28, [0x83])], by decide +kernel⟩,
    ⟨5, withCmd up 0x53 [(16, [1])], dsc 0x53 [(16, [1])], by decide +kernel⟩,
    ⟨5, onIsl 12 (fun i => { i with phase := .failed }) (withCmd up 0x53 [(16, [1])]), dsc 0x53 [(16, [1])], by decide +kernel⟩⟩

theorem wit_RadioCommands_1 :
    (∃ (r : Nat) (s : State), (isUp s 13 = true) ∧ (r < 2) ∧ (s.rad.radios.length = 2)) ∧
    (∃ (s : State), (isUp s 13 = true) ∧ (s.rad.radios.length = 2)) ∧
    (∃ (r : Nat) (s : State), (isUp s 13 = true) ∧ (r < 2) ∧ (s.rad.radios.length = 2) ∧ ((radioAt s r).asn ≠ some (asnNow s)) ∧ (asnNow s % 100 = 0)) ∧
    (∃ (f : RadioRx) (s : State), (isUp s 13 = true) ∧ (radioEnabled s f.radio = true) ∧ (f.fcsOk = true) ∧ (f.layoutOk = false ∨ f.panId ≠ (radioAt s f.radio).set.panId) ∧ (receiverOn s f = true)) ∧
    (∃ (f : RadioRx) (s : State) (k : Nat) (e : MEntry), (isUp s 13 = true) ∧ (radioEnabled s f.radio = true) ∧ (f.fcsOk = true ∧ f.layoutOk = true) ∧ (f.panId = (radioAt s f.radio).set.panId) ∧ (maySend s = true) ∧ (f.kind = 6) ∧ (asnNow s % 5 = 0 ∧ asnNow s % 10 ≠ 0) ∧ (15 ≤ f.start ∧ f.start ≤ 185) ∧ (radioJoinStatus s f = 0) ∧ (entryById s f.source = some (k, e)) ∧ (receiverOn s f = true)) :=
  ⟨⟨1, radioState, by decide +kernel⟩,
    ⟨radioState, by decide +kernel⟩,
    ⟨1, radioState, by decide +kernel⟩,
    ⟨{ radioRx with panId := 9 }, radioState, by decide +kernel⟩,
    ⟨{ radioRx with kind := 6, start := 20, payload := [9, 0, 1, 0] }, onTm (fun t => { t with counter := 1000000100 }) (withProfile (setAt profBytes 8 0x18) (withMeter radioState)), 3, ent, by decide +kernel⟩⟩

theorem wit_RadioCommands_2 :
    (∃ (f : RadioRx) (s : State) (x : Child), (isUp s 13 = true) ∧ (radioEnabled s f.radio = true) ∧ (f.fcsOk = true ∧ f.layoutOk = true) ∧ (f.panId = (radioAt s f.radio).set.panId) ∧ (maySend s = true) ∧ (f.kind = 4) ∧ (s.rad.children.find? (fun c => c.id == f.source && c.radio == f.radio) = some x) ∧ (inWindow s f x = true) ∧ (receiverOn s f = true) ∧ (isUp s 4 = true) ∧ (3 + f.radio < s.ik.queues.length)) ∧
    (∃ (f : RadioRx) (s : State), (isUp s 13 = true) ∧ (radioEnabled s f.radio = true) ∧ (f.fcsOk = true ∧ f.layoutOk = true) ∧ (f.panId = (radioAt s f.radio).set.panId) ∧ (isStandby s = true) ∧ (f.kind = 1 ∨ f.kind = 2) ∧ (receiverOn s f = true)) ∧
    (∃ (short : Nat) (s : State) (x : Child), (childOf s short = some x) ∧ (isUp s 13 = true) ∧ (x.silent = false) ∧ (pfWake (bodyFor s x.id) ≠ 0)) ∧
    (∃ (d : Nat) (s : State) (x : Desc), (Ready 0x54 d s x) ∧ (checkFaults (radioSetChecks x.bytes) = []) ∧ (isUp s 13 = true) ∧ (radioSetRefusal s (radioSetOf x.bytes) = none) ∧ (u8 x.bytes 16 < s.opt.radio.length)) ∧
    (∃ (d : Nat) (s : State) (x : Desc) (st : Nat × Nat), (Ready 0x54 d s x) ∧ (checkFaults (radioSetChecks x.bytes) = []) ∧ (isUp s 13 = true) ∧ (radioSetRefusal s (radioSetOf x.bytes) = some st)) :=
  ⟨⟨{ radioRx with payload := frm.bytes }, onRad (fun r => { r with children := [radioChild] }) radioState, radioChild, by decide +kernel⟩,
    ⟨{ radioRx with kind := 1 }, onPair (fun p => { p with cfg := some pairCfg, st := .standby }) radioState, by decide +kernel⟩,
    ⟨3, { onRad (fun r => { r with children := [radioChild] }) (withProfile (setAt profBytes 12 1) (withMeter radioState)) with now := 100000000000 }, radioChild, by decide +kernel⟩,
    ⟨5, withCmd up 0x54 radioFields, dsc 0x54 radioFields, by decide +kernel⟩,
    ⟨5, withCmd up 0x54 (radioFields ++ [(18, [3])]), dsc 0x54 (radioFields ++ [(18, [3])]), (0x2A, 18), by decide +kernel⟩⟩

theorem wit_RadioCommands_3 :
    (∃ (d : Nat) (s : State) (x : Desc) (data : Bytes), (Ready 0x55 d s x) ∧ (u64 x.bytes 24 % 64 = 0) ∧ (isUp s 13 = true) ∧ (x.input = some data) ∧ (checkFaults (regChecks data) = [])) ∧
    (∃ (d : Nat) (s : State) (x : Desc) (data : Bytes) (o : Nat), (Ready 0x55 d s x) ∧ (u64 x.bytes 24 % 64 = 0) ∧ (isUp s 13 = true) ∧ (x.input = some data) ∧ ((checkFaults (regChecks data)).min? = some o)) ∧
    (∃ (d : Nat) (s : State) (x : Desc) (k : Nat) (e : MEntry) (q : Child), (Ready 0x56 d s x) ∧ (bit (u8 x.bytes 28) 0 = false) ∧ (checkFaults (refChecks x.bytes) = []) ∧ (u64 x.bytes 32 % 64 = 0) ∧ (isUp s 13 = true) ∧ (refMeter false s x.bytes = some (k, e)) ∧ (childOf s k = some q)) ∧
    (∃ (d : Nat) (s : State) (x : Desc), (Ready 0x56 d s x) ∧ (bit (u8 x.bytes 28) 0 = true) ∧ (bit (u8 x.bytes 27) 7 = true) ∧ (checkFaults (refChecks x.bytes) = []) ∧ (u64 x.bytes 32 % 64 = 0) ∧ (isUp s 13 = true)) ∧
    (∃ (d : Nat) (s : State) (x : Desc), (Ready 0x57 d s x) ∧ (u64 x.bytes 24 % 64 = 0) ∧ (isUp s 13 = true)) :=
  ⟨⟨5, withCmd up 0x55 [] (some regBytes), dsc 0x55 [] (some regBytes), regBytes, by decide +kernel⟩,
    ⟨5, withCmd up 0x55 [] (some (List.replicate 128 0)), dsc 0x55 [] (some (List.replicate 128 0)), List.replicate 128 0, 0, by decide +kernel⟩,
    ⟨5, onRad (fun r => { r with children := [radioChild] }) (withMeter (withCmd up 0x56 [(16, [77])])), dsc 0x56 [(16, [77])], 3, ent, radioChild, by decide +kernel⟩,
    ⟨5, onRad (fun r => { r with children := [{ radioChild with silent := true }] }) (withCmd up 0x56 [(27, [0x80, 1])]), dsc 0x56 [(27, [0x80, 1])], by decide +kernel⟩,
    ⟨5, withCmd up 0x57 [(16, [1])], dsc 0x57 [(16, [1])], by decide +kernel⟩⟩

theorem wit_WiredCommands_1 :
    (∃ (port address : Nat) (s : State) (p : PollEntry) (due : Nat) (q : WiredReq) (r : List WiredReq), (portOn s port = true) ∧ (maySend s = true) ∧ (pollAt s port address = some p) ∧ (dueAt p (netSec s) = some due) ∧ (p.suspended = false ∧ p.lastDue ≠ some due ∧ p.held = none) ∧ (txOf s port = none) ∧ (port < s.wir.tx.length) ∧ ((currentKey s p.short p.id).isSome = true) ∧ (requestsOf p.bytes = q :: r)) ∧
    (∃ (port address : Nat) (s : State) (p : PollEntry) (due : Nat) (x : WiredTx), (portOn s port = true) ∧ (maySend s = true) ∧ (pollAt s port address = some p) ∧ (dueAt p (netSec s) = some due) ∧ (p.suspended = false ∧ p.lastDue ≠ some due) ∧ (txOf s port = some x) ∧ (port < s.wir.tx.length)) ∧
    (∃ (port : Nat) (raw : List Nat) (s : State) (x : WiredTx) (p : PollEntry) (q : WiredReq), (isUp s 4 = true) ∧ (maySend s = true) ∧ (txOf s port = some x) ∧ (x.change = none ∧ x.waiting = []) ∧ (x.todo = [q]) ∧ (port < s.wir.tx.length) ∧ (pollAt s port x.address = some p) ∧ (scalerDiffers p.bytes q raw = false) ∧ ((currentKey s p.short p.id).isSome = true) ∧ (5 + port < s.ik.queues.length)) ∧
    (∃ (port : Nat) (raw : List Nat) (s : State) (x : WiredTx) (p : PollEntry) (q n : WiredReq) (r : List WiredReq), (isUp s 4 = true) ∧ (maySend s = true) ∧ (txOf s port = some x) ∧ (x.todo = q :: n :: r) ∧ (port < s.wir.tx.length) ∧ (pollAt s port x.address = some p) ∧ (scalerDiffers p.bytes q raw = false)) ∧
    (∃ (port code : Nat) (s : State) (x : WiredTx) (p : PollEntry), (isUp s 4 = true) ∧ (maySend s = true) ∧ (txOf s port = some x) ∧ (x.change = none ∧ x.waiting = []) ∧ (port < s.wir.tx.length) ∧ (pollAt s port x.address = some p)) :=
  ⟨⟨1, 9, wiredState, poll, 0, .registers 3 1 1, [], by decide +kernel⟩,
    ⟨1, 9, wiredTxState, poll, 0, wiredTx, by decide +kernel⟩,
    ⟨1, [5], wiredTxState, wiredTx, poll, .registers 3 1 1, by decide +kernel⟩,
    ⟨1, [5], setTx 1 (some { wiredTx with todo := [.registers 3 1 1, .registers 4 7 2] }) wiredState, { wiredTx with todo := [.registers 3 1 1, .registers 4 7 2] }, poll, .registers 3 1 1, .registers 4 7 2, [], by decide +kernel⟩,
    ⟨1, 2, wiredTxState, wiredTx, poll, by decide +kernel⟩⟩

theorem wit_WiredCommands_2 :
    (∃ (port : Nat) (s : State) (x : WiredTx) (p : PollEntry) (q : WiredReq) (r : List WiredReq), (isUp s 4 = true) ∧ (maySend s = true) ∧ (txOf s port = some x) ∧ (x.todo = q :: r) ∧ (port < s.wir.tx.length) ∧ (pollAt s port x.address = some p) ∧ (x.tries < (wiredSetOf s port).retries)) ∧
    (∃ (port : Nat) (s : State) (x : WiredTx) (p : PollEntry), (isUp s 4 = true) ∧ (maySend s = true) ∧ (txOf s port = some x) ∧ (x.change = none ∧ x.waiting = []) ∧ (port < s.wir.tx.length) ∧ (pollAt s port x.address = some p) ∧ ((wiredSetOf s port).retries ≤ x.tries)) ∧
    (∃ (d : Nat) (s : State) (x : Desc), (Ready 0x58 d s x) ∧ (u8 x.bytes 16 ≤ 1 ∧ u8 x.bytes 18 % 16 ≤ 7 ∧ 10 ≤ u16 x.bytes 20 ∧ u16 x.bytes 20 ≤ 2000 ∧ u8 x.bytes 22 ≤ 3 ∧ 1 ≤ u8 x.bytes 23 ∧ u8 x.bytes 23 ≤ 15) ∧ (isUp s 4 = true)) ∧
    (∃ (d : Nat) (s : State) (x : Desc), (Ready 0x58 d s x) ∧ (u8 x.bytes 16 ≤ 1 ∧ u8 x.bytes 18 % 16 ≤ 7 ∧ 10 ≤ u16 x.bytes 20 ∧ u16 x.bytes 20 ≤ 2000 ∧ u8 x.bytes 22 ≤ 3 ∧ 1 ≤ u8 x.bytes 23 ∧ u8 x.bytes 23 ≤ 15) ∧ (isUp s 4 = false)) ∧
    (∃ (d : Nat) (s : State) (x : Desc) (k : Nat) (e : MEntry) (data : Bytes), (Ready 0x59 d s x) ∧ (checkFaults (refChecks x.bytes) = []) ∧ (bit (u8 x.bytes 28) 0 = false) ∧ (u64 x.bytes 32 % 16 = 0) ∧ (refMeter false s x.bytes = some (k, e)) ∧ (isUp s 4 = true) ∧ (x.input = some data) ∧ (checkFaults (entryChecks data) = []) ∧ ((wiredSetOf s (u8 data 0)).enable = true) ∧ (s.db.polls = []) ∧ (txOf s (u8 data 0) = none)) :=
  ⟨⟨1, wiredTxState, wiredTx, poll, .registers 3 1 1, [], by decide +kernel⟩,
    ⟨1, setTx 1 (some { wiredTx with tries := 9 }) wiredTxState, { wiredTx with tries := 9 }, poll, by decide +kernel⟩,
    ⟨5, withCmd up 0x58 [(16, [1, 3, 0x17, 0, 200, 0, 3, 15])], dsc 0x58 [(16, [1, 3, 0x17, 0, 200, 0, 3, 15])], by decide +kernel⟩,
    ⟨5, onIsl 4 (fun i => { i with phase := .failed }) (withCmd up 0x58 [(16, [1, 3, 0x17, 0, 200, 0, 3, 15])]), dsc 0x58 [(16, [1, 3, 0x17, 0, 200, 0, 3, 15])], by decide +kernel⟩,
    ⟨5, onHost (fun h => { h with descs := [dsc 0x59 [(16, [77])] (some pollBytes)] }) (onDb (fun d => { d with polls := [] }) wiredState), dsc 0x59 [(16, [77])] (some pollBytes), 3, ent, pollBytes, by decide +kernel⟩⟩

theorem wit_WiredCommands_3 :
    (∃ (d : Nat) (s : State) (x : Desc) (k : Nat) (e : MEntry) (n : Nat) (p : PollEntry), (Ready 0x59 d s x) ∧ (checkFaults (refChecks x.bytes) = []) ∧ (bit (u8 x.bytes 28) 0 = true) ∧ (refMeter false s x.bytes = some (k, e)) ∧ (isUp s 4 = true) ∧ (pollOfMeter s k = some (n, p)) ∧ (txOf s (n / 256) = none)) ∧
    (∃ (d : Nat) (s : State) (x : Desc) (k : Nat) (e : MEntry) (n : Nat) (p : PollEntry), (Ready 0x5A d s x) ∧ (checkFaults (refChecks x.bytes) = []) ∧ (u64 x.bytes 32 % 16 = 0) ∧ (refMeter false s x.bytes = some (k, e)) ∧ (isUp s 4 = true) ∧ (pollOfMeter s k = some (n, p))) ∧
    (∃ (d : Nat) (s : State) (x : Desc), (Ready 0x5B d s x) ∧ (u64 x.bytes 24 % 64 = 0) ∧ (isUp s 4 = true)) :=
  ⟨⟨5, onHost (fun h => { h with descs := [dsc 0x59 [(16, [77]), (28, [1])]] }) wiredState, dsc 0x59 [(16, [77]), (28, [1])], 3, ent, 265, poll, by decide +kernel⟩,
    ⟨5, onHost (fun h => { h with descs := [dsc 0x5A [(16, [77])]] }) wiredState, dsc 0x5A [(16, [77])], 3, ent, 265, poll, by decide +kernel⟩,
    ⟨5, withCmd up 0x5B [(16, [1])], dsc 0x5B [(16, [1])], by decide +kernel⟩⟩

theorem wit_TimeSources_1 :
    (∃ (s : State), (timeRuns s = true) ∧ (isUp s 1 = true)) ∧
    (∃ (port gm seq speed : Nat) (origin corr stamp : Int) (s : State), (ptpOn s port = true) ∧ (fromMaster s port gm = true)) ∧
    (∃ (port gm seq : Nat) (origin corr t2 c0 : Int) (s : State), (ptpOn s port = true) ∧ (fromMaster s port gm = true) ∧ (s.tm.sync = some (gm, seq, t2, c0)) ∧ (s.tm.pathKnown = false)) ∧
    (∃ (port gm seq : Nat) (received corr t3 d : Int) (s : State), (ptpOn s port = true) ∧ (fromMaster s port gm = true) ∧ (s.tm.t3 = some (seq, t3)) ∧ (s.tm.t21 = some d) ∧ (s.tm.cfg.peerDelay = false)) ∧
    (∃ (port gm p1 cc p2 off : Nat) (v l61 l59 : Bool) (s : State), (ptpOn s port = true) ∧ (s.tm.master = none) ∧ (s.tm.cfg.slaveOnly = true)) :=
  ⟨⟨timeState, by decide +kernel⟩,
    ⟨0, 7, 1, 0, 100, 0, 150, timeState, by decide +kernel⟩,
    ⟨0, 7, 1, 100, 0, 150, 0, onTm (fun t => { t with sync := some (7, 1, 150, 0) }) timeState, by decide +kernel⟩,
    ⟨0, 7, 1, 180, 0, 160, 20, onTm (fun t => { t with t3 := some (1, 160), t21 := some 20 }) timeState, by decide +kernel⟩,
    ⟨0, 7, 1, 6, 1, 37, true, false, false, onTm (fun t => { t with master := none, cfg := { t.cfg with slaveOnly := true } }) timeState, by decide +kernel⟩⟩

theorem wit_TimeSources_2 :
    (∃ (port seq speed : Nat) (stamp : Int) (s : State), (ptpOn s port = true) ∧ (s.tm.cfg.peerDelay = true ∨ (s.tm.cfg.slaveOnly = false ∧ s.tm.master.any (fun m => m.port == port) = false))) ∧
    (∃ (port : Nat) (s : State), (masterOn s port = true)) ∧
    (∃ (port : Nat) (s : State), (masterOn s port = true)) ∧
    (∃ (port speed : Nat) (stamp : Int) (s : State), (ptpOn s port = true) ∧ (s.tm.cfg.peerDelay = true ∨ s.tm.master.any (fun m => m.port == port) = true)) ∧
    (∃ (s : State), (timeRuns s = true) ∧ (s.tm.cfg.source = 1) ∧ (s.tm.st = 2)) :=
  ⟨⟨0, 1, 0, 50, onTm (fun t => { t with master := none }) timeState, by decide +kernel⟩,
    ⟨0, onTm (fun t => { t with master := none }) timeState, by decide +kernel⟩,
    ⟨0, onTm (fun t => { t with master := none }) timeState, by decide +kernel⟩,
    ⟨0, 0, 50, timeState, by decide +kernel⟩,
    ⟨onTm (fun t => { t with st := 2, cfg := { t.cfg with source := 1 } }) timeState, by decide +kernel⟩⟩

theorem wit_TimeSources_3 :
    (∃ (s : State), (timeRuns s = true) ∧ (s.tm.cfg.source = 1) ∧ (s.tm.st = 1)) ∧
    (∃ (s : State), (timeRuns s = true) ∧ (s.tm.cfg.source = 2) ∧ (s.tm.steps = []) ∧ (isStep (ppsTheta s) s = true) ∧ (s.tm.lockedOnce = false ∨ (ppsTheta s).natAbs ≤ 1000000)) ∧
    (∃ (s : State), (timeRuns s = true) ∧ (s.tm.cfg.source = 2) ∧ (s.tm.steps = []) ∧ (isStep (ppsTheta s) s = false) ∧ (s.tm.lockedOnce = false ∨ (ppsTheta s).natAbs ≤ 1000000)) ∧
    (∃ (s : State), (timeRuns s = true) ∧ (s.tm.cfg.source = 2) ∧ (s.tm.lockedOnce = true) ∧ (1000000 < (ppsTheta s).natAbs)) ∧
    (∃ (s : State), (timeRuns s = true) ∧ (s.tm.cfg.source = 2) ∧ (s.tm.st = 2)) :=
  ⟨⟨onTm (fun t => { t with st := 1, cfg := { t.cfg with source := 1 } }) timeState, by decide +kernel⟩,
    ⟨onTm (fun t => { t with cfg := { t.cfg with source := 2 } }) timeState, by decide +kernel⟩,
    ⟨onTm (fun t => { t with wasSet := true, cfg := { t.cfg with source := 2 } }) timeState, by decide +kernel⟩,
    ⟨onTm (fun t => { t with counter := 300000000, lockedOnce := true, cfg := { t.cfg with source := 2 } }) timeState, by decide +kernel⟩,
    ⟨onTm (fun t => { t with st := 2, cfg := { t.cfg with source := 2 } }) timeState, by decide +kernel⟩⟩

theorem wit_TimeSources_4 :
    (∃ (s : State) (a : StepAsk) (r : List StepAsk) (i : Item), (runningStep s = some i) ∧ (s.tm.steps = a :: r) ∧ (timeRuns s = true) ∧ (isUp s 9 = true) ∧ (mayAppend s = true)) ∧
    (∃ (s : State), (runningStep s = none)) ∧
    (∃ (s : State) (a : StepAsk) (r : List StepAsk) (d : Nat) (x : Desc) (i : Item), (runningStep s = some i) ∧ (s.tm.steps = a :: r) ∧ (timeRuns s = true) ∧ (isUp s 9 = true) ∧ (mayAppend s = true) ∧ (a.desc = some d) ∧ (descOf s d = some x) ∧ (x.stage = .waiting ∧ x.orphan = false)) :=
  ⟨⟨onTm (fun t => { t with steps := [timeStep] }) stepState, timeStep, [], stepItem, by decide +kernel⟩,
    ⟨onTm (fun t => { t with steps := [timeStep] }) timeState, by decide +kernel⟩,
    ⟨onHost (fun h => { h with descs := [{ dsc 0x61 with stage := .waiting }] }) (onTm (fun t => { t with steps := [{ timeStep with cause := 2, desc := some 5 }] }) stepState), { timeStep with cause := 2, desc := some 5 }, [], 5, { dsc 0x61 with stage := .waiting }, stepItem, by decide +kernel⟩⟩

theorem wit_TimeCommands_1 :
    (∃ (s : State) (k e : Int), (leapPending s = some (k, e)) ∧ (timeRuns s = true)) ∧
    (∃ (s : State), (clockValid s ≠ s.tm.validSeen) ∧ (mayAppend s = true ∨ isStandby s = true)) ∧
    (∃ (tei : Nat) (s : State) (x : Station) (k : Nat) (e : MEntry), (s.plc.stations.find? (fun t => t.tei == tei) = some x) ∧ (stationOf s x.id = some x) ∧ (s.tm.cfg.checkPeriod ≠ 0) ∧ (isUp s 12 = true) ∧ (isStandby s = false) ∧ (entryById s x.id = some (k, e)) ∧ (entryOf s k = some e) ∧ ((currentKey s k e.id).isSome = true) ∧ ((mstateOf s k).downCounter < ctrMax)) ∧
    (∃ (k : Nat) (s : State) (i : Int) (p : Tpulse), (s.tm.nextPulse.getD k none = some i) ∧ (timeRuns s = true) ∧ (k < s.tm.nextPulse.length ∧ k < s.tm.fired.length) ∧ (s.tm.pulses.getD k Tpulse.reset = p) ∧ (p.requireValid = false)) ∧
    (∃ (d : Nat) (s : State) (x : Desc), (Ready 0x60 d s x) ∧ (checkFaults (cfgChecks x.bytes) = [])) :=
  ⟨⟨onTm (fun t => { t with master := none, counter := 86437000000000, zone := { t.zone with leap := 1, leapDay := 0 } }) timeState, 1, 86400, by decide +kernel⟩,
    ⟨onTm (fun t => { t with validSeen := true }) timeState, by decide +kernel⟩,
    ⟨5, checkState, newStation 5 77 none 0 0 0 0 [], 3, ent, by decide +kernel⟩,
    ⟨2, onTm (fun t => { t with nextPulse := [none, none, some 16, none] }) timeState, 16, Tpulse.reset, by decide +kernel⟩,
    ⟨5, withCmd up 0x60 timeFields, dsc 0x60 timeFields, by decide +kernel⟩⟩

theorem wit_TimeCommands_2 :
    (∃ (d : Nat) (s : State) (x : Desc), (Ready 0x61 d s x) ∧ (u32 x.bytes 24 ≤ 999999999) ∧ (1 ≤ u32 x.bytes 28) ∧ (s.tm.cfg.source ≠ 1 ∨ clockValid s = false) ∧ (isStep (s.tm.counter - givenTime s x.bytes) s = true)) ∧
    (∃ (d : Nat) (s : State) (x : Desc), (Ready 0x61 d s x) ∧ (u32 x.bytes 24 ≤ 999999999) ∧ (1 ≤ u32 x.bytes 28) ∧ (s.tm.cfg.source ≠ 1 ∨ clockValid s = false) ∧ (isStep (s.tm.counter - givenTime s x.bytes) s = false)) ∧
    (∃ (d : Nat) (s : State) (x : Desc), (Ready 0x61 d s x) ∧ (u32 x.bytes 24 ≤ 999999999) ∧ (1 ≤ u32 x.bytes 28) ∧ (s.tm.cfg.source = 1) ∧ (clockValid s = true)) ∧
    (∃ (d : Nat) (s : State) (x : Desc) (data : Bytes), (Ready 0x62 d s x) ∧ (u64 x.bytes 24 % 16 = 0) ∧ (x.input = some data) ∧ (zoneFault data = none) ∧ (mayAppend s = true ∨ isStandby s = true)) ∧
    (∃ (d : Nat) (s : State) (x : Desc), (Ready 0x63 d s x) ∧ (checkFaults (pulseChecks x.bytes) = []) ∧ ((pulseOf x.bytes).enable = false ∨ (pulseOf x.bytes).periodic = true ∨ s.tm.counter + 1000000 ≤ (pulseOf x.bytes).start) ∧ (u8 x.bytes 16 < s.tm.nextPulse.length)) :=
  ⟨⟨5, withCmd up 0x61 [(16, [9]), (28, [1])], dsc 0x61 [(16, [9]), (28, [1])], by decide +kernel⟩,
    ⟨5, onTm (fun t => { t with wasSet := true }) (withCmd up 0x61 [(28, [1])]), dsc 0x61 [(28, [1])], by decide +kernel⟩,
    ⟨5, onTm (fun t => { t with wasSet := true, errSet := 0, cfg := { t.cfg with source := 1, validErr := 60000 } }) (withCmd up 0x61 [(28, [1])]), dsc 0x61 [(28, [1])], by decide +kernel⟩,
    ⟨5, withCmd up 0x62 [] (some (padTo 528 [60, 0, 37, 0, 0, 1, 9, 0])), dsc 0x62 [] (some (padTo 528 [60, 0, 37, 0, 0, 1, 9, 0])), padTo 528 [60, 0, 37, 0, 0, 1, 9, 0], by decide +kernel⟩,
    ⟨5, withCmd up 0x63 [(16, [3, 3]), (20, [8]), (40, [0x40, 0x42, 0x0F])], dsc 0x63 [(16, [3, 3]), (20, [8]), (40, [0x40, 0x42, 0x0F])], by decide +kernel⟩⟩

theorem wit_TimeCommands_3 :
    (∃ (d : Nat) (s : State) (x : Desc), (Ready 0x63 d s x) ∧ (checkFaults (pulseChecks x.bytes) = []) ∧ ((pulseOf x.bytes).enable = true) ∧ ((pulseOf x.bytes).periodic = false) ∧ (((pulseOf x.bytes).start : Int) < s.tm.counter + 1000000)) ∧
    (∃ (d : Nat) (s : State) (x : Desc), (Ready 0x64 d s x) ∧ (u64 x.bytes 24 % 64 = 0)) ∧
    (∃ (d : Nat) (s : State) (x : Desc), (Ready 0x65 d s x) ∧ (u64 x.bytes 24 % 64 = 0)) :=
  ⟨⟨5, withCmd up 0x63 [(16, [3, 1]), (20, [8])], dsc 0x63 [(16, [3, 1]), (20, [8])], by decide +kernel⟩,
    ⟨5, withCmd up 0x64, dsc 0x64, by decide +kernel⟩,
    ⟨5, withCmd up 0x65 [(16, [1])], dsc 0x65 [(16, [1])], by decide +kernel⟩⟩

theorem wit_ForwardingAndBroadcasts_1 :
    (∃ (home : Nat) (s : State) (f : FwdFrame), (s.arch.fwd = [f]) ∧ (f.msgId = none) ∧ (f.holdTo ≤ s.now) ∧ (homeOf s f = home) ∧ (0 < windowOfHome s home) ∧ (engineOpen s = true) ∧ (sessionUp s (hopOf s home) = true)) ∧
    (∃ (home msgId n : Nat) (s : State) (f : FwdFrame), (fwdIdx s home msgId = some n) ∧ (s.arch.fwd[n]? = some f) ∧ (engineOpen s = true) ∧ (sessionUp s (hopOf s home) = true)) ∧
    (∃ (home meter n : Nat) (s : State) (f : FwdFrame), (s.arch.fwd.findIdx? (fun f => f.id == meter && f.msgId.isNone && f.holdTo != 0 && homeOf s f == home) = some n) ∧ (s.arch.fwd[n]? = some f) ∧ (engineOpen s = true) ∧ (sessionUp s (hopOf s home) = true)) ∧
    (∃ (s : State), (isDesignated s = true) ∧ (engineOpen s = true)) :=
  ⟨⟨9, fwdArchState none, fwdFrame none, by decide +kernel⟩,
    ⟨9, 4, 0, { fwdArchState (some 4) with now := 100000000000 }, fwdFrame (some 4), by decide +kernel⟩,
    ⟨9, 77, 0, onArch (fun a => { a with fwd := [{ fwdFrame none with holdTo := 8 }] }) (fwdArchState none), { fwdFrame none with holdTo := 8 }, by decide +kernel⟩,
    ⟨{ onArch (fun a => { a with role := 2, set := { a.set with designated := a.member } }) (archState none) with now := 16000000000 }, by decide +kernel⟩⟩

theorem wit_ForwardingAndBroadcasts_2 :
    (∃ (s : State), (isDesignated s = true) ∧ (engineOpen s = true)) ∧
    (∃ (s : State) (b : Nat × Nat × Nat), (s.arch.bcast = some b) ∧ (s.arch.bcastOn = true)) ∧
    (∃ (m k : Nat) (s : State), (isUp s 10 = true) ∧ (s.arch.zlr.contains (m, k) = true) ∧ (sessionUp s (hopOf s m) = true)) :=
  ⟨⟨{ onArch (fun a => { a with role := 2, set := { a.set with designated := a.member } }) (archState none) with now := 60000000000 }, by decide +kernel⟩,
    ⟨{ onArch (fun a => { a with bcast := some (1, 2, 0), bcastOn := true }) up with now := 300000000000 }, (1, 2, 0), by decide +kernel⟩,
    ⟨9, 4, onArch (fun a => { a with zlr := [(9, 4)] }) (archState none), by decide +kernel⟩⟩

theorem wit_UrraufSessions_1 :
    (∃ (g : Bytes) (s : State) (m : Nat) (e : Session) (plain : Bytes), (engineOpen s = true) ∧ (16 ≤ g.length) ∧ (u8 g 0 = 0x10) ∧ (sessionFor s (beNat (slice g 2 2)) = some (m, e, false)) ∧ (isReplay e (beNat (slice g 4 8)) = false) ∧ (g.length = 32 + beNat (slice g 12 2)) ∧ (gcmOpen e.rxKey (e.rxSalt ++ slice g 4 8) (g.take 16) (slice g 16 (beNat (slice g 12 2))) (slice g (16 + beNat (slice g 12 2)) 16) = some plain) ∧ (parseMsgs plain.length plain = [])) ∧
    (∃ (g : Bytes) (s : State) (m : Nat) (e : Session) (old : Bool), (engineOpen s = true) ∧ (16 ≤ g.length) ∧ (u8 g 0 = 0x10) ∧ (sessionFor s (beNat (slice g 2 2)) = some (m, e, old)) ∧ (isReplay e (beNat (slice g 4 8)) = true)) ∧
    (∃ (g : Bytes) (s : State) (m : Nat) (e : Session) (old : Bool), (engineOpen s = true) ∧ (16 ≤ g.length) ∧ (u8 g 0 = 0x10) ∧ (sessionFor s (beNat (slice g 2 2)) = some (m, e, old)) ∧ (isReplay e (beNat (slice g 4 8)) = false) ∧ (g.length ≠ 32 + beNat (slice g 12 2) ∨ gcmOpen e.rxKey (e.rxSalt ++ slice g 4 8) (g.take 16) (slice g 16 (beNat (slice g 12 2))) (slice g (16 + beNat (slice g 12 2)) 16) = none)) ∧
    (∃ (x : Hello) (s : State) (p : Nat × Nat), ((if x.isthmus then laneOpen s else engineOpen s) = true) ∧ (certGood x.isthmus x.cert (adoptArch x.isthmus s) = true) ∧ (helloPoint x.body = some p) ∧ ((ownHello (adoptArch x.isthmus s)).isSome = true)) ∧
    (∃ (x : Hello) (s : State) (p : Nat × Nat) (k : Handshake), (x.isthmus = false) ∧ (engineOpen s = true) ∧ (((peerOf s x.cert.member).bind (·.hs)) = some k) ∧ (certGood false x.cert s = true) ∧ (helloPoint x.body = some p) ∧ (ecdsaVerify (x.cert.pubX, x.cert.pubY) (k.hello ++ helloPlain x.body) x.sigR x.sigS = true)) :=
  ⟨⟨aDatagram, archState none, 9, aSession, [], by decide +kernel⟩,
    ⟨setAt aDatagram 11 0, archState none, 9, aSession, false, by decide +kernel⟩,
    ⟨aDatagram ++ [0], archState none, 9, aSession, false, by decide +kernel⟩,
    ⟨aHello, helloState, p384G, by decide +kernel⟩,
    ⟨replyHello, replyState, p384G, aHandshake, by decide +kernel⟩⟩

theorem wit_UrraufSessions_2 :
    (∃ (x : Hello) (s : State) (p : Nat × Nat) (k : Handshake), (x.isthmus = true) ∧ (laneOpen s = true) ∧ (s.pair.isthmus.hs = some k) ∧ (certGood true x.cert s = true) ∧ (helloPoint x.body = some p) ∧ (ecdsaVerify (x.cert.pubX, x.cert.pubY) (k.hello ++ helloPlain x.body) x.sigR x.sigS = true) ∧ (s.pair.st = .active) ∧ (s.pair.leaseRx = false)) ∧
    (∃ (m r q : Nat) (s : State) (k : Handshake) (e : Session), (engineOpen s = true) ∧ (((peerOf s m).bind (·.resp)) = some k) ∧ (k.ready = some e) ∧ (ecdsaVerify (k.pubX, k.pubY) k.h r q = true)) ∧
    (∃ (m r q : Nat) (s : State) (k : Handshake) (e : Session), (laneOpen s = true) ∧ (s.pair.isthmus.resp = some k) ∧ (k.ready = some e) ∧ (ecdsaVerify (k.pubX, k.pubY) k.h r q = true) ∧ (s.pair.st = .active) ∧ (s.pair.leaseRx = false)) ∧
    (∃ (m : Nat) (s : State), (knownPeer s m = true) ∧ (((peerAt s m).bind (·.hs)) = none) ∧ (canOpen (adoptArch (isIsthmus s m) s) m = true) ∧ ((ownHello (adoptArch (isIsthmus s m) s)).isSome = true)) ∧
    (∃ (m : Nat) (s : State) (p : Peer) (k : Handshake), (peerAt s m = some p) ∧ (p.hs = some k) ∧ (canOpen s m = true)) :=
  ⟨⟨{ replyHello with isthmus := true, cert := { replyHello.cert with member := 0 } }, laneState (onPair (fun p => { p with isthmus := { p.isthmus with hs := some aHandshake } }) replyState), p384G, aHandshake, by decide +kernel⟩,
    ⟨9, sigE, sigE, confirmState, confirmHs, aSession, by decide +kernel⟩,
    ⟨9, sigE, sigE, laneState (onPair (fun p => { p with isthmus := { p.isthmus with resp := some confirmHs } }) confirmState), confirmHs, aSession, by decide +kernel⟩,
    ⟨9, helloState, by decide +kernel⟩,
    ⟨9, { replyState with now := 500000000 }, { aPeer with session := none, hs := some aHandshake }, aHandshake, by decide +kernel⟩⟩

theorem wit_UrraufSessions_3 :
    (∃ (m : Nat) (s : State) (p : Peer) (e : Session), (peerAt s m = some p) ∧ (p.session = some e) ∧ (p.hs = none) ∧ (canOpen s m = true) ∧ (knownPeer s m = true) ∧ (canOpen (adoptArch (isIsthmus s m) s) m = true) ∧ ((ownHello (adoptArch (isIsthmus s m) s)).isSome = true)) ∧
    (∃ (m : Nat) (s : State) (p : Peer) (e : Session), (isIsthmus s m = false) ∧ (peerOf s m = some p) ∧ (p.retryAt = none) ∧ (p.session = some e) ∧ (engineOpen s = true) ∧ (hopOf s m = m)) ∧
    (∃ (m : Nat) (s : State) (p : Peer) (at_ : Nat), (peerAt s m = some p) ∧ (p.retryAt = some at_) ∧ (canOpen s m = true) ∧ (canOpen (adoptArch (isIsthmus s m) s) m = true) ∧ ((ownHello (adoptArch (isIsthmus s m) s)).isSome = true)) ∧
    (∃ (m : Nat) (s : State) (p : Peer) (e : Session), (isIsthmus s m = false) ∧ (isUp s 10 = true) ∧ (peerOf s m = some p) ∧ (p.session = some e)) ∧
    (∃ (m k : Nat) (s : State) (o : OutMsg), (outOf s m k = some o) ∧ (o.ack = true) ∧ (engineOpen s = true) ∧ (sessionUp s (hopOf s m) = true)) :=
  ⟨⟨9, { helloState with now := 86400000000000 }, aPeer, aSession, by decide +kernel⟩,
    ⟨9, { archState none with now := 1000000000 }, aPeer, aSession, by decide +kernel⟩,
    ⟨9, onPeer 9 (fun p => { p with retryAt := some 0 }) helloState, { aPeer with retryAt := some 0 }, 0, by decide +kernel⟩,
    ⟨9, { archState none with now := 5000000000 }, aPeer, aSession, by decide +kernel⟩,
    ⟨9, 4, { archState (some .plain) with now := 100000000 }, outMsg .plain, by decide +kernel⟩⟩

theorem wit_UrraufSessions_4 :
    (∃ (m k : Nat) (s : State) (o : OutMsg), (outOf s m k = some o) ∧ (o.ack = true) ∧ (engineOpen s = true)) ∧
    (∃ (s : State), (s.arch.join = 3) ∧ (engineOpen s = true) ∧ (isDesignated s = false) ∧ (sessionUp s (hopOf s s.arch.set.designated) = true)) :=
  ⟨⟨9, 4, { archState (some .plain) with now := 10000000000 }, outMsg .plain, by decide +kernel⟩,
    ⟨{ onArch (fun a => { a with join := 3, set := { a.set with designated := 9 } }) (archState none) with now := 60000000000 }, by decide +kernel⟩⟩

theorem wit_ArchipelagoCommands_1 :
    (∃ (d : Nat) (s : State) (x : Desc), (Ready 0x70 d s x) ∧ (checkFaults (archChecks x.bytes) = []) ∧ (isNoHub s (u16 x.bytes 16) = false) ∧ (remoteHosted s = true → isNoHub s (u16 x.bytes 18) = false) ∧ (¬ (u16 x.bytes 16 = s.arch.member ∧ s.arch.role = 1))) ∧
    (∃ (d : Nat) (s : State) (x : Desc), (Ready 0x70 d s x) ∧ (checkFaults (archChecks x.bytes) = []) ∧ (isNoHub s (u16 x.bytes 16) = true)) ∧
    (∃ (d : Nat) (s : State) (x : Desc) (data : Bytes), (Ready 0x71 d s x) ∧ (1 ≤ u16 x.bytes 16 ∧ u16 x.bytes 16 ≤ 4096) ∧ (u64 x.bytes 24 % 16 = 0) ∧ (x.input = some data) ∧ (isDesignated s = true) ∧ (((chunks 24 data).map entryOfBytes).all entryGood = true)) ∧
    (∃ (d : Nat) (s : State) (x : Desc), (Ready 0x71 d s x) ∧ (1 ≤ u16 x.bytes 16 ∧ u16 x.bytes 16 ≤ 4096) ∧ (u64 x.bytes 24 % 16 = 0) ∧ (isDesignated s = false)) ∧
    (∃ (d : Nat) (s : State) (x : Desc), (Ready 0x72 d s x) ∧ (u64 x.bytes 24 % 64 = 0)) :=
  ⟨⟨5, withCmd up 0x70 archFields, dsc 0x70 archFields, by decide +kernel⟩,
    ⟨5, onArch (fun a => { a with dir := [{ state := 1, role := 1, member := 9, address := 0, port := 0 }] }) (withCmd up 0x70 archFields), dsc 0x70 archFields, by decide +kernel⟩,
    ⟨5, onArch (fun a => { a with role := 2, set := { a.set with designated := a.member } }) (withCmd up 0x71 [(16, [1])] (some dirBytes)), dsc 0x71 [(16, [1])] (some dirBytes), dirBytes, by decide +kernel⟩,
    ⟨5, withCmd up 0x71 [(16, [1])] (some dirBytes), dsc 0x71 [(16, [1])] (some dirBytes), by decide +kernel⟩,
    ⟨5, withCmd up 0x72, dsc 0x72, by decide +kernel⟩⟩

theorem wit_ArchipelagoCommands_2 :
    (∃ (d : Nat) (s : State) (x : Desc), (Ready 0x73 d s x) ∧ (u16 x.bytes 16 ≤ 4095) ∧ (u8 x.bytes 18 ≤ 31) ∧ ((dirOf s (u16 x.bytes 16)).isSome = true) ∧ (s.arch.role = 2) ∧ (windowGood s (u16 x.bytes 16) (u64 x.bytes 24) (u64 x.bytes 32) = true)) ∧
    (∃ (d : Nat) (s : State) (x : Desc), (Ready 0x73 d s x) ∧ (u16 x.bytes 16 ≤ 4095) ∧ (u8 x.bytes 18 ≤ 31) ∧ (dirOf s (u16 x.bytes 16) = none)) ∧
    (∃ (d : Nat) (s : State) (x : Desc), (Ready 0x74 d s x) ∧ (u16 x.bytes 16 = s.arch.member ∧ s.arch.member ≤ 4095) ∧ (u8 x.bytes 18 = 2) ∧ (u32 x.bytes 20 = evtRingCons) ∧ (s.arch.role = 2) ∧ (bit (u8 x.bytes 19) 0 = false)) ∧
    (∃ (d : Nat) (s : State) (x : Desc), (Ready 0x74 d s x) ∧ (u16 x.bytes 16 = s.arch.member ∧ s.arch.member ≤ 4095) ∧ (u8 x.bytes 18 = 2) ∧ (u32 x.bytes 20 = evtRingCons) ∧ (s.arch.role = 2) ∧ (bit (u8 x.bytes 19) 0 = true)) ∧
    (∃ (d : Nat) (s : State) (x : Desc) (p : Peer), (Ready 0x74 d s x) ∧ (u16 x.bytes 16 ≠ s.arch.member ∧ u16 x.bytes 16 ≤ 4095) ∧ (u8 x.bytes 18 = 0 ∨ u8 x.bytes 18 = 2) ∧ ((dirOf s (u16 x.bytes 16)).isSome = true) ∧ (s.opt.cert.isSome = true) ∧ (sessionUp s (hopOf s (u16 x.bytes 16)) = true) ∧ (peerOf s (u16 x.bytes 16) = some p)) :=
  ⟨⟨5, hubState 0x73 [(16, [9]), (34, [2])], dsc 0x73 [(16, [9]), (34, [2])], by decide +kernel⟩,
    ⟨5, withCmd up 0x73 [(16, [9])], dsc 0x73 [(16, [9])], by decide +kernel⟩,
    ⟨5, hubState 0x74 [(18, [2]), (20, toLE 4 evtRingCons)], dsc 0x74 [(18, [2]), (20, toLE 4 evtRingCons)], by decide +kernel⟩,
    ⟨5, hubState 0x74 [(18, [2, 1]), (20, toLE 4 evtRingCons)], dsc 0x74 [(18, [2, 1]), (20, toLE 4 evtRingCons)], by decide +kernel⟩,
    ⟨5, hubState 0x74 [(16, [9]), (18, [2])], dsc 0x74 [(16, [9]), (18, [2])], aPeer, by decide +kernel⟩⟩

theorem wit_ArchipelagoCommands_3 :
    (∃ (d : Nat) (s : State) (x : Desc), (Ready 0x75 d s x) ∧ (s.arch.peers = [])) ∧
    (∃ (d : Nat) (s : State) (x : Desc) (p : Peer), (Ready 0x75 d s x) ∧ (remoteHosted s = false) ∧ (s.arch.peers = [p]) ∧ (p.session.isSome = true) ∧ (p.out = []) ∧ (hopOf s p.member = p.member)) ∧
    (∃ (d : Nat) (s : State) (x : Desc), (Ready 0x76 d s x) ∧ (u64 x.bytes 24 % 64 = 0)) :=
  ⟨⟨5, withCmd up 0x75, dsc 0x75, by decide +kernel⟩,
    ⟨5, onHost (fun h => { h with descs := [dsc 0x75] }) (archState none), dsc 0x75, aPeer, by decide +kernel⟩,
    ⟨5, withCmd up 0x76 [(16, [1])], dsc 0x76 [(16, [1])], by decide +kernel⟩⟩

theorem wit_LeaseAndTakeover_1 :
    (∃ (s : State), (s.pair.trained = false) ∧ (s.pair.cfg.isSome = true) ∧ (isUp s 11 = true) ∧ (6 ≤ s.rs.phase) ∧ ((ownHello (onPair (fun p => { p with trained := true }) s)).isSome = true)) ∧
    (∃ (s : State), (s.pair.trained = true)) ∧
    (∃ (s : State), (isthmusUp s = true) ∧ (s.pair.st = .active) ∧ (s.pair.leaseRx = false)) ∧
    (∃ (s : State) (g : PairCfg), (s.pair.cfg = some g) ∧ (holdsToken s = true) ∧ (isUp s 11 = true)) :=
  ⟨⟨onPair (fun p => { p with trained := false }) (laneState helloState), by decide +kernel⟩,
    ⟨pairState .active, by decide +kernel⟩,
    ⟨pairState .active, by decide +kernel⟩,
    ⟨pairState .active, pairCfg, by decide +kernel⟩⟩

theorem wit_LeaseAndTakeover_2 :
    (∃ (a b g q : Nat) (s : State), (isUp s 11 = true) ∧ (isthmusUp s = true) ∧ (s.pair.st = .standby)) ∧
    (∃ (a g : Nat) (s : State) (k : PairCfg) (n t0 l : Nat), (isUp s 11 = true) ∧ (isthmusUp s = true) ∧ (s.pair.cfg = some k) ∧ (s.pair.renews.find? (fun r => r.1 == a) = some (n, t0)) ∧ (holdsToken s = true) ∧ (s.pair.leaseAt = some l) ∧ (cyclesSince s l < leaseCyc k) ∧ (s.pair.owesRelease = false ∨ eligible g = false)) ∧
    (∃ (a g : Nat) (s : State) (k : PairCfg) (n t0 l : Nat), (isUp s 11 = true) ∧ (isthmusUp s = true) ∧ (s.pair.cfg = some k) ∧ (s.pair.renews.find? (fun r => r.1 == a) = some (n, t0)) ∧ (holdsToken s = true) ∧ (s.pair.leaseAt = some l) ∧ (cyclesSince s l < leaseCyc k) ∧ (s.pair.owesRelease = true) ∧ (eligible g = true)) ∧
    (∃ (s : State) (g : PairCfg) (t0 : Nat), (s.pair.cfg = some g) ∧ (s.pair.leaseAt = some t0) ∧ (holdsToken s = true)) :=
  ⟨⟨1, 100, 10, 0, pairState .standby, by decide +kernel⟩,
    ⟨1, 0x1FF, onPair (fun p => { p with renews := [(1, 0)], leaseAt := some 0, owesRelease := false }) (pairState .active), pairCfg, 1, 0, 0,
      by decide +kernel, by decide +kernel, by decide +kernel, by decide +kernel, by decide +kernel, by decide +kernel,
      Nat.lt_of_le_of_lt (Nat.le_of_eq (cyclesSince_now (by decide +kernel))) (by decide), by decide +kernel⟩,
    ⟨1, 0x1FF, onPair (fun p => { p with renews := [(1, 0)], leaseAt := some 0, owesRelease := true }) (pairState .active), pairCfg, 1, 0, 0,
      by decide +kernel, by decide +kernel, by decide +kernel, by decide +kernel, by decide +kernel, by decide +kernel,
      Nat.lt_of_le_of_lt (Nat.le_of_eq (cyclesSince_now (by decide +kernel))) (by decide), by decide +kernel, by decide +kernel⟩,
    ⟨{ onPair (fun p => { p with leaseAt := some 0 }) (pairState .active) with now := 10000000 }, pairCfg, 0, by decide +kernel⟩⟩

theorem wit_LeaseAndTakeover_3 :
    (∃ (s : State) (t0 b g : Nat), (s.pair.takeover = some (t0, b, g)) ∧ (s.pair.st = .standby) ∧ (s.pair.leaseRx = false) ∧ (isUp s 11 = true) ∧ (eligible (ownHealth s) = true) ∧ (t0 + cyclesNs b ≤ s.now ∧ s.pair.leaseRxAt + cyclesNs g ≤ s.now) ∧ (b ≤ cyclesSince s t0) ∧ (lowFor s g = true)) ∧
    (∃ (level : Bool) (s : State), (level ≠ s.pair.leaseRx)) ∧
    (∃ (q : Nat) (s : State), (isUp s 11 = true) ∧ (isthmusUp s = true) ∧ (s.pair.st = .standby) ∧ (s.pair.leaseRx = false) ∧ (eligible (ownHealth (onPair (fun p => { p with partnerSeq := q }) s)) = true)) ∧
    (∃ (q : Nat) (s : State), (isUp s 11 = true) ∧ (isthmusUp s = true) ∧ (s.pair.st = .standby) ∧ (eligible (ownHealth (onPair (fun p => { p with partnerSeq := q }) s)) = false)) :=
  ⟨⟨healthyState, 0, 0, 0, by decide +kernel, by decide +kernel, by decide +kernel, by decide +kernel, by decide +kernel,
      by rw [cyclesNs_zero]; decide +kernel, Nat.zero_le _, by unfold lowFor; rw [decide_eq_true (Nat.zero_le _)]; decide +kernel⟩,
    ⟨true, pairState .standby, by decide +kernel⟩,
    ⟨0, healthyState, by decide +kernel⟩,
    ⟨0, pairState .standby, by decide +kernel⟩⟩

theorem wit_PairJournalAndCommands_1 :
    (∃ (s : State) (g : JRec), (isUp s 11 = true) ∧ (isthmusUp s = true) ∧ (s.pair.st = .standby) ∧ (ledgerUp s = true) ∧ (g.seq = s.jr.next)) ∧
    (∃ (q : Nat) (s : State), (isUp s 11 = true) ∧ (isthmusUp s = true) ∧ (holdsToken s = true)) ∧
    (∃ (s : State) (g : PairCfg) (x : Nat × Nat) (r : List (Nat × Nat)), (s.pair.cfg = some g) ∧ (s.pair.sync = true) ∧ (s.pair.waitAcks = x :: r)) ∧
    (∃ (l : List Nat) (s : State), (isUp s 11 = true) ∧ (isthmusUp s = true) ∧ (s.pair.st = .standby)) ∧
    (∃ (q : Nat) (s : State), (isUp s 11 = true) ∧ (isthmusUp s = true) ∧ (holdsToken s = true) ∧ (s.fl.roots = [] ∨ ((allRecs s).head?.map (·.seq)).getD s.jr.next ≤ q)) :=
  ⟨⟨pairState .standby, { foldRec with seq := up.jr.next }, by decide +kernel⟩,
    ⟨5, pairState .active, by decide +kernel⟩,
    ⟨{ onPair (fun p => { p with sync := true, waitAcks := [(1, 0)] }) (pairState .active) with now := 100000000 }, pairCfg, (1, 0), [], by decide +kernel⟩,
    ⟨[1], pairState .standby, by decide +kernel⟩,
    ⟨0, onJr (fun j => { j with open_ := [foldRec] }) (pairState .active), by decide +kernel⟩⟩

theorem wit_PairJournalAndCommands_2 :
    (∃ (q : Nat) (s : State) (g : Root), (isUp s 11 = true) ∧ (isthmusUp s = true) ∧ (holdsToken s = true) ∧ (s.fl.roots.head? = some g) ∧ (q < ((allRecs s).head?.map (·.seq)).getD s.jr.next)) ∧
    (∃ (n j q : Nat) (d : Db) (s : State), (isUp s 11 = true) ∧ (isthmusUp s = true) ∧ (s.pair.st = .standby) ∧ (s.pair.catchup = true) ∧ (ledgerUp s = true)) ∧
    (∃ (d : Nat) (s : State) (x : Desc) (data : Bytes), (Ready 0x78 d s x) ∧ (u64 x.bytes 24 % 16 = 0) ∧ (x.input = some data) ∧ (pairFault data = none)) ∧
    (∃ (d : Nat) (s : State) (x : Desc) (data : Bytes) (o : Nat), (Ready 0x78 d s x) ∧ (u64 x.bytes 24 % 16 = 0) ∧ (x.input = some data) ∧ (pairFault data = some o)) ∧
    (∃ (d : Nat) (s : State) (x : Desc), (Ready 0x79 d s x) ∧ (s.pair.cfg.isSome = true) ∧ (holdsToken s = true) ∧ (eligible s.pair.partner = true) ∧ (bit s.pair.partner 7 = true)) :=
  ⟨⟨0, onFl (fun f => { f with roots := [aRoot] }) (pairState .active), aRoot, by decide +kernel⟩,
    ⟨1, 4, 0, Db.reset, onPair (fun p => { p with catchup := true }) (pairState .standby), by decide +kernel⟩,
    ⟨5, withCmd up 0x78 [] (some pairBytes), dsc 0x78 [] (some pairBytes), pairBytes, by decide +kernel⟩,
    ⟨5, withCmd up 0x78 [] (some (List.replicate 32 0)), dsc 0x78 [] (some (List.replicate 32 0)), List.replicate 32 0, 0, by decide +kernel⟩,
    ⟨5, onHost (fun h => { h with descs := [dsc 0x79] }) (onPair (fun p => { p with partner := 0x1FF }) (pairState .active)), dsc 0x79, by decide +kernel⟩⟩

theorem wit_PairJournalAndCommands_3 :
    (∃ (d : Nat) (s : State) (x : Desc), (Ready 0x79 d s x) ∧ (s.pair.cfg = none)) ∧
    (∃ (d : Nat) (s : State) (x : Desc), (Ready 0x7A d s x) ∧ (bit (u8 x.bytes 16) 0 = true) ∧ (s.pair.cfg.isSome = true) ∧ (s.pair.leaseRx = false) ∧ (holdsToken s = true)) ∧
    (∃ (d : Nat) (s : State) (x : Desc), (Ready 0x7A d s x) ∧ (bit (u8 x.bytes 16) 0 = true) ∧ (s.pair.cfg.isSome = true) ∧ (s.pair.leaseRx = false) ∧ (holdsToken s = false)) ∧
    (∃ (d : Nat) (s : State) (x : Desc), (Ready 0x7B d s x) ∧ (s.pair.cfg.isSome = true)) ∧
    (∃ (d : Nat) (s : State) (x : Desc), (Ready 0x7C d s x) ∧ (u64 x.bytes 24 % 64 = 0)) :=
  ⟨⟨5, withCmd up 0x79, dsc 0x79, by decide +kernel⟩,
    ⟨5, onHost (fun h => { h with descs := [dsc 0x7A [(16, [1])]] }) (pairState .active), dsc 0x7A [(16, [1])], by decide +kernel⟩,
    ⟨5, onHost (fun h => { h with descs := [dsc 0x7A [(16, [1])]] }) (pairState .standby), dsc 0x7A [(16, [1])], by decide +kernel⟩,
    ⟨5, onHost (fun h => { h with descs := [dsc 0x7B] }) (pairState .standby), dsc 0x7B, by decide +kernel⟩,
    ⟨5, withCmd up 0x7C [(16, [1])], dsc 0x7C [(16, [1])], by decide +kernel⟩⟩

theorem wit_KeyUpdates_1 :
    (∃ (d : Nat) (s : State) (x : Desc) (m : Bytes), (Ready 0x80 d s x) ∧ (u64 x.bytes 24 % 16 = 0) ∧ (160 ≤ u32 x.bytes 32 ∧ u32 x.bytes 32 ≤ 16264) ∧ (x.input = some m) ∧ (msgStatus s m = 0) ∧ (u8 m 4 = 1) ∧ (s.keys.st = 0)) ∧
    (∃ (d : Nat) (s : State) (x : Desc) (m : Bytes), (Ready 0x80 d s x) ∧ (u64 x.bytes 24 % 16 = 0) ∧ (160 ≤ u32 x.bytes 32 ∧ u32 x.bytes 32 ≤ 16264) ∧ (x.input = some m) ∧ (msgStatus s m = 0) ∧ (u8 m 4 = 1) ∧ (s.keys.st = 2) ∧ (ledgerUp s = true)) ∧
    (∃ (d : Nat) (s : State) (x : Desc) (m : Bytes), (Ready 0x80 d s x) ∧ (u64 x.bytes 24 % 16 = 0) ∧ (160 ≤ u32 x.bytes 32 ∧ u32 x.bytes 32 ≤ 16264) ∧ (x.input = some m) ∧ (msgStatus s m = 0) ∧ (u8 m 4 = 2)) :=
  ⟨⟨5, keyCmd 0 msgCommission, keyDsc msgCommission, msgCommission, by decide +kernel, by decide +kernel, by decide +kernel, by decide +kernel,
      status_of (by decide +kernel) (by decide +kernel) (by decide +kernel) (commission_signed _) (by decide +kernel), by decide +kernel, by decide +kernel⟩,
    ⟨5, keyCmd 2 msgCommission, keyDsc msgCommission, msgCommission, by decide +kernel, by decide +kernel, by decide +kernel, by decide +kernel,
      status_of (by decide +kernel) (by decide +kernel) (by decide +kernel) (commission_signed _) (by decide +kernel), by decide +kernel, by decide +kernel, by decide +kernel⟩,
    ⟨5, keyCmd 1 msgKeys, keyDsc msgKeys, msgKeys, by decide +kernel⟩⟩

theorem wit_KeyUpdates_2 :
    (∃ (d : Nat) (s : State) (x : Desc) (m : Bytes) (k : Nat), (Ready 0x80 d s x) ∧ (u64 x.bytes 24 % 16 = 0) ∧ (160 ≤ u32 x.bytes 32 ∧ u32 x.bytes 32 ≤ 16264) ∧ (x.input = some m) ∧ (msgStatus s m = 0) ∧ (u8 m 4 = 3) ∧ (deviceScalar s = some k) ∧ (holds (msgBody m) (spkiOf (ecPub k)) = false)) ∧
    (∃ (d : Nat) (s : State) (x : Desc) (m : Bytes), (Ready 0x80 d s x) ∧ (u64 x.bytes 24 % 16 = 0) ∧ (160 ≤ u32 x.bytes 32 ∧ u32 x.bytes 32 ≤ 16264) ∧ (x.input = some m) ∧ (msgStatus s m = 0) ∧ (u8 m 4 = 4)) ∧
    (∃ (d : Nat) (s : State) (x : Desc) (m : Bytes), (Ready 0x80 d s x) ∧ (u64 x.bytes 24 % 16 = 0) ∧ (160 ≤ u32 x.bytes 32 ∧ u32 x.bytes 32 ≤ 16264) ∧ (x.input = some m) ∧ (msgStatus s m ≠ 0)) :=
  ⟨⟨5, keyCmd 1 msgCert, keyDsc msgCert, msgCert, 25572284752623955877117234515841593915256085374065592801372663170745705039441227066327477829417112624045291067119936, by decide +kernel⟩,
    ⟨5, keyCmd 1 msgTamper, keyDsc msgTamper, msgTamper, by decide +kernel⟩,
    ⟨5, keyCmd 1 (List.replicate 160 0), keyDsc (List.replicate 160 0), List.replicate 160 0, by decide +kernel⟩⟩

theorem wit_KeyUpdates_3 :
    (∃ (d n st : Nat) (s : State) (m : KeyMsg) (e : KeyEntry), (s.keys.msgs.find? (fun m => m.desc == d) = some m) ∧ (m.entries[n]? = some e) ∧ (m.status.getD n none = none) ∧ (ledgerUp s = true) ∧ (isUp s 2 = true) ∧ (isUp s 9 = true) ∧ ((entryItemOf (ensureEntry d n e s) d n).any (flowTurn (ensureEntry d n e s)) = true) ∧ (st = entryStatus s e) ∧ (st ≠ 0) ∧ ((setAt m.status n (some st)).any (·.isNone) = true)) ∧
    (∃ (d n k : Nat) (s : State) (m : KeyMsg) (e : KeyEntry) (g : MEntry), (s.keys.msgs.find? (fun m => m.desc == d) = some m) ∧ (m.entries[n]? = some e) ∧ (m.status.getD n none = none) ∧ (ledgerUp s = true) ∧ (isUp s 2 = true) ∧ (isUp s 9 = true) ∧ ((entryItemOf (ensureEntry d n e s) d n).any (flowTurn (ensureEntry d n e s)) = true) ∧ (entryStatus s e = 0) ∧ (bit e.mode 2 = true) ∧ (entryById s e.id = some (k, g)) ∧ (isStandby s = false)) ∧
    (∃ (d n k : Nat) (s : State) (m : KeyMsg) (e : KeyEntry) (g : MEntry) (key : Bytes), (s.keys.msgs.find? (fun m => m.desc == d) = some m) ∧ (m.entries[n]? = some e) ∧ (m.status.getD n none = none) ∧ (ledgerUp s = true) ∧ (isUp s 2 = true) ∧ (isUp s 9 = true) ∧ ((entryItemOf (ensureEntry d n e s) d n).any (flowTurn (ensureEntry d n e s)) = true) ∧ (entryStatus s e = 0) ∧ (bit e.mode 1 = false ∧ bit e.mode 2 = false) ∧ (e.key = some key) ∧ (entryById s e.id = some (k, g)) ∧ (isStandby s = false)) :=
  ⟨⟨5, 0, 1, entryState, keyMsg, keyEntry, by decide +kernel⟩,
    ⟨5, 0, 3, onDb (fun d => { d with entries := [(3, ent)] }) (onKeys (fun k => { k with cache := [(3, [])], msgs := [{ keyMsg with entries := [{ keyEntry with mode := 4 }, keyEntry] }] }) entryState), { keyMsg with entries := [{ keyEntry with mode := 4 }, keyEntry] }, { keyEntry with mode := 4 }, ent, by decide +kernel⟩,
    ⟨5, 0, 3, onDb (fun d => { d with entries := [(3, ent)] }) (onKeys (fun k => { k with msgs := [{ keyMsg with entries := [setEntry, keyEntry] }] }) entryState), { keyMsg with entries := [setEntry, keyEntry] }, setEntry, ent, List.replicate 16 0, by decide +kernel⟩⟩

theorem wit_KeyCommands_1 :
    (∃ (s : State), (s.keys.killing = true) ∧ (s.pw.lastCommit = false)) ∧
    (∃ (n : Nat) (s : State), (isUp s 0 = true) ∧ (watched s n = true) ∧ (levelOf s.keys n = 1 ∨ levelOf s.keys n = 2) ∧ (bit s.keys.active n = false)) ∧
    (∃ (d : Nat) (s : State) (x : Desc), (Ready 0x81 d s x) ∧ (u64 x.bytes 24 % 64 = 0)) ∧
    (∃ (d : Nat) (s : State) (x : Desc) (k : Nat), (Ready 0x82 d s x) ∧ (u64 x.bytes 24 % 64 = 0) ∧ (s.keys.st ≤ 1) ∧ (deviceScalar s = some k)) ∧
    (∃ (d : Nat) (s : State) (x : Desc), (Ready 0x82 d s x) ∧ (u64 x.bytes 24 % 64 = 0) ∧ (1 < s.keys.st)) :=
  ⟨⟨onKeys (fun k => { k with killing := true, pendSources := 4 }) up, by decide +kernel⟩,
    ⟨4, onKeys (fun k => { k with live := some TamperCfg.reset }) up, by decide +kernel⟩,
    ⟨5, withCmd up 0x81, dsc 0x81, by decide +kernel⟩,
    ⟨5, onHost (fun h => { h with descs := [dsc 0x82] }) helloState, dsc 0x82, 25572284752623955877117234515841593915256085374065592801372663170745705039441227066327477829417112624045291067119936, by decide +kernel⟩,
    ⟨5, onKeys (fun k => { k with st := 2 }) (withCmd up 0x82), dsc 0x82, by decide +kernel⟩⟩

theorem wit_KeyCommands_2 :
    (∃ (d : Nat) (s : State) (x : Desc), (Ready 0x83 d s x)) ∧
    (∃ (v : BitVec 32) (s : State), (regOpen s 0 = true)) ∧
    (∃ (d : Nat) (s : State) (x : Desc), (Ready 0x84 d s x) ∧ (u64 x.bytes 24 % 64 = 0)) ∧
    (∃ (d : Nat) (s : State) (x : Desc) (b g : Bytes) (t0 : Nat) (p : Nat × Nat), (Ready 0x85 d s x) ∧ (x.input = some b) ∧ (s.keys.st = 1) ∧ (s.opt.debugAllowed = true) ∧ (s.keys.fails < 3) ∧ (s.keys.challenge = some (g, t0)) ∧ (s.opt.authority = some p) ∧ (s.now ≤ t0 + 60 * secNs) ∧ (ecdsaVerify p g (beNat (slice b 0 48)) (beNat (slice b 48 48)) = true)) ∧
    (∃ (d : Nat) (s : State) (x : Desc) (b g : Bytes) (t0 : Nat) (p : Nat × Nat), (Ready 0x85 d s x) ∧ (x.input = some b) ∧ (s.keys.st = 1) ∧ (s.opt.debugAllowed = true) ∧ (s.keys.fails < 3) ∧ (s.keys.challenge = some (g, t0)) ∧ (s.opt.authority = some p) ∧ (s.now ≤ t0 + 60 * secNs) ∧ (ecdsaVerify p g (beNat (slice b 0 48)) (beNat (slice b 48 48)) = false)) :=
  ⟨⟨5, onKeys (fun k => { k with latch := 7, active := 2 }) (withCmd up 0x83 [(16, [3])]), dsc 0x83 [(16, [3])], by decide +kernel⟩,
    ⟨3, onKeys (fun k => { k with latch := 7, active := 2 }) up, by decide +kernel⟩,
    ⟨5, withCmd up 0x84, dsc 0x84, by decide +kernel⟩,
    ⟨5, debugState [2], debugDsc, toBE 48 sigE ++ toBE 48 sigE, [2], 0, sigKey, by decide +kernel⟩,
    ⟨5, onHost (fun h => { h with descs := [dsc 0x85 [] (some [])] }) (debugState [2]), dsc 0x85 [] (some []), [], [2], 0, sigKey, by decide +kernel⟩⟩

theorem wit_KeyCommands_3 :
    (∃ (d : Nat) (s : State) (x : Desc), (Ready 0x86 d s x)) ∧
    (∃ (d : Nat) (s : State) (x : Desc), (Ready 0x87 d s x) ∧ (u64 x.bytes 24 % 64 = 0)) ∧
    (∃ (s : State) (g : Bytes) (t0 : Nat), (s.keys.challenge = some (g, t0))) :=
  ⟨⟨5, withCmd up 0x86, dsc 0x86, by decide +kernel⟩,
    ⟨5, withCmd up 0x87 [(16, [1])], dsc 0x87 [(16, [1])], by decide +kernel⟩,
    ⟨{ onKeys (fun k => { k with challenge := some ([], 0) }) up with now := 60000000000 }, [], 0, by decide +kernel⟩⟩

theorem wit_FlashOperations_1 :
    (∃ (s : State), (inPhase 4 s = true) ∧ (readyToRun s [3] = true)) ∧
    (∃ (s : State), (mayCheckpoint s = true)) ∧
    (∃ (s : State) (root : Root) (o : Option Nat), (isUp s 3 = true) ∧ (s.fl.readOnly = false) ∧ (s.fl.running = some (root, o)) ∧ (root.j ≤ s.jr.programmed)) ∧
    (∃ (d : Nat) (s : State) (root : Root) (x : Desc), (isUp s 3 = true) ∧ (s.fl.readOnly = false) ∧ (s.fl.running = some (root, some d)) ∧ (root.j ≤ s.jr.programmed) ∧ (descOf s d = some x) ∧ (x.stage = .waiting) ∧ (x.orphan = false)) :=
  ⟨⟨onRs (fun r => { r with starting := true, phase := 4 }) up, by decide +kernel⟩,
    ⟨onFl (fun f => { f with mount := 1 }) up, by decide +kernel⟩,
    ⟨cpState none, aCheckpoint, none, by decide +kernel⟩,
    ⟨5, cpState (some 5), aCheckpoint, { dsc 0x95 with stage := .waiting }, by decide +kernel⟩⟩

theorem wit_FlashOperations_2 :
    (∃ (stream : Nat) (s u : State) (p : Nat × Block), (stream < 3) ∧ (isUp s 3 = true) ∧ (s.fl.mount ≠ 0) ∧ (s.fl.readOnly = false) ∧ (u = (List.range 4).foldl (fun s k => openBlock stream k s) s) ∧ (pageDie u stream = some p) ∧ ((nextPage stream u).1 ≠ [])) ∧
    (∃ (die : Nat) (s : State) (b : Block), (isUp s 3 = true) ∧ (s.fl.readOnly = false) ∧ (s.fl.mount ≠ 0) ∧ (freeCount s die < 128) ∧ (victim s die = some b)) ∧
    (∃ (die block : Nat) (s : State) (b : Block), (isUp s 3 = true) ∧ (blockOf s die block = some b) ∧ (b.st = .open_)) ∧
    (∃ (die block : Nat) (s : State) (p : Nat × Nat), (isUp s 3 = true) ∧ ((s.fl.free.getD die []).find? (fun p => p.1 == block) = some p)) :=
  ⟨⟨1, flashState, flashState, (0, aBlock 0), by decide +kernel, by decide +kernel, by decide +kernel, by decide +kernel, rfl, by decide +kernel,
      by decide +kernel⟩,
    ⟨0, closedState, { aBlock 0 with st := .closed }, by decide +kernel, by decide +kernel, by decide +kernel,
      free_of (by decide +kernel) (by decide +kernel), by decide +kernel⟩,
    ⟨0, 20, flashState, aBlock 0, by decide +kernel⟩,
    ⟨0, 20, onFl (fun f => { f with free := [[(20, 1)], [], [], []] }) up, (20, 1), by decide +kernel⟩⟩

theorem wit_FlashOperations_3 :
    (∃ (die block : Nat) (s : State) (b : Block), (isUp s 3 = true) ∧ ((s.fl.free.getD die []).find? (fun p => p.1 == block) = none) ∧ (blockOf s die block = some b) ∧ (b.st = .deferred)) ∧
    (∃ (die : Nat) (s : State), (s.fl.deadDies.contains die = false)) ∧
    (∃ (y : Int) (s : State), (isUp s 3 = true)) ∧
    (∃ (s : State), (isUp s 3 = true) ∧ (170 ≤ s.fl.settled)) :=
  ⟨⟨0, 20, onFl (fun f => { f with blocks := [{ aBlock 0 with st := .deferred }] }) up, { aBlock 0 with st := .deferred }, by decide +kernel⟩,
    ⟨2, up, by decide +kernel⟩,
    ⟨-5, up, by decide +kernel⟩,
    ⟨onFl (fun f => { f with settled := 200 }) up, by decide +kernel⟩⟩

theorem wit_HostStoreCommands_1 :
    (∃ (d : Nat) (s : State) (x : Desc), (Ready 0x90 d s x) ∧ (u32 x.bytes 16 % 64 = 0) ∧ (u32 x.bytes 16 ≤ 16384) ∧ (s.fl.readOnly = false)) ∧
    (∃ (d : Nat) (s : State) (x : Desc), (Ready 0x90 d s x) ∧ (u32 x.bytes 16 % 64 ≠ 0 ∨ 16384 < u32 x.bytes 16)) ∧
    (∃ (d : Nat) (corrected : List Nat) (s : State) (x : Desc), (Ready 0x91 d s x) ∧ (inRange (u16 x.bytes 20) 1 256 = true) ∧ (u64 x.bytes 24 % 4096 = 0) ∧ (u32 x.bytes 16 + u16 x.bytes 20 ≤ s.fl.hostMiB * 256) ∧ (corrected.all (· ≤ 40) = true)) ∧
    (∃ (d : Nat) (corrected : List Nat) (s : State) (x : Desc), (Ready 0x91 d s x) ∧ (inRange (u16 x.bytes 20) 1 256 = true) ∧ (u64 x.bytes 24 % 4096 = 0) ∧ (s.fl.hostMiB * 256 < u32 x.bytes 16 + u16 x.bytes 20)) ∧
    (∃ (d : Nat) (s : State) (x : Desc), (Ready 0x92 d s x) ∧ (inRange (u16 x.bytes 20) 1 256 = true) ∧ (u64 x.bytes 24 % 4096 = 0) ∧ (s.fl.readOnly = false) ∧ (u32 x.bytes 16 + u16 x.bytes 20 ≤ s.fl.hostMiB * 256)) :=
  ⟨⟨5, withCmd up 0x90 [(16, [64])], dsc 0x90 [(16, [64])], by decide +kernel⟩,
    ⟨5, withCmd up 0x90 [(16, [65])], dsc 0x90 [(16, [65])], by decide +kernel⟩,
    ⟨5, [1, 2], onFl (fun f => { f with hostMiB := 64 }) (withCmd up 0x91 [(20, [1])]), dsc 0x91 [(20, [1])], by decide +kernel⟩,
    ⟨5, [], withCmd up 0x91 [(20, [1])], dsc 0x91 [(20, [1])], by decide +kernel⟩,
    ⟨5, onFl (fun f => { f with hostMiB := 64 }) (withCmd up 0x92 [(20, [1])] (some [])), dsc 0x92 [(20, [1])] (some []), by decide +kernel⟩⟩

theorem wit_HostStoreCommands_2 :
    (∃ (d : Nat) (s : State) (x : Desc), (Ready 0x93 d s x) ∧ (inRange (u32 x.bytes 20) 1 4194304 = true) ∧ (s.fl.readOnly = false) ∧ (u32 x.bytes 16 + u32 x.bytes 20 ≤ s.fl.hostMiB * 256)) ∧
    (∃ (d : Nat) (s : State) (x : Desc), (Ready 0x94 d s x) ∧ (u64 x.bytes 24 % 64 = 0)) ∧
    (∃ (d : Nat) (s : State) (x : Desc), (Ready 0x95 d s x) ∧ (s.fl.readOnly = false) ∧ (s.fl.running = none) ∧ (s.fl.mount ≠ 0)) ∧
    (∃ (d : Nat) (s : State) (x : Desc), (Ready 0x96 d s x) ∧ (u64 x.bytes 24 % 64 = 0)) :=
  ⟨⟨5, onFl (fun f => { f with hostMiB := 64 }) (withCmd up 0x93 [(20, [1])]), dsc 0x93 [(20, [1])], by decide +kernel⟩,
    ⟨5, withCmd up 0x94, dsc 0x94, by decide +kernel⟩,
    ⟨5, onFl (fun f => { f with mount := 1 }) (withCmd up 0x95), dsc 0x95, by decide +kernel⟩,
    ⟨5, withCmd up 0x96 [(16, [1])], dsc 0x96 [(16, [1])], by decide +kernel⟩⟩

theorem wit_ImageCommands_1 :
    (∃ (d : Nat) (s : State) (x : Desc) (m : Bytes) (n : Nat), (Ready 0xA0 d s x) ∧ (u64 x.bytes 24 % 64 = 0) ∧ (isUp s 2 = true) ∧ (x.input = some m) ∧ (headerStatus s m = 0) ∧ (s.fl.readOnly = false) ∧ (imgType m ≤ 7 ∧ imgType m ≤ s.img.types.length) ∧ (inactiveSlot s (imgType m) = some n) ∧ (s.img.act.any (fun a => a.type == imgType m) = false)) ∧
    (∃ (d : Nat) (s : State) (x : Desc) (m : Bytes) (k : Nat), (Ready 0xA0 d s x) ∧ (u64 x.bytes 24 % 64 = 0) ∧ (isUp s 2 = true) ∧ (x.input = some m) ∧ (headerStatus s m = 0) ∧ (s.fl.readOnly = false) ∧ (7 < imgType m) ∧ ((List.range 64).find? (fun k => (stagedOf (abandonStaged (imgType m) s) k).isNone) = some k) ∧ (stagingUsed (abandonStaged (imgType m) s) + imgLength m ≤ 382 * 1048576)) ∧
    (∃ (d : Nat) (s : State) (x : Desc) (m : Bytes), (Ready 0xA0 d s x) ∧ (u64 x.bytes 24 % 64 = 0) ∧ (isUp s 2 = true) ∧ (x.input = some m) ∧ (headerStatus s m ≠ 0)) ∧
    (∃ (d : Nat) (s : State) (x : Desc) (m : Bytes) (y : ImgSlot), (Ready 0xA1 d s x) ∧ (inRange (u32 x.bytes 20) 1 65536 = true) ∧ (u64 x.bytes 24 % 64 = 0) ∧ ((placeCheck x.bytes 32).1 = true) ∧ (isUp s 2 = true) ∧ (x.input = some m) ∧ (placeSlot s (imgPlace x.bytes 32) = some y) ∧ (placeRx s (imgPlace x.bytes 32) = true) ∧ (u32 x.bytes 16 = y.body.length) ∧ (y.body.length + m.length ≤ imgLength y.header)) :=
  ⟨⟨5, imgState imgHead, imgCmd imgHead, imgHead, 1, by decide +kernel⟩,
    ⟨5, imgState stageHead, imgCmd stageHead, stageHead, 0, by decide +kernel⟩,
    ⟨5, withCmd up 0xA0 [] (some []), dsc 0xA0 [] (some []), [], by decide +kernel⟩,
    ⟨5, rxState 0xA1 [(20, [1]), (32, [0, 3])] (some [7]) [], dsc 0xA1 [(20, [1]), (32, [0, 3])] (some [7]), [7], rxSlot [], by decide +kernel⟩⟩

theorem wit_ImageCommands_2 :
    (∃ (d : Nat) (s : State) (x : Desc) (y : ImgSlot), (Ready 0xA1 d s x) ∧ (inRange (u32 x.bytes 20) 1 65536 = true) ∧ (u64 x.bytes 24 % 64 = 0) ∧ ((placeCheck x.bytes 32).1 = true) ∧ (isUp s 2 = true) ∧ (placeSlot s (imgPlace x.bytes 32) = some y) ∧ (placeRx s (imgPlace x.bytes 32) = true) ∧ (u32 x.bytes 16 ≠ y.body.length)) ∧
    (∃ (d : Nat) (s : State) (x : Desc) (y : ImgSlot), (Ready 0xA2 d s x) ∧ ((placeCheck x.bytes 32).1 = true) ∧ (isUp s 2 = true) ∧ (placeSlot s (imgPlace x.bytes 32) = some y) ∧ (placeRx s (imgPlace x.bytes 32) = true) ∧ (y.body.length = imgLength y.header) ∧ (sha384 y.body = slice y.header 40 48) ∧ (imgPlace x.bytes 32 ≠ (false, 7))) ∧
    (∃ (d : Nat) (s : State) (x : Desc) (y : ImgSlot), (Ready 0xA2 d s x) ∧ (imgPlace x.bytes 32 = (false, 7)) ∧ (isUp s 2 = true) ∧ (placeSlot s (false, 7) = some y) ∧ (placeRx s (false, 7) = true) ∧ (y.body.length = imgLength y.header) ∧ (sha384 y.body = slice y.header 40 48)) ∧
    (∃ (d : Nat) (s : State) (x : Desc) (y : ImgSlot), (Ready 0xA2 d s x) ∧ ((placeCheck x.bytes 32).1 = true) ∧ (isUp s 2 = true) ∧ (placeSlot s (imgPlace x.bytes 32) = some y) ∧ (placeRx s (imgPlace x.bytes 32) = true) ∧ (y.body.length ≠ imgLength y.header ∨ sha384 y.body ≠ slice y.header 40 48)) :=
  ⟨⟨5, rxState 0xA1 [(16, [1]), (20, [1]), (32, [0, 3])] (some [7]) [], dsc 0xA1 [(16, [1]), (20, [1]), (32, [0, 3])] (some [7]), rxSlot [], by decide +kernel⟩,
    ⟨5, rxState 0xA2 [(32, [0, 3])] none [7], dsc 0xA2 [(32, [0, 3])], rxSlot [7], by decide +kernel⟩,
    ⟨5, rxState 0xA2 [(32, [0, 7])] none [7], dsc 0xA2 [(32, [0, 7])], rxSlot [7], by decide +kernel⟩,
    ⟨5, rxState 0xA2 [(32, [0, 3])] none [], dsc 0xA2 [(32, [0, 3])], rxSlot [], by decide +kernel⟩⟩

theorem wit_ImageCommands_3 :
    (∃ (d : Nat) (s : State) (x : Desc) (n : Nat) (y : ImgSlot), (Ready 0xA3 d s x) ∧ (inRange (u8 x.bytes 16) 1 5 = true) ∧ (u32 x.bytes 20 = 0 ∨ inRange (u32 x.bytes 20) 60 3600 = true) ∧ (s.img.act = none) ∧ (s.img.types.any (fun y => y.state == 1) = false) ∧ (inactiveSlot s (u8 x.bytes 16) = some n) ∧ (slotOf (typeOf s (u8 x.bytes 16)) n = some y) ∧ (y.complete = true)) ∧
    (∃ (d : Nat) (s : State) (x : Desc) (n : Nat) (y : ImgSlot), (Ready 0xA3 d s x) ∧ (u8 x.bytes 16 = 6) ∧ (u32 x.bytes 20 = 0 ∨ inRange (u32 x.bytes 20) 60 3600 = true) ∧ (s.img.act = none) ∧ (s.img.types.any (fun y => y.state == 1) = false) ∧ (inactiveSlot s 6 = some n) ∧ (slotOf (typeOf s 6) n = some y) ∧ (y.complete = true)) ∧
    (∃ (d : Nat) (s : State) (x : Desc), (Ready 0xA3 d s x) ∧ (inRange (u8 x.bytes 16) 1 6 = true) ∧ (u32 x.bytes 20 = 0 ∨ inRange (u32 x.bytes 20) 60 3600 = true) ∧ (s.img.act.isSome = true ∨ s.img.types.any (fun y => y.state == 1) = true)) ∧
    (∃ (s : State) (a : Activation) (x : Desc), (s.img.act = some a) ∧ (a.type = 1) ∧ (a.back = false) ∧ (isUp s 1 = true) ∧ (descOf s a.desc = some x) ∧ (x.stage = .waiting) ∧ (x.orphan = false) ∧ (0 < s.img.types.length)) :=
  ⟨⟨5, fullState [(16, [3])], dsc 0xA3 [(16, [3])], 1, { rxSlot [7] with complete := true }, by decide +kernel⟩,
    ⟨5, fullState [(16, [6])], dsc 0xA3 [(16, [6])], 1, { rxSlot [7] with complete := true }, by decide +kernel⟩,
    ⟨5, onImg (fun i => { i with act := some (anAct 3 0) }) (withCmd up 0xA3 [(16, [3])]), dsc 0xA3 [(16, [3])], by decide +kernel⟩,
    ⟨actState 1 0, anAct 1 0, { dsc 0xA3 with stage := .waiting }, by decide +kernel⟩⟩

theorem wit_ImageCommands_4 :
    (∃ (s : State) (a : Activation), (s.img.act = some a) ∧ (a.type = 2) ∧ (a.step < 5) ∧ (isUp s 9 = true) ∧ ((groupCores a.step).all (fun c => (s.sch.cores.getD c Core.reset).drained) = true)) ∧
    (∃ (s : State) (a : Activation), (s.img.act = some a) ∧ (a.type = 5) ∧ (a.step = 0) ∧ (a.back = false) ∧ (isUp s 6 = true) ∧ (s.cv.okA = true)) ∧
    (∃ (s : State) (a : Activation), (s.img.act = some a) ∧ (a.type = 3 ∨ a.type = 4) ∧ (a.step = 0) ∧ (isUp s (islandOf a.type) = true) ∧ (beaconPassed s a.type = true) ∧ (s.rs.episode = false)) ∧
    (∃ (s : State) (a : Activation) (x : Desc), (s.img.act = some a) ∧ (a.type = 3 ∨ a.type = 4) ∧ (a.step ≠ 0) ∧ (a.back = false) ∧ (isUp s (islandOf a.type) = true) ∧ (descOf s a.desc = some x) ∧ (x.stage = .waiting) ∧ (x.orphan = false) ∧ (a.type ≤ s.img.types.length)) :=
  ⟨⟨onSch (fun c => { c with cores := c.cores.map (fun k => { k with drained := true }) }) (actState 2 0), anAct 2 0, by decide +kernel⟩,
    ⟨onCv (fun c => { c with okA := true, okB := true }) (actState 5 0), anAct 5 0, by decide +kernel⟩,
    ⟨actState 3 0, anAct 3 0, by decide +kernel⟩,
    ⟨actState 4 1, anAct 4 1, { dsc 0xA3 with stage := .waiting }, by decide +kernel⟩⟩

theorem wit_ImageCommands_5 :
    (∃ (d : Nat) (s : State) (x : Desc), (Ready 0xA4 d s x) ∧ (inRange (u8 x.bytes 16) 1 5 = true) ∧ ((typeOf s (u8 x.bytes 16)).state = 1) ∧ (s.img.act = none)) ∧
    (∃ (d : Nat) (s : State) (x : Desc), (Ready 0xA4 d s x) ∧ (inRange (u8 x.bytes 16) 1 5 = true) ∧ ((typeOf s (u8 x.bytes 16)).state ≠ 1)) ∧
    (∃ (k : Nat) (s : State) (e : Nat), (inRange k 1 5 = true) ∧ ((typeOf s k).state = 1) ∧ ((typeOf s k).deadline = some e)) ∧
    (∃ (k : Nat) (s : State), (isUp s 1 = true) ∧ (inRange k 1 5 = true) ∧ ((typeOf s k).state = 1) ∧ (criterionMet s k = true)) :=
  ⟨⟨5, trialState (withCmd up 0xA4 [(16, [3])]), dsc 0xA4 [(16, [3])], by decide +kernel⟩,
    ⟨5, withCmd up 0xA4 [(16, [3])], dsc 0xA4 [(16, [3])], by decide +kernel⟩,
    ⟨3, trialState up, 9, by decide +kernel⟩,
    ⟨3, trialState up, by decide +kernel⟩⟩

theorem wit_ImageCommands_6 :
    (∃ (d : Nat) (s : State) (x : Desc), (Ready 0xA5 d s x) ∧ (u64 x.bytes 24 % 64 = 0)) :=
  ⟨5, withCmd up 0xA5, dsc 0xA5, by decide +kernel⟩

theorem wit_CampaignCommands_1 :
    (∃ (d : Nat) (s : State) (x : Desc) (y : ImgSlot), (Ready 0xAA d s x) ∧ (u8 x.bytes 16 < 64) ∧ (stagedOf s (u8 x.bytes 16) = some y) ∧ (s.img.campaigns.any (fun c => c.entry == u8 x.bytes 16 && !c.finished) = false)) ∧
    (∃ (d : Nat) (s : State) (x : Desc) (y : ImgSlot), (Ready 0xAA d s x) ∧ (u8 x.bytes 16 < 64) ∧ (stagedOf s (u8 x.bytes 16) = some y) ∧ (s.img.campaigns.any (fun c => c.entry == u8 x.bytes 16 && !c.finished) = true)) ∧
    (∃ (d : Nat) (s : State) (x : Desc) (y : ImgSlot), (Ready 0xA9 d s x) ∧ ((placeCheck x.bytes 16).1 = true) ∧ (u16 x.bytes 18 < 4096) ∧ (forwardImage s (imgPlace x.bytes 16) = some y) ∧ (sessionUp s (hopOf s (u16 x.bytes 18)) = true)) ∧
    (∃ (d : Nat) (s : State) (x : Desc) (y : ImgSlot) (m : Bytes) (l : List Target) (n : Nat), (Ready 0xA6 d s x) ∧ (u8 x.bytes 16 < 64) ∧ (u8 x.bytes 17 % 32 ≠ 0) ∧ (u8 x.bytes 18 ≤ 15) ∧ (u8 x.bytes 19 ≤ 64) ∧ (inRange (u32 x.bytes 32) 1 3072 = true) ∧ (isStandby s = false) ∧ (stagedOf s (u8 x.bytes 16) = some y) ∧ (y.complete = true) ∧ (x.input = some m) ∧ (l = targetsOf s (u8 x.bytes 17 % 32) (u16 y.header 6) m (u32 x.bytes 32)) ∧ (n = (l.filter (fun k => k.state == 1)).length) ∧ (n ≠ 0)) :=
  ⟨⟨5, stagedState (withCmd up 0xAA [(16, [2])]), dsc 0xAA [(16, [2])], stagedSlot, by decide +kernel⟩,
    ⟨5, campState aCampaign (withCmd up 0xAA [(16, [2])]), dsc 0xAA [(16, [2])], stagedSlot, by decide +kernel⟩,
    ⟨5, stagedState (onHost (fun h => { h with descs := [dsc 0xA9 [(16, [1, 2, 9])]] }) (archState none)), dsc 0xA9 [(16, [1, 2, 9])], stagedSlot, by decide +kernel⟩,
    ⟨5, startState, dsc 0xA6 startFields (some [3, 0, 0, 0]), stagedSlot, [3, 0, 0, 0], [aTarget], 1, by decide +kernel⟩⟩

theorem wit_CampaignCommands_2 :
    (∃ (d : Nat) (s : State) (x : Desc) (y : ImgSlot) (m : Bytes), (Ready 0xA6 d s x) ∧ (u8 x.bytes 16 < 64) ∧ (u8 x.bytes 17 % 32 ≠ 0) ∧ (u8 x.bytes 18 ≤ 15) ∧ (u8 x.bytes 19 ≤ 64) ∧ (inRange (u32 x.bytes 32) 1 3072 = true) ∧ (isStandby s = false) ∧ (stagedOf s (u8 x.bytes 16) = some y) ∧ (y.complete = true) ∧ (x.input = some m) ∧ ((targetsOf s (u8 x.bytes 17 % 32) (u16 y.header 6) m (u32 x.bytes 32)).all (fun k => k.state != 1) = true)) ∧
    (∃ (k : Nat) (s : State) (y : Campaign), (isUp s 1 = true) ∧ (campOf s k = some y) ∧ (y.applyAt = none) ∧ (campSends s y = true) ∧ (roundSent s y = true) ∧ ((openTargets y).all (·.heard) = true) ∧ (unionMissing s y ≠ []) ∧ (y.round < y.rounds)) ∧
    (∃ (k : Nat) (s : State) (y : Campaign), (isUp s 1 = true) ∧ (campOf s k = some y) ∧ (y.applyAt = none) ∧ (campSends s y = true) ∧ (roundSent s y = true) ∧ ((openTargets y).any (fun z => !z.heard && z.asked.isNone) = true)) ∧
    (∃ (k : Nat) (s : State) (y : Campaign), (isUp s 1 = true) ∧ (campOf s k = some y) ∧ (y.applyAt = none) ∧ (campSends s y = true) ∧ (roundSent s y = true) ∧ (y.targets.all (fun z => z.state != 1) = true)) :=
  ⟨⟨5, stagedState (withCmd up 0xA6 startFields (some [3, 0, 0, 0])), dsc 0xA6 startFields (some [3, 0, 0, 0]), stagedSlot, [3, 0, 0, 0], by decide +kernel⟩,
    ⟨1, campState { aCampaign with targets := [{ aTarget with answered := true, heard := true, missing := [0] }] } up, { aCampaign with targets := [{ aTarget with answered := true, heard := true, missing := [0] }] }, by decide +kernel⟩,
    ⟨1, campState { aCampaign with targets := [{ aTarget with answered := true }] } up, { aCampaign with targets := [{ aTarget with answered := true }] }, by decide +kernel⟩,
    ⟨1, campState { aCampaign with targets := [{ aTarget with state := 2 }] } up, { aCampaign with targets := [{ aTarget with state := 2 }] }, by decide +kernel⟩⟩

theorem wit_CampaignCommands_3 :
    (∃ (d : Nat) (s : State) (x : Desc) (y : Campaign), (Ready 0xA7 d s x) ∧ (u64 x.bytes 24 % 64 = 0 ∧ u32 x.bytes 32 % 4096 = 0 ∧ inRange (u32 x.bytes 32) 4096 65536 = true) ∧ (campOf s (u16 x.bytes 16) = some y)) ∧
    (∃ (d : Nat) (s : State) (x : Desc) (y : Campaign), (Ready 0xA8 d s x) ∧ (campOf s (u16 x.bytes 16) = some y)) ∧
    (∃ (d : Nat) (s : State) (x : Desc), (Ready 0xA8 d s x) ∧ (campOf s (u16 x.bytes 16) = none)) :=
  ⟨⟨5, campState aCampaign (withCmd up 0xA7 [(16, [1]), (32, [0, 16])]), dsc 0xA7 [(16, [1]), (32, [0, 16])], aCampaign, by decide +kernel⟩,
    ⟨5, campState aCampaign (withCmd up 0xA8 [(16, [1])]), dsc 0xA8 [(16, [1])], aCampaign, by decide +kernel⟩,
    ⟨5, withCmd up 0xA8, dsc 0xA8, by decide +kernel⟩⟩

theorem wit_RecorderCommands_1 :
    (∃ (ch : Nat) (y : Int) (s : State), (ch < 30 ∧ ch < s.tel.live.length) ∧ (isUp s 1 = true) ∧ (isUp s (recIsland ch) = true) ∧ (s.tel.frozen = false)) ∧
    (∃ (ch : Nat) (y : Int) (s : State), (ch < 30) ∧ (isUp s 1 = true) ∧ (isUp s (recIsland ch) = true) ∧ (s.tel.frozen = true)) ∧
    (∃ (s : State), (mayFlush s = true) ∧ (s.tel.lastHour < s.rs.opSeconds / 3600) ∧ (s.tel.frozen = false)) ∧
    (∃ (s : State), (mayFlush s = true) ∧ (s.tel.lastHour < s.rs.opSeconds / 3600) ∧ (s.tel.frozen = true)) ∧
    (∃ (s : State) (e : Nat), (s.tel.thawAt = some e) ∧ (s.tel.frozen = true)) :=
  ⟨⟨29, 5, up, by decide +kernel⟩,
    ⟨1, 5, onTel (fun r => { r with frozen := true }) up, by decide +kernel⟩,
    ⟨onRs (fun r => { r with opSeconds := 7300 }) up, by decide +kernel⟩,
    ⟨onTel (fun r => { r with frozen := true }) (onRs (fun r => { r with opSeconds := 7300 }) up), by decide +kernel⟩,
    ⟨onTel (fun r => { r with frozen := true, thawAt := some 40 }) up, 40, by decide +kernel⟩⟩

theorem wit_RecorderCommands_2 :
    (∃ (d : Nat) (s : State) (x : Desc), (Ready 0x44 d s x)) ∧
    (∃ (d : Nat) (s : State) (x : Desc), (Ready 0x45 d s x) ∧ (s.tel.frozen = true)) ∧
    (∃ (d : Nat) (s : State) (x : Desc), (Ready 0x46 d s x) ∧ (s.tel.frozen = false) ∧ (mayFlush s = true)) ∧
    (∃ (d : Nat) (s : State) (x : Desc), (Ready 0x47 d s x)) ∧
    (∃ (y : BitVec 32) (s : State), (regOpen s 1 = true)) :=
  ⟨⟨5, withCmd up 0x44, dsc 0x44, by decide +kernel⟩,
    ⟨5, onTel (fun r => { r with frozen := true }) (withCmd up 0x45), dsc 0x45, by decide +kernel⟩,
    ⟨5, withCmd up 0x46, dsc 0x46, by decide +kernel⟩,
    ⟨5, withCmd up 0x47, dsc 0x47, by decide +kernel⟩,
    ⟨0x18003, up, by decide +kernel⟩⟩

theorem wit_RecorderCommands_3 :
    (∃ (s : State), (isUp s 1 = true) ∧ (s.tel.loading = true)) ∧
    (∃ (s : State), (regOpen s 1 = true) ∧ (s.tel.autoInc = true)) ∧
    (∃ (y : BitVec 32) (s : State), (regOpen s 1 = true)) ∧
    (∃ (d : Nat) (s : State) (x : Desc) (n : Nat), (Ready 0x43 d s x) ∧ (inRange (u16 x.bytes 20) 1 512 = true) ∧ (u64 x.bytes 24 % 64 = 0) ∧ (n = min (u16 x.bytes 20) ((if bit (u8 x.bytes 16) 0 then 30 else 512) - u16 x.bytes 18))) :=
  ⟨⟨onTel (fun r => { r with loading := true }) up, by decide +kernel⟩,
    ⟨onTel (fun r => { r with autoInc := true }) up, by decide +kernel⟩,
    ⟨0x80000, up, by decide +kernel⟩,
    ⟨5, withCmd up 0x43 [(20, [3])], dsc 0x43 [(20, [3])], 3, by decide +kernel⟩⟩

theorem wit_ErrorsAndBackgroundWork_1 :
    (∃ (half : Nat) (v : BitVec 32) (s : State) (k : Nat), (isUp s 10 = true) ∧ (half < 2) ∧ (k < 64)) ∧
    (∃ (y : BitVec 32) (s : State), (regOpen s 1 = true)) ∧
    (∃ (d : Nat) (s : State) (x : Desc) (l : List (Nat × BitVec 64)), (Ready 0x48 d s x) ∧ (u64 x.bytes 24 % 64 = 0 ∧ u32 x.bytes 32 % 4096 = 0 ∧ inRange (u32 x.bytes 32) 4096 65536 = true) ∧ (l = (s.tel.eccLog.filter (fun e => u64 x.bytes 40 ≤ e.1)).take (u32 x.bytes 32 / 8))) ∧
    (∃ (d : Nat) (s : State) (x : Desc), (Ready 0x49 d s x) ∧ (u64 x.bytes 24 % 64 = 0)) ∧
    (∃ (d : Nat) (s : State) (x : Desc), (Ready 0x4A d s x) ∧ (inRange (u8 x.bytes 16) 1 13 = true) ∧ (u32 x.bytes 20 ≠ 0)) :=
  ⟨⟨1, 0xFFFFFFFF, onHost (fun h => { h with evt := 0xFFFFFFFFFFFFFFFF }) up, 63, by decide +kernel⟩,
    ⟨1, up, by decide +kernel⟩,
    ⟨5, withCmd up 0x48 [(32, [0, 16])], dsc 0x48 [(32, [0, 16])], [], by decide +kernel⟩,
    ⟨5, withCmd up 0x49, dsc 0x49, by decide +kernel⟩,
    ⟨5, withCmd up 0x4A [(16, [3]), (20, [9])], dsc 0x4A [(16, [3]), (20, [9])], by decide +kernel⟩⟩

theorem wit_ErrorsAndBackgroundWork_2 :
    (∃ (b : BgRun) (s : State) (k : Nat), (isUp s 1 = true) ∧ (isUp s 9 = true) ∧ (freeSlot s (poolOf false 1) = some k)) ∧
    (∃ (k : Nat) (s : State), (k < 11) ∧ (isUp s 1 = true) ∧ (bgPeriod s k ≠ 0)) ∧
    (∃ (s : State), (isUp s 3 = true)) ∧
    (∃ (d : Nat) (s : State) (x : Desc), (Ready 0x4B d s x) ∧ (u64 x.bytes 24 % 64 = 0)) :=
  ⟨⟨{ progress := [], scrubAddr := 0, scrubErr := .none, hitByWrite := false, die := 0, block := 0, corrected := [], lost := [], pass := true }, up, 60416, by decide +kernel⟩,
    ⟨7, up, by decide +kernel⟩,
    ⟨up, by decide +kernel⟩,
    ⟨5, withCmd up 0x4B, dsc 0x4B, by decide +kernel⟩⟩

theorem wit_RegisterCommands_1 :
    (∃ (s : State), (regOpen s 1 = true) ∧ (s.keys.debug = true)) ∧
    (∃ (bar off : Nat) (v : RegData) (s : State), (isUp s 10 = true) ∧ (bar ≠ 6) ∧ (accessOk bar off v.size = false)) ∧
    (∃ (k : Nat) (v : BitVec 32) (s : State), (isUp s 10 = true) ∧ (isUp s 0 = true) ∧ (k < 8)) ∧
    (∃ (v : BitVec 32) (s : State), (isUp s 10 = true) ∧ (isUp s 0 = true) ∧ (s.tel.locked = false)) :=
  ⟨⟨onKeys (fun k => { k with debug := true }) up, by decide +kernel⟩,
    ⟨0, 0x42, ⟨4, 1⟩, up, by decide +kernel⟩,
    ⟨7, 0xFFFFFFFF, up, by decide +kernel⟩,
    ⟨200, up, by decide +kernel⟩⟩

theorem wit_RegisterCommands_2 :
    (∃ (n : Nat) (v : BitVec 32) (s : State), (isUp s 10 = true) ∧ (n < 64) ∧ (s.host.evtVector.length = 64)) ∧
    (∃ (n : Nat) (v : BitVec 32) (s : State), (isUp s 10 = true) ∧ (n < 32) ∧ (s.host.rings.length = 32) ∧ ((ringOf s n).state = .disabled)) ∧
    (∃ (s : State), (isUp s 10 = true)) ∧
    (∃ (v : BitVec 32) (s : State), (isUp s 10 = true) ∧ (isUp s 1 = true)) :=
  ⟨⟨63, 0x85, up, by decide +kernel⟩,
    ⟨31, 0xFFFFFFFF, up, by decide +kernel⟩,
    ⟨up, by decide +kernel⟩,
    ⟨0x12345678, up, by decide +kernel⟩⟩

theorem wit_RegisterCommands_3 :
    (∃ (s : State), (isUp s 10 = true)) ∧
    (∃ (s : State), (isUp s 2 = true)) ∧
    (∃ (r q : Nat) (s : State) (g : Bytes) (t0 : Nat) (p : Nat × Nat), (isUp s 2 = true) ∧ (s.keys.st = 1) ∧ (s.opt.debugAllowed = true) ∧ (s.keys.fails < 3) ∧ (s.keys.challenge = some (g, t0)) ∧ (s.opt.authority = some p) ∧ (s.now ≤ t0 + 60 * secNs) ∧ (ecdsaVerify p g r q = true)) ∧
    (∃ (k : Nat) (s : State), (k ≠ 0x10 ∧ k ≠ 0x11 ∧ k ≠ 0x20)) :=
  ⟨⟨up, by decide +kernel⟩,
    ⟨up, by decide +kernel⟩,
    ⟨sigE, sigE, debugState [2], [2], 0, sigKey, by decide +kernel⟩,
    ⟨3, onKeys (fun k => { k with jtagIr := 0x10 }) up, by decide +kernel⟩⟩

end Sys2Proof.Machine.Tests
end

section
namespace Sys2Proof.Machine
open Sys2Proof

/-! ### A ready command whose operands are refused -/

/-- A ready command whose operands fail a check ends BAD_PARAM, at the least offset that is in fault (R115, R119). -/
theorem hostCmd_badParam {op d o : Nat} {s : State} {x : Desc} {checks : Bytes → List Check} {f : Desc → State → State} (h : Ready op d s x)
    (ho : (checkFaults (checks x.bytes)).min? = some o) : hostCmd op d checks f s = badParam d o s := by
  obtain ⟨hx, hstage, hop, -, hres, hnet, -⟩ := h
  simp [hostCmd, hx, hstage, hop, hnet, hres, ho]

theorem done_badParam {d o : Nat} {s : State} (h : Live d s) : Done d 2 o [] (badParam d o s) := done_finish h

theorem only_badParam {d o : Nat} {s : State} : OnlyParts [.rings, .descs, .dma] s (badParam d o s) := only_finish

/-- A single check that fails is the only fault. -/
theorem checkFaults_failed (o : Nat) : checkFaults [(false, o)] = [o] := rfl

/-- What METER_ENROL takes as an identity is neither of the two reserved ones (R12). -/
theorem inRange_reserved {v : Nat} (h : v = 0 ∨ v = 2 ^ 64 - 1) : inRange v 1 (2 ^ 64 - 2) = false := by
  rcases h with rfl | rfl <;> decide

/-- METER_ENROL of a reserved identity ends BAD_PARAM at byte 16 (R12). -/
theorem exec_meterEnrol_reserved {d : Nat} {s : State} {x : Desc} (h : Ready 0x10 d s x)
    (hid : u64 x.bytes 16 = 0 ∨ u64 x.bytes 16 = 2 ^ 64 - 1) : exec (.meterEnrol d) s = .next (badParam d 16 s) := by
  refine congrArg Host.Outcome.next (hostCmd_badParam h ?_)
  rw [inRange_reserved hid, checkFaults_failed]
  rfl

/-- Settles O11: the identity is checked before anything else is done, so the refusal changes what an ended descriptor changes. -/
theorem reservedIdentities : Obligations.ReservedIdentities := by
  unfold Obligations.ReservedIdentities
  intro d s x hready hid
  exact ⟨badParam d 16 s, exec_meterEnrol_reserved hready hid, done_badParam hready.live, only_badParam⟩

end Sys2Proof.Machine
end

section
namespace Sys2Proof.Machine
open Sys2Proof

/-! ### The time line at an instant (log 1) -/

theorem tickOp_now {n : Nat} {s : State} : (tickOp n s).now = s.now := by
  unfold tickOp
  split
  · dsimp only
    split <;> rfl
  · rfl

theorem ticks_now {n : Nat} {s : State} : (ticks n s).now = s.now + 8 * n := by
  unfold ticks
  dsimp only
  split
  · exact tickOp_now
  · exact tickOp_now

/-- The time line has reached the instant it passes to. -/
theorem le_passTo_now {t : Nat} {s : State} : t ≤ (passTo t s).now := by
  unfold passTo
  split
  · assumption
  · rw [ticks_now]
    omega

/-! ### Admission (R65 to R68): what its operations leave as it was -/

theorem only_settlePa {r : Nat} {s : State} : OnlyParts [.islands, .radio] s (settlePa r s) := by
  unfold settlePa
  exact only_ite (only_refl _ _) (only_trans (only_onRad (by decide)) (only_onIsl (by decide)))

theorem only_settleDrive {s : State} : OnlyParts [.islands, .plc] s (settleDrive s) := by
  unfold settleDrive
  exact only_ite (only_refl _ _) (only_trans (only_onPlc (by decide)) (only_onIsl (by decide)))

/-- Before a tick serves a request, the credits of the preparations that are over have gone back (R65, R70). -/
theorem only_settle {s : State} : OnlyParts [.islands, .radio, .plc] s (settleDrive (settlePa 1 (settlePa 0 s))) :=
  only_step only_settleDrive (by decide) (only_mono (only_trans only_settlePa only_settlePa) (by decide))

theorem only_onReq {q : AdmitReq} {f : AdmitReq → AdmitReq} {s : State} : OnlyParts [.power] s (onReq q f s) := only_onPw (by decide)

theorem only_admitLimit {q : AdmitReq} {byCap : Bool} {s : State} :
    OnlyParts [.power, .out, .events, .msix, .arch] s (admitLimit q byCap s) := by
  unfold admitLimit
  exact only_ite (only_refl _ _) (only_step only_raise (by decide) (only_mono only_onReq (by decide)))

theorem only_drainCore {core : Nat} {s : State} : OnlyParts [.sched] s (drainCore core s) := by
  unfold drainCore
  exact only_ite (only_onSch (by decide)) (only_refl _ _)

theorem only_drainGroup {g : Nat} {s : State} : OnlyParts [.sched] s (drainGroup g s) := only_foldl (fun _ _ => only_drainCore) _ s

theorem only_powerCores {n : Nat} {s : State} : OnlyParts [.sched] s (powerCores n s) := by
  unfold powerCores firstGroup
  have hpowered {f} : OnlyParts [.sched] s (onSch f s) := only_onSch (by decide)
  exact only_ite (only_trans hpowered only_drainGroup) hpowered

theorem only_useGrant {q : AdmitReq} {s : State} : OnlyParts [.sched, .plc, .radio] s (useGrant q s) := by
  unfold useGrant
  split
  · exact only_refl _ _
  · exact only_mono only_powerCores (by decide)
  · exact only_onRad (by decide)
  · exact only_onPlc (by decide)

/-! ### The request that a tick serves (R67) -/

theorem servedRequest_mem {s : State} {q : AdmitReq} (h : servedRequest s = some q) : q ∈ s.pw.waiting := by
  unfold servedRequest at h
  refine List.foldlRecOn (motive := fun b => ∀ q, b = some q → q ∈ s.pw.waiting) s.pw.waiting _ (fun _ hnone => absurd hnone.symm (Option.some_ne_none _)) ?_ q h
  intro b hb r hr q hq
  split at hq
  · exact Option.some.inj hq ▸ hr
  · split at hq
    · exact Option.some.inj hq ▸ hr
    · exact hb q hq

/-- One of the numbers that are added is no more than their sum. -/
theorem le_sum_map_of_mem {α : Type} {f : α → Nat} {l : List α} {a : α} (h : a ∈ l) : f a ≤ (l.map f).sum := by
  induction l with
  | nil => exact absurd h List.not_mem_nil
  | cons b r ih =>
    rw [List.map_cons, List.sum_cons]
    rcases List.mem_cons.mp h with rfl | hr
    · exact Nat.le_add_right _ _
    · exact Nat.le_trans (ih hr) (Nat.le_add_left _ _)

/-- What a waiting request holds is part of what all of them hold. -/
theorem reserved_le_reservedCredits {s : State} {q : AdmitReq} (h : q ∈ s.pw.waiting) : q.reserved ≤ reservedCredits s := le_sum_map_of_mem h

/-- The settling of ended preparations leaves the waiting requests alone, so the tick serves the same one. -/
theorem servedRequest_settle {s : State} : servedRequest (settleDrive (settlePa 1 (settlePa 0 s))) = servedRequest s := by
  unfold servedRequest
  rw [only_settle (s := s) .power (by decide)]

/-- A request that has one credit more. -/
def AdmitReq.oneMore (q : AdmitReq) : AdmitReq := { q with reserved := q.reserved + 1 }

/-- A request leaves the queue, and its island has the credits (R67). -/
def grantWhole (q : AdmitReq) (s : State) : State :=
  onIsl q.island (fun i => { i with grant := i.grant + q.credits, waited := i.waited + (s.now - q.since) })
    (onPw (fun p => { p with waiting := p.waiting.erase q }) s)

theorem only_grantWhole {q : AdmitReq} {s : State} : OnlyParts [.islands, .power] s (grantWhole q s) :=
  only_trans (only_onPw (by decide)) (only_onIsl (by decide))

/-- What one tick does to the request that it serves (R66 to R68): no credit is left, or one more is reserved, or the request is granted. -/
theorem admitTick_cases {s u : State} {q : AdmitReq} (hu : u = settleDrive (settlePa 1 (settlePa 0 s))) (hq : servedRequest s = some q) :
    (capNow u ≤ granted u + reservedCredits u ∧ admitTick s = admitLimit q true u) ∨
    (granted u + reservedCredits u < capNow u ∧ q.reserved + 1 < q.credits ∧
      admitTick s = if capNow u < granted u + q.credits then admitLimit q.oneMore true (onReq q (fun _ => q.oneMore) u)
        else onReq q (fun _ => q.oneMore) u) ∨
    (granted u + reservedCredits u < capNow u ∧ q.credits ≤ q.reserved + 1 ∧ admitTick s = useGrant q (grantWhole q u)) := by
  rw [← servedRequest_settle, ← hu] at hq
  unfold admitTick
  dsimp only
  rw [← hu, hq]
  dsimp only
  by_cases hcap : capNow u ≤ granted u + reservedCredits u
  · exact .inl ⟨hcap, if_pos hcap⟩
  · rw [if_neg hcap]
    by_cases hres : q.reserved + 1 < q.credits
    · rw [if_pos hres]
      exact .inr (.inl ⟨Nat.lt_of_not_le hcap, hres, rfl⟩)
    · rw [if_neg hres]
      exact .inr (.inr ⟨Nat.lt_of_not_le hcap, Nat.le_of_not_lt hres, rfl⟩)

/-! ### ADMIT_LIMIT (R68) -/

theorem raised_admitLimit {q : AdmitReq} {byCap : Bool} {s : State} (h : q.limited = false) : Raised 40 (admitLimit q byCap s) := by
  unfold admitLimit
  rw [h]
  exact raised_raise (by decide)

/-- A request that the cap cannot hold raises ADMIT_LIMIT, and no grant changes: only one credit may be missing for a grant, and that credit
is beyond the cap. -/
theorem admitTick_overCap {s u : State} {q : AdmitReq} (hu : u = settleDrive (settlePa 1 (settlePa 0 s))) (hq : servedRequest s = some q)
    (hlim : q.limited = false) (hcap : capNow u < granted u + q.credits) (hres : q.reserved < q.credits) :
    Raised 40 (admitTick s) ∧ (admitTick s).isl = u.isl := by
  rcases admitTick_cases hu hq with ⟨-, heq⟩ | ⟨-, -, heq⟩ | ⟨hroom, hlast, -⟩
  · rw [heq]
    exact ⟨raised_admitLimit hlim, only_admitLimit .islands (by decide)⟩
  · rw [heq, if_pos hcap]
    exact ⟨raised_admitLimit hlim, only_trans (only_mono only_onReq (by decide)) only_admitLimit .islands (by decide)⟩
  · have hmem : q ∈ u.pw.waiting := servedRequest_mem (hu ▸ servedRequest_settle.trans hq)
    have hheld := reserved_le_reservedCredits hmem
    omega

/-- A tick that finds room under the cap raises nothing. -/
theorem admitTick_evt_of_room {s u : State} {q : AdmitReq} (hu : u = settleDrive (settlePa 1 (settlePa 0 s))) (hq : servedRequest s = some q)
    (hroom : granted u + reservedCredits u < capNow u) (hcap : granted u + q.credits ≤ capNow u) :
    (admitTick s).host.evt = s.host.evt := by
  have hevt : u.host.evt = s.host.evt := hu ▸ (only_settle .events (by decide)).1
  rcases admitTick_cases hu hq with ⟨hfull, -⟩ | ⟨-, -, heq⟩ | ⟨-, -, heq⟩
  · exact absurd hroom (Nat.not_lt.mpr hfull)
  · rw [heq, if_neg (Nat.not_lt.mpr hcap), (only_onReq .events (by decide)).1, hevt]
  · rw [heq, (only_useGrant .events (by decide)).1, (only_grantWhole .events (by decide)).1, hevt]

/-- A request of the island that has not raised ADMIT_LIMIT raises it once it has waited for more than 1 ms. -/
theorem exec_admitWaitExpire_found {island : Nat} {s : State} {q : AdmitReq}
    (h : s.pw.waiting.find? (fun r => r.island == island && !r.limited) = some q) :
    exec (.admitWaitExpire island) s = .next (admitLimit q false (passTo (q.since + msNs + 1) s)) := by
  show execAdmitWaitExpire island s = _
  unfold execAdmitWaitExpire
  rw [h]

/-- Settles O14: a waiting request raises ADMIT_LIMIT at its instant, and the three outcomes of a tick are told apart by the cap. -/
theorem admitLimitRaised : Obligations.AdmitLimitRaised := by
  unfold Obligations.AdmitLimitRaised
  refine ⟨?waited, ?overCap, ?room⟩
  case waited =>
    intro island s q hfind
    have hlim : q.limited = false := by
      have hq := List.find?_some hfind
      simp only [Bool.and_eq_true, Bool.not_eq_true'] at hq
      exact hq.2
    refine ⟨_, exec_admitWaitExpire_found hfind, raised_admitLimit hlim, ?_⟩
    rw [only_admitLimit .now (by decide)]
    exact Nat.lt_of_succ_le le_passTo_now
  case overCap =>
    intro s u q hu hq hlim hcap hres
    obtain ⟨hraised, hisl⟩ := admitTick_overCap hu hq hlim hcap hres
    refine ⟨admitTick s, rfl, hraised, fun n => ?_⟩
    unfold islOf
    rw [hisl]
  case room =>
    intro s u q hu hq hroom hcap
    exact ⟨admitTick s, rfl, admitTick_evt_of_room hu hq hroom hcap⟩

/-! ### A tick after the end of a power-line frame (R65, R70) -/

/-- A request of one credit by PLC, the island of the line drivers. -/
def plcRequest : AdmitReq := { island := 12, cls := 4, credits := 1, reserved := 0, since := 0, limited := false, use := .plain }

/-- PLC runs and asks for that credit while it holds the 8 of a line driver, whose frame has ended. -/
def driverToSettle : State :=
  onPw (fun p => { p with waiting := [plcRequest] })
    (onPlc (fun p => { p with drive := 8, driveEnd := 0 }) (onIsl 12 (fun i => { i with phase := .running, grant := 8 }) State.reset))

/-- The tick grants the credit and takes back the 8 of the driver. -/
theorem grant_admitTick_driverToSettle : (islOf (admitTick driverToSettle) 12).grant = 1 := by decide

/-- Refutes O27: its clause on ADMIT_TICK adds the request's credits to the grant that the island had before the tick, but the tick has first
taken back the credits of line drivers whose frame has ended (R65); `driverToSettle` ends with a grant of 1, not of 8 + 1. -/
theorem not_supplyAndAdmission : ¬ Obligations.SupplyAndAdmission := by
  unfold Obligations.SupplyAndAdmission
  rintro ⟨-, -, -, -, hTick, -⟩
  obtain ⟨t, hexec, -, hgrant⟩ := hTick driverToSettle plcRequest (by decide) (by decide) (by decide) (by decide)
  obtain rfl : admitTick driverToSettle = t := Host.Outcome.next.inj hexec
  have hsum : (islOf (admitTick driverToSettle) 12).grant = 9 := hgrant
  rw [grant_admitTick_driverToSettle] at hsum
  exact absurd hsum (by decide)

end Sys2Proof.Machine
end

section
namespace Sys2Proof.Machine
open Sys2Proof

/-! ### What a reset ends (R18, R45, R462) -/

theorem only_cutMedia {s : State} : OnlyParts [.out] s (cutMedia s) :=
  only_trans (only_emit (by decide)) (only_trans (only_emit (by decide)) (only_emit (by decide)))

theorem only_abortRequests {l : Lane} {s : State} : OnlyParts [.out] s (abortRequests l s) := only_foldl (fun _ _ => only_emit (by decide)) _ s

theorem only_abandonReceiving {s : State} : OnlyParts [.images] s (abandonReceiving s) := by
  unfold abandonReceiving
  apply only_onImg <;> simp [Part.same]

theorem only_abandonTransfers {s : State} : OnlyParts [.images, .campaigns] s (abandonTransfers s) := by
  unfold abandonTransfers
  refine only_trans (only_mono only_abandonReceiving (by decide)) ?_
  apply only_onImg <;> simp [Part.same]

/-! ### Delivery and pending messages (R120, R122, R127) -/

theorem only_flushPending {s : State} : OnlyParts [.out, .msix] s (flushPending s) := by
  unfold flushPending
  refine only_ite (only_refl _ _) (only_foldl (fun s v => only_ite ?_ (only_refl _ _)) _ s)
  refine only_step only_sendMsix (by decide) ?_
  apply only_onHost <;> simp [Part.same]

/-- The log of readings that wait for the host. -/
theorem only_setLog {f : List LogEntry → List LogEntry} {s : State} : OnlyParts [.backlog] s (onFl (fun g => { g with log := f g.log }) s) := by
  apply only_onFl <;> simp [Part.same]

theorem only_redeliver {p : LogEntry → Bool} {s : State} : OnlyParts [.backlog] s (redeliver p s) := only_setLog

theorem only_setBufs {f : List DelBuf → List DelBuf} {s : State} : OnlyParts [.bufs] s (onHost (fun h => { h with bufs := f h.bufs }) s) := by
  apply only_onHost <;> simp [Part.same]

/-- What the placing of readings in delivery buffers may change. -/
abbrev deliveryParts : List Part := [.out, .rings, .descs, .dma, .bufs, .backlog, .arch]

theorem only_closeBuf {b : DelBuf} {s : State} : OnlyParts deliveryParts s (closeBuf b s) := by
  unfold closeBuf
  exact only_step only_finishOk (by decide) (only_step only_setBufs (by decide)
    (only_step only_setLog (by decide) (only_mono only_onRing (by decide))))

theorem only_placeGroup {b : DelBuf} {g : List LogEntry} {s : State} : OnlyParts deliveryParts s (placeGroup b g s) := by
  have hstored := only_foldl (l := [.out, .descs, .dma, .arch]) (fun (u : State) (p : LogEntry × Nat) =>
    only_hostStore (use := .deliver) (d := b.desc) (addr := b.addr + 64 * (b.records + p.2)) (data := recordBytes p.1) (s := u)) g.zipIdx s
  have hplaced {f : List DelBuf → List DelBuf} {k : List LogEntry → List LogEntry} {u : State} (h : OnlyParts [.out, .descs, .dma, .arch] s u) :
      OnlyParts deliveryParts s (onFl (fun h => { h with log := k h.log }) (onHost (fun h => { h with bufs := f h.bufs }) u)) :=
    only_step only_setLog (by decide) (only_step only_setBufs (by decide) (only_mono h (by decide)))
  unfold placeGroup
  exact only_ite (only_trans (hplaced hstored) only_closeBuf) (hplaced hstored)

theorem only_deliverOne {seq : Nat} {s : State} : OnlyParts deliveryParts s (deliverOne seq s) := by
  have hclosed (n need : Nat) : OnlyParts deliveryParts s (match s.host.bufs.find? (fun b => b.ring == n) with
      | some b => if b.len < 64 * b.records + need || bufExpired s b then closeBuf b s else s
      | none => s) := by
    split
    · exact only_ite only_closeBuf (only_refl _ _)
    · exact only_refl _ _
  unfold deliverOne
  split
  · exact only_refl _ _
  · refine only_ite (only_refl _ _) ?_
    split
    · exact only_refl _ _
    · dsimp only
      split
      · exact only_trans (hclosed _ _) only_placeGroup
      · exact hclosed _ _

theorem only_deliverAll {s : State} : OnlyParts deliveryParts s (deliverAll s) := by
  unfold deliverAll
  exact only_ite (only_foldl (fun _ _ => only_deliverOne) _ s) (only_refl _ _)

/-! ### The reset of an island on trial (R464, R465) -/

theorem only_startIslandReset {n src : Nat} {s : State} : OnlyParts [.out, .islands] s (startIslandReset n src s) := by
  unfold startIslandReset
  exact only_ite (only_refl _ _) (only_step (only_emit (l := [.out]) (by decide)) (by decide) (only_onIsl (by decide)))

theorem only_setAttempts {t v : Nat} {s : State} : OnlyParts [.episodes] s (setAttempts t v s) := by
  unfold setAttempts
  apply only_onRs <;> simp [Part.same]

theorem only_onType {t : Nat} {f : ImgType → ImgType} {s : State} : OnlyParts [.images] s (onType t f s) := by
  unfold onType
  apply only_onImg <;> simp [Part.same]

theorem only_setAct {f : Option Activation → Option Activation} {s : State} :
    OnlyParts [.images] s (onImg (fun i => { i with act := f i.act }) s) := by
  apply only_onImg <;> simp [Part.same]

/-- What the reset of an island on trial may change. -/
abbrev trialParts : List Part := [.out, .islands, .episodes, .rings, .descs, .dma, .events, .msix, .conv, .arch, .images, .health]

theorem only_loadCalc {a : Bool} {s : State} : OnlyParts [.out, .islands, .conv] s (loadCalc a s) := by
  unfold loadCalc setVersion
  exact only_step only_startIslandReset (by decide) (only_onCv (by decide))

theorem only_fallBack {t why : Nat} {s : State} : OnlyParts trialParts s (fallBack t why s) := by
  have hended : OnlyParts [.rings, .descs, .dma, .images] s (match s.img.act with
      | some a => onImg (fun i => { i with act := none }) (if a.back then s else finish a.desc 4 0 [] s)
      | none => s) := by
    split
    · exact only_step (only_setAct (f := fun _ => none)) (by decide) (only_ite (only_refl _ _) (only_mono only_finish (by decide)))
    · exact only_refl _ _
  have hraised (u : State) (f : ImgType → ImgType) (h : OnlyParts [.rings, .descs, .dma, .images] s u) :
      OnlyParts trialParts s
        (raise 57 (t + 256 * why) (setAttempts t 0 (onType t f u))) :=
    only_step only_raise (by decide) (only_step only_setAttempts (by decide) (only_step only_onType (by decide) (only_mono h (by decide))))
  unfold fallBack
  refine only_ite (only_refl _ _) (only_ite ?_ ?_)
  · exact only_step only_loadCalc (by decide) (only_step (only_setAct (f := fun _ => some _)) (by decide) (hraised _ _ hended))
  · exact only_step only_startIslandReset (by decide) (hraised _ _ hended)

/-- An island on trial that is reset counts its attempt, and after the third returns to its confirmed slot. -/
theorem only_noteTrialReset {n : Nat} {s : State} : OnlyParts trialParts s (noteTrialReset n s) := by
  have hcount : OnlyParts [.episodes] s (onRs (fun r => { r with attempts := modAt r.attempts n (· + 1) }) s) := by
    apply only_onRs <;> simp [Part.same]
  have hcrit (u : State) : OnlyParts [.health] u (onImg (fun i => { i with crit := setAt i.crit 3 0 }) u) := by
    apply only_onImg <;> simp [Part.same]
  unfold noteTrialReset
  split
  · exact only_ite (only_mono (only_setAct (f := fun a => a.map (fun a => { a with loaded := true }))) (by decide)) (only_refl _ _)
  · have hnoted (c : Prop) [Decidable c] (f : ImgType → ImgType) :
        OnlyParts trialParts s
          (if c then onType 2 f (onImg (fun i => { i with crit := setAt i.crit 3 0 })
            (onRs (fun r => { r with attempts := modAt r.attempts n (· + 1) }) s))
           else onRs (fun r => { r with attempts := modAt r.attempts n (· + 1) }) s) :=
      only_ite (only_step only_onType (by decide) (only_step (hcrit _) (by decide) (only_mono hcount (by decide))))
        (only_mono hcount (by decide))
    exact only_ite (only_step only_fallBack (by decide) (hnoted _ _)) (hnoted _ _)

end Sys2Proof.Machine
end

section
namespace Sys2Proof.Machine
open Sys2Proof

/-! ### What a reset source makes of RESET_CAUSE and of the episode (R80, R85, R86) -/

/-- What a reset of reach WARM ends before it clears anything: transmissions, the requests of HOLM's lanes, transfers of images, readings on
their way to the host. -/
def endUnderway (s : State) : State :=
  let s := if s.pair.gate then cutMedia s else s
  logBack (abandonTransfers ((s.fab.lanes.filter (fun l => l.src == 0)).foldl (fun s l => abortRequests l s) s))

theorem only_endUnderway {s : State} : OnlyParts [.out, .backlog, .images, .campaigns] s (endUnderway s) := by
  have hcut : OnlyParts [.out] s (if s.pair.gate then cutMedia s else s) := only_ite only_cutMedia (only_refl _ _)
  unfold endUnderway
  exact only_step only_redeliver (by decide) (only_step only_abandonTransfers (by decide)
    (only_mono (only_trans hcut (only_foldl (fun _ _ => only_abortRequests) _ _)) (by decide)))

/-- The open episode and RESET_CAUSE are HOLM's: reach WARM clears neither (R80). -/
theorem resets_warmClear {s : State} : Part.resets.same s (warmClear s) := only_endUnderway (s := s) .resets (by decide)

theorem countPower_resets {s : State} : (countPower s).rs.cause = s.rs.cause ∧ (countPower s).rs.episode = s.rs.episode := by
  unfold countPower
  split
  · exact ⟨rfl, rfl⟩
  · exact ⟨rfl, rfl⟩

theorem openEpisode_episode {s : State} : (openEpisode s).rs.episode = true := by
  unfold openEpisode
  split
  · assumption
  · rfl

theorem openEpisode_cause {s : State} : (openEpisode s).rs.cause = s.rs.cause := by
  unfold openEpisode
  split
  · rfl
  · show (warmClear s).rs.cause = s.rs.cause
    exact (resets_warmClear (s := s)).1

/-- What a source clears in an open episode beyond reach WARM: HOLM at HOLM_COLD, a power cycle more at COLD, the islands at both (R80). -/
def clearWider (src : RstSrc) (s : State) : State :=
  let s := if srcReach src = 0 then holmClear s else if srcReach src = 1 && 1 < s.rs.reach then countPower s else s
  if srcReach src < 2 then { s with isl := islandsOff false s.isl } else s

theorem clearWider_resets {src : RstSrc} {s : State} :
    (clearWider src s).rs.cause = s.rs.cause ∧ (clearWider src s).rs.episode = s.rs.episode := by
  have hislands (c : Prop) [Decidable c] (u : State) : (if c then { u with isl := islandsOff false u.isl } else u).rs = u.rs := by
    split
    · rfl
    · rfl
  unfold clearWider
  dsimp only
  rw [hislands]
  split
  · exact ⟨rfl, rfl⟩
  · split
    · exact countPower_resets
    · exact ⟨rfl, rfl⟩

/-- A source of reach WARM or wider opens an episode or joins the open one (R86). -/
theorem assertSource_episode {src : RstSrc} {s : State} : (assertSource src s).rs.episode = true := by
  show (clearWider src (openEpisode s)).rs.episode = true
  rw [clearWider_resets.2, openEpisode_episode]

/-- RESET_CAUSE after a source: that of `causeAfter` from what it was (R80, R85). -/
theorem assertSource_cause {src : RstSrc} {s : State} : (assertSource src s).rs.cause = causeAfter src s.rs.cause := by
  show causeAfter src (clearWider src (openEpisode s)).rs.cause = _
  rw [clearWider_resets.1, openEpisode_cause]

/-! ### RESET_N in HOLD (R60, R78) -/

/-- In HOLD, RESET_N is the wake source too: both are asserted. -/
theorem exec_resetNAssert_hold {s : State} (hup : isUp s 0 = true) (hhold : inHold s = true) :
    exec .resetNAssert s = .next (assertSource .holdWake (assertSource .resetN s)) := by
  show execResetNAssert s = _
  unfold execResetNAssert
  rw [hup, hhold]
  rfl

/-- RESET_CAUSE then has RESET_N, bit 6, and HOLD_WAKE, bit 9, added. -/
theorem cause_resetNAssert_hold {s : State} :
    (assertSource .holdWake (assertSource .resetN s)).rs.cause = setBit (setBit s.rs.cause 6) 9 := by
  rw [assertSource_cause, assertSource_cause]
  rfl

/-- A module in HOLD: HOLM runs, MAIN is off, no episode is open, and RESET_CAUSE is 1. -/
def moduleInHold : State := onPw (fun p => { p with st := .hold }) State.reset

/-- Refutes O28: its clause on RESET_N_ASSERT adds RESET_N alone to RESET_CAUSE wherever HOLM runs, but in HOLD the same contact is the wake
source of R60 and HOLD_WAKE is added with it: `moduleInHold` ends with 1 + 64 + 512, not with 1 + 64. -/
theorem not_resetSources : ¬ Obligations.ResetSources := by
  unfold Obligations.ResetSources
  rintro ⟨-, -, -, -, -, hResetN, -⟩
  obtain ⟨t, hexec, -, hcause, -⟩ := hResetN moduleInHold (by decide)
  rw [exec_resetNAssert_hold (by decide) (by decide)] at hexec
  obtain rfl := Host.Outcome.next.inj hexec
  rw [cause_resetNAssert_hold] at hcause
  exact absurd hcause (by decide)

end Sys2Proof.Machine
end

section
namespace Sys2Proof.Machine
open Sys2Proof

/-! ### The end of P2 (R89 to R95): what its steps leave of the start-up state -/

theorem only_startTimeBase {s : State} : OnlyParts [.free, .time, .coldFlags] s (startTimeBase s) := by
  have hservo (u : State) : OnlyParts [.coldFlags] u (onRs (fun r => { r with servoCold := true }) u) := by
    apply only_onRs <;> simp [Part.same]
  unfold startTimeBase
  exact only_step (hservo _) (by decide) (only_trans (only_useFree (by decide)) (only_onTm (by decide)))

theorem only_trainLink {s : State} : OnlyParts [.link] s (trainLink s) := by
  unfold trainLink
  refine only_ite ?_ (only_refl _ _)
  apply only_onHost <;> simp [Part.same]

theorem only_releaseHeld {n : Nat} {s : State} : OnlyParts trialParts s (releaseHeld n s) := by
  unfold releaseHeld
  exact only_ite (only_trans (only_onIsl (by decide)) only_noteTrialReset) (only_refl _ _)

theorem only_releasePcie {s : State} : OnlyParts (trialParts ++ [.free, .time, .coldFlags, .link]) s (releasePcie s) := by
  have hbase : OnlyParts (trialParts ++ [.free, .time, .coldFlags, .link]) s (startTimeBase (releaseHeld 10 s)) :=
    only_step only_startTimeBase (by decide) (only_mono only_releaseHeld (by decide))
  have hwake (u : State) : OnlyParts [.link] u (onHost (fun h => { h with wakeN := true }) u) := by
    apply only_onHost <;> simp [Part.same]
  unfold releasePcie
  exact only_ite (only_refl _ _) (only_step only_trainLink (by decide) (only_ite (only_step (hwake _) (by decide) hbase) hbase))

theorem loadStores_recovery {s : State} : (loadStores s).rs.recovery = s.rs.recovery := by
  unfold loadStores
  split
  · rfl
  · rfl

theorem leaveLocked_rs {s : State} : (leaveLocked s).rs = s.rs := by
  simp [leaveLocked, statTm, cntSat, apply_ite State.rs]

theorem applyTimeCfg_rs {c : TimeCfg} {s : State} : (applyTimeCfg c s).rs = s.rs := by
  simp [applyTimeCfg, leaveLocked_rs, apply_ite State.rs]

/-- The settings that come into force touch no reset register. -/
theorem startOpt_rs {s : State} : (startOpt s).rs = s.rs := by
  simp [startOpt, loadOpt, takeRadioSet, onRadio, applyTimeCfg_rs]

theorem recoveryPower_rs {s : State} : (recoveryPower s).rs = s.rs := by
  simp [recoveryPower, apply_ite State.rs]

theorem judgePending_rs {s : State} : (judgePending s).rs = s.rs := by
  simp [judgePending, apply_ite State.rs]

/-- P3 as the end of P2 begins it, with the settings of the option store in force and before NET's PCIe function is released. -/
def phase3Begun (s : State) : State :=
  nextPhase 3 (judgePending (recoveryPower (startOpt (loadStores (onRs (fun r => { r with recovery := !bit r.mode 2 }) s)))))

theorem phase3Begun_startUp {s : State} : (phase3Begun s).rs.phase = 3 ∧ (phase3Begun s).rs.recovery = !bit s.rs.mode 2 := by
  simp [phase3Begun, nextPhase, judgePending_rs, recoveryPower_rs, startOpt_rs, loadStores_recovery]

theorem exec_phaseP2End {s : State} (hin : inPhase 2 s = true) (hcape : isUp s 1 = true) (hready : readyToRun s [10] = true) :
    exec .phaseP2End s = .next (releasePcie (phase3Begun s)) := by
  show execPhaseP2End s = _
  unfold execPhaseP2End
  rw [hin, hcape, hready]
  simp only [Bool.not_true, Bool.or_self, Bool.false_eq_true, if_false, phase3Begun]

theorem releasePcie_phase3Begun_startUp {s : State} :
    (releasePcie (phase3Begun s)).rs.phase = 3 ∧ (releasePcie (phase3Begun s)).rs.recovery = !bit s.rs.mode 2 := by
  obtain ⟨hphase, -, -, -, -, -, -, hrecovery, -⟩ := only_releasePcie (s := phase3Begun s) .startUp (by decide)
  exact ⟨hphase.trans phase3Begun_startUp.1, hrecovery.trans phase3Begun_startUp.2⟩

/-! ### The other ends of phases (R69, R73, R89, R94) -/

theorem exec_phaseP0End {s : State} (hin : inPhase 0 s = true) (hvin : s.pw.vinOk = true) (hcool : s.rs.thermalHold = true → s.pw.tj ≤ 115) :
    exec .phaseP0End s = .next (onPw (fun p => { p with p1Switch := 0, p1Since := s.now })
      (onRs (fun r => { r with thermalHold := false }) (nextPhase 1 s))) := by
  have hhold : (s.rs.thermalHold && decide (115 < s.pw.tj)) = false := by
    cases h : s.rs.thermalHold with
    | false => rfl
    | true => exact decide_eq_false (Int.not_lt.mpr (hcool h))
  show execPhaseP0End s = _
  unfold execPhaseP0End
  rw [hin, hvin, hhold]
  rfl

theorem exec_phaseP1End {s : State} (hin : inPhase 1 s = true) (hswitch : s.pw.p1Switch = 13) (hheld : (islOf s 1).phase = .held) :
    exec .phaseP1End s = .next (noteTrialReset 1 (beginP2 s)) := by
  show execPhaseP1End s = _
  unfold execPhaseP1End
  rw [hin, hswitch, hheld]
  rfl

/-- P2 begins with MODE sampled, whatever the release of CAPE does to an image on trial. -/
theorem noteTrialReset_beginP2_startUp {s : State} :
    (noteTrialReset 1 (beginP2 s)).rs.phase = 2 ∧ (noteTrialReset 1 (beginP2 s)).rs.mode = s.rs.modeLevel := by
  obtain ⟨hphase, -, -, -, -, -, hmode, -⟩ := only_noteTrialReset (n := 1) (s := beginP2 s) .startUp (by decide)
  exact ⟨hphase, hmode⟩

/-- P3 ends in P4 where every MAC verifies. -/
theorem exec_phaseP3End {s : State} (hin : inPhase 3 s = true) (hready : readyToRun s [2] = true)
    (hmacs : macsGood (unlockReef (judgeLoss (executePending s))) = true) : ∃ t, exec .phaseP3End s = .next (nextPhase 4 t) := by
  show ∃ t, execPhaseP3End s = .next (nextPhase 4 t)
  unfold execPhaseP3End
  rw [hin, hready]
  dsimp only
  rw [hmacs, Bool.not_true, Bool.and_false]
  exact ⟨_, rfl⟩

/-! ### The entry into P7 (R61, R89, R90) -/

theorem only_drainBeyond {n : Nat} {s : State} :
    OnlyParts [.sched] s ((List.range 24).foldl (fun s c => if n ≤ c then drainCore c s else s) s) :=
  only_foldl (fun _ _ => only_ite only_drainCore (only_refl _ _)) _ _

theorem only_setCores {s : State} : OnlyParts [.power, .sched] s (setCores s) := by
  have hasked {u : State} {n k : Nat} (h : OnlyParts [.sched] s u) (f : Power → Power) : OnlyParts [.power, .sched] s
      (if !isUp (onPw f u) 9 || decide (n ≤ poweredCores (onPw f u)) then onPw f u
       else if k = 0 then powerCores n (onPw f u) else askCredits 9 4 k (.cores n) (onPw f u)) := by
    have hpw : OnlyParts [.power, .sched] s (onPw f u) := only_trans (only_mono h (by decide)) (only_onPw (by decide))
    exact only_ite hpw (only_ite (only_step only_powerCores (by decide) hpw) (only_trans hpw (only_onPw (by decide))))
  unfold setCores
  dsimp only
  refine only_ite (only_mono ?kept (by decide)) (hasked ?kept _)
  exact only_trans (only_onSch (by decide)) only_drainBeyond

theorem only_ownHello {b : Bytes} {eph rx : Nat} {s u : State} (h : ownHello s = some (b, eph, rx, u)) : OnlyParts [.free, .arch] s u := by
  unfold ownHello at h
  split at h
  · obtain ⟨rfl, rfl, rfl, rfl⟩ := Option.some.inj h
    exact only_trans (only_useFree (by decide)) (only_trans (only_onArch (by decide)) (only_useFree (by decide)))
  · exact absurd h.symm (Option.some_ne_none _)

theorem only_adoptArch {s : State} : OnlyParts [.arch] s (adoptArch false s) := only_onArch (by decide)

theorem only_startHandshake {m : Nat} {s : State} : OnlyParts [.out, .free, .arch] s (startHandshake false m s) := by
  unfold startHandshake
  refine only_ite ?_ (only_mono only_adoptArch (by decide))
  split
  · exact only_mono only_adoptArch (by decide)
  · next hhello =>
    exact only_step (only_emit (l := [.out]) (by decide)) (by decide) (only_step only_onPeer (by decide)
      (only_step (only_ownHello hhello) (by decide) (only_mono only_adoptArch (by decide))))

theorem only_openSessions {s : State} : OnlyParts [.out, .free, .arch] s (openSessions s) := by
  have hopened (u : State) (m : Nat) : OnlyParts [.out, .free, .arch] u (match peerOf u m with
      | some p => if p.session.isSome || p.hs.isSome then u else startHandshake false m u
      | none => startHandshake false m u) := by
    split
    · exact only_ite (only_refl _ _) only_startHandshake
    · exact only_startHandshake
  exact only_trans (only_mono only_adoptArch (by decide)) (only_foldl hopened _ _)

theorem only_startRestore {s : State} : OnlyParts [.plc, .radio] s (startRestore s) := by
  unfold startRestore
  exact only_trans (only_onPlc (by decide)) (only_onRad (by decide))

theorem only_raiseOwed {s : State} : OnlyParts [.tamper, .out, .events, .msix, .arch] s (raiseOwed s) := by
  have hpaid : OnlyParts [.tamper, .out, .events, .msix, .arch] s (onKeys (fun k => { k with oweKill := false, oweTamper := false }) s) := by
    apply only_onKeys <;> simp [Part.same]
  have hkill (c : Prop) [Decidable c] (n : Nat) : OnlyParts [.tamper, .out, .events, .msix, .arch] s
      (if c then raise 33 n (onKeys (fun k => { k with oweKill := false, oweTamper := false }) s)
       else onKeys (fun k => { k with oweKill := false, oweTamper := false }) s) :=
    only_ite (only_step only_raise (by decide) hpaid) hpaid
  unfold raiseOwed
  exact only_ite (only_step only_raise (by decide) (hkill _ _)) (hkill _ _)

theorem only_noteReady {s : State} : OnlyParts [.episodes] s (noteReady s) := by
  unfold noteReady
  apply only_onRs <;> simp [Part.same]

/-- What the entry into P7 may change, beside the phase. -/
abbrev serviceParts : List Part := deliveryParts ++ [.power, .background, .sched, .episodes, .plc, .radio, .tamper, .events, .msix, .free]

/-- P7 begins, and nothing done at its entry moves the start-up on. -/
theorem enterService_startUp {s : State} : (enterService s).rs.phase = 7 ∧ (enterService s).rs.starting = false := by
  have hcounts (u : State) : OnlyParts [.background] u (onTel (fun t => { t with bgSince := List.replicate 11 u.now }) u) := by
    apply only_onTel <;> simp [Part.same]
  have hsched (u : State) : OnlyParts [.power, .sched] u (setCores (onSch (fun c => { c with window := u.now }) u)) :=
    only_trans (only_onSch (by decide)) only_setCores
  have hready (u : State) : OnlyParts [.episodes] u (if u.rs.recovery then u else noteReady u) := only_ite (only_refl _ _) only_noteReady
  have hservice (u : State) : OnlyParts serviceParts u (deliverAll (openSessions (raiseOwed (startRestore u)))) :=
    only_step only_deliverAll (by decide) (only_step only_openSessions (by decide) (only_step only_raiseOwed (by decide)
      (only_mono only_startRestore (by decide))))
  have hentered : OnlyParts serviceParts (onRs (fun r => { r with phase := 7, phaseSince := s.now, starting := false }) s) (enterService s) := by
    unfold enterService
    exact only_trans (only_step (hready _) (by decide) (only_step (hsched _) (by decide) (only_step (hcounts _) (by decide)
      (only_onPw (by decide))))) (hservice _)
  obtain ⟨hphase, hstarting, -⟩ := hentered .startUp (by decide)
  exact ⟨hphase, hstarting⟩

/-- The islands of P6 are settled where each of them runs or is held. -/
theorem exec_phaseP6End {s : State} (hin : inPhase 6 s = true) (hnet : isUp s 10 = true) (hready : readyToRun s [11, 12, 13] = true) :
    ∃ t, exec .phaseP6End s = .next (enterService t) := by
  have hsettled : [11, 12, 13].all (fun n => (islOf s n).phase == .held || isUp s n || (islOf s n).phase == .failed) = true := by
    refine List.all_eq_true.mpr (fun n hn => ?_)
    rw [List.all_eq_true.mp hready n hn]
    rfl
  show ∃ t, execPhaseP6End s = .next (enterService t)
  unfold execPhaseP6End
  dsimp only
  simp only [hin, hnet, hsettled, Bool.not_true, Bool.or_self, Bool.false_eq_true, if_false]
  split
  · exact ⟨_, rfl⟩
  · exact ⟨_, rfl⟩

/-! ### The link and PERST_N (R90) -/

theorem exec_pcieLinkUp {speed width : Nat} {s : State} (hnet : isUp s 10 = true) (hown : remoteHosted s = false) (hperst : s.rs.perst = false)
    (hspeed : 1 ≤ speed ∧ speed ≤ 3) (hwidth : 1 ≤ width ∧ width ≤ 2) (hlink : s.host.link = .training ∨ s.host.link = .l1) :
    exec (.pcieLinkUp speed width) s =
      .next (deliverAll (flushPending (onHost (fun h => { h with link := .l0, speed := speed, width := width, l1Sub := 0, wakeN := false }) s))) := by
  have hranges : inRange speed 1 3 = true ∧ inRange width 1 2 = true := by simp [inRange, hspeed, hwidth]
  have htrained : (s.host.link == .training || s.host.link == .l1) = true := by
    rcases hlink with h | h
    · rw [h]
      rfl
    · rw [h]
      rfl
  show execPcieLinkUp speed width s = _
  unfold execPcieLinkUp
  rw [hnet, hown, hperst, hranges.1, hranges.2, htrained]
  rfl

theorem only_linkUp {s : State} : OnlyParts (deliveryParts ++ [.msix]) s (deliverAll (flushPending s)) :=
  only_step only_deliverAll (by decide) (only_mono only_flushPending (by decide))

theorem exec_perstNRelease {s : State} (hperst : s.rs.perst = true) (hnet : isUp s 10 = true) (hphase : 2 < s.rs.phase)
    (hown : remoteHosted s = false) :
    exec .perstNRelease s = .next (onHost (fun h => { h with link := .training }) (onRs (fun r => { r with perst := false }) s)) := by
  have hnet' : isUp (onRs (fun r => { r with perst := false }) s) 10 = true := hnet
  have hown' : remoteHosted (onRs (fun r => { r with perst := false }) s) = false := hown
  show execPerstNRelease s = _
  unfold execPerstNRelease
  rw [if_pos hperst]
  unfold trainLink
  rw [hnet', hown']
  simp [hphase]

/-! ### The lagoon (R98) -/

theorem lagoonChecks_pass {b : Bytes} (hoff : u16 b 16 % 16 = 0 ∧ 0x400 ≤ u16 b 16 ∧ u16 b 16 ≤ 0xFF0)
    (hlen : u16 b 18 % 16 = 0 ∧ 16 ≤ u16 b 18 ∧ u16 b 18 ≤ 0x1000 - u16 b 16) : checkFaults (lagoonChecks b) = [] := by
  simp [checkFaults, lagoonChecks, inRange, hoff, hlen]

theorem exec_lagoonRead {d : Nat} {s : State} {x : Desc} (h : Ready 0x41 d s x) (hc : checkFaults (lagoonChecks x.bytes) = []) :
    exec (.lagoonRead d) s =
      .next (finishOk d [] (putOut d (u64 x.bytes 24) (memReadAll s.rs.lagoon (u16 x.bytes 16) (u16 x.bytes 18)) s)) :=
  congrArg Host.Outcome.next (hostCmd_ready h hc)

theorem exec_lagoonWrite {d : Nat} {s : State} {x : Desc} (h : Ready 0x42 d s x) (hc : checkFaults (lagoonChecks x.bytes) = []) :
    exec (.lagoonWrite d) s =
      .next (finishOk d [] (onRs (fun r => { r with lagoon := memWriteAll r.lagoon (u16 x.bytes 16) (x.input.getD []) }) s)) :=
  congrArg Host.Outcome.next (hostCmd_ready h hc)

/-- A command that reads data for the host changes what carries them, and its descriptor. -/
theorem only_finishPut {d addr : Nat} {data result : Bytes} {s : State} :
    OnlyParts [.out, .rings, .descs, .dma, .arch] s (finishOk d result (putOut d addr data s)) :=
  only_step only_finishOk (by decide) (only_mono only_putOut (by decide))

/-- Data sent for a command stay sent when it ends. -/
theorem putOut_finishOk {d addr : Nat} {data result : Bytes} {s t : State} (h : PutOut s addr data t) :
    PutOut s addr data (finishOk d result t) := fun hown p hp => by
  rw [only_finishOk (d := d) (result := result) (s := t) .out (by decide)]
  exact h hown p hp

/-! ### The reset registers (R78, R84, R85) -/

theorem bit_eq_testBit {v k : Nat} : bit v k = v.testBit k := by
  rw [Nat.testBit_eq_decide_div_mod_eq]
  rfl

theorem bit_andNot {w v m k : Nat} (hk : k < w) : bit (andNot w v m) k = (bit v k && !bit m k) := by
  unfold andNot
  rw [bit_eq_testBit, bit_eq_testBit, bit_eq_testBit, BitVec.testBit_toNat, BitVec.getLsbD_and, BitVec.getLsbD_not, BitVec.getLsbD_ofNat,
    BitVec.getLsbD_ofNat, decide_eq_true hk, Bool.true_and, Bool.true_and, Bool.true_and]

theorem exec_sysResetWrite {v : BitVec 32} {s : State} (hnet : isUp s 10 = true) (hholm : isUp s 0 = true) :
    exec (.sysResetWrite v) s = .next (sysReset v.toNat s) := by
  show execSysResetWrite v s = _
  unfold execSysResetWrite regOpen
  rw [hnet, hholm]
  rfl

theorem exec_islCtrlReset {v : BitVec 32} {s : State} (hnet : isUp s 10 = true) (hholm : isUp s 0 = true) :
    exec (.islCtrlReset v) s = .next (islCtrl v.toNat s) := by
  show execIslCtrlReset v s = _
  unfold execIslCtrlReset regOpen
  rw [hnet, hholm]
  rfl

theorem exec_resetCauseClear {v : BitVec 32} {s : State} (hnet : isUp s 10 = true) (hholm : isUp s 0 = true) :
    exec (.resetCauseClear v) s = .next (clearCause v.toNat s) := by
  show execResetCauseClear v s = _
  unfold execResetCauseClear regOpen
  rw [hnet, hholm]
  rfl

/-- A write of ISL_CTRL.RESET for one island leaves the others, and the episode. -/
theorem hostReset_other {m n : Nat} {s : State} (h : n ≠ m) :
    islOf (hostReset m s) n = islOf s n ∧ (hostReset m s).rs = s.rs := by
  unfold hostReset
  split
  · exact ⟨rfl, rfl⟩
  · split
    · exact ⟨islOf_onIsl_ne h, rfl⟩
    · unfold startIslandReset
      split
      · exact ⟨rfl, rfl⟩
      · exact ⟨islOf_onIsl_ne h, rfl⟩

/-- One island of those that a write of ISL_CTRL.RESET names. -/
def resetNamed (v : Nat) (s : State) (n : Nat) : State := if n != 0 && bit v n then hostReset n s else s

theorem resetNamed_others {v n : Nat} {l : List Nat} {s : State} (h : n ∉ l) :
    islOf (l.foldl (resetNamed v) s) n = islOf s n ∧ (l.foldl (resetNamed v) s).rs = s.rs := by
  induction l generalizing s with
  | nil => exact ⟨rfl, rfl⟩
  | cons m r ih =>
    obtain ⟨hm, hr⟩ := List.ne_and_not_mem_of_not_mem_cons h
    obtain ⟨hisl, hrs⟩ := ih (s := resetNamed v s m) hr
    have hone : islOf (resetNamed v s m) n = islOf s n ∧ (resetNamed v s m).rs = s.rs := by
      unfold resetNamed
      split
      · exact hostReset_other hm
      · exact ⟨rfl, rfl⟩
    exact ⟨hisl.trans hone.1, hrs.trans hone.2⟩

theorem hostReset_running {n : Nat} {s : State} (h1 : 1 ≤ n) (h2 : n ≤ 13) (hup : isUp s n = true) (hep : s.rs.episode = false) :
    hostReset n s = startIslandReset n 0 s := by
  have hphase : (islOf s n).phase = .running := eq_of_beq hup
  have hallowed : (decide (n = 0) || decide (13 < n) || s.rs.episode) = false := by
    rw [hep, decide_eq_false (by omega), decide_eq_false (by omega)]
    rfl
  unfold hostReset
  rw [hallowed, hphase]
  rfl

/-- An island that runs, named in ISL_CTRL.RESET, is idled for its reset (R82, R84): the other islands named leave it alone. -/
theorem islCtrl_running {n v : Nat} {s : State} (h1 : 1 ≤ n) (h2 : n ≤ 13) (hup : isUp s n = true) (hep : s.rs.episode = false)
    (hbit : bit v n = true) : (islOf (islCtrl v s) n).phase = .idleReq ∧ (islOf (islCtrl v s) n).srcNo = 0 := by
  obtain ⟨l, r, hl⟩ := List.append_of_mem (List.mem_range.mpr (show n < 14 by omega))
  have hnodup : (l ++ n :: r).Nodup := hl ▸ List.nodup_range
  obtain ⟨-, hafter, hdisjoint⟩ := List.nodup_append.mp hnodup
  have hnl : n ∉ l := fun h => hdisjoint n h n List.mem_cons_self rfl
  have hnr : n ∉ r := (List.nodup_cons.mp hafter).1
  obtain ⟨hbefore, hrs⟩ := resetNamed_others (v := v) (s := s) hnl
  have hnamed (u : State) : resetNamed v u n = hostReset n u := by
    unfold resetNamed
    rw [if_pos (by simp [hbit]; omega)]
  have hup' : isUp (l.foldl (resetNamed v) s) n = true := by unfold isUp; rw [hbefore]; exact hup
  have hep' : (l.foldl (resetNamed v) s).rs.episode = false := by rw [hrs]; exact hep
  have hctrl : islOf (islCtrl v s) n = islOf (startIslandReset n 0 (l.foldl (resetNamed v) s)) n := by
    show islOf ((List.range 14).foldl (resetNamed v) s) n = _
    rw [hl, List.foldl_append, List.foldl_cons, (resetNamed_others hnr).1, hnamed, hostReset_running h1 h2 hup' hep']
  rw [hctrl]
  exact startIslandReset_running h1 h2 hup' hep'

/-- Settles O29: each command reaches the operation its rule names, and that operation's own lemma gives the results. -/
theorem startUpAndResetRegisters : Obligations.StartUpAndResetRegisters := by
  unfold Obligations.StartUpAndResetRegisters
  refine ⟨?p0, ?p1, ?p2, ?p3, ?p6, ?linkUp, ?perst, ?read, ?write, ?sysReset, ?islCtrl, ?clearCause⟩
  case p0 =>
    intro s hin hvin hcool
    exact ⟨_, exec_phaseP0End hin hvin hcool, rfl, rfl, rfl⟩
  case p1 =>
    intro s hin hswitch hheld
    exact ⟨_, exec_phaseP1End hin hswitch hheld, noteTrialReset_beginP2_startUp⟩
  case p2 =>
    intro s hin hcape hready
    exact ⟨_, exec_phaseP2End hin hcape hready, releasePcie_phase3Begun_startUp⟩
  case p3 =>
    intro s hin hready hmacs
    obtain ⟨t, hexec⟩ := exec_phaseP3End hin hready hmacs
    exact ⟨_, hexec, rfl⟩
  case p6 =>
    intro s hin hnet hready
    obtain ⟨t, hexec⟩ := exec_phaseP6End hin hnet hready
    exact ⟨_, hexec, enterService_startUp⟩
  case linkUp =>
    intro speed width s hnet hown hperst hspeed hwidth hlink
    obtain ⟨hl0, -, -, -, -, -, -, hs, hw, hwake⟩ := only_linkUp
      (s := onHost (fun h => { h with link := .l0, speed := speed, width := width, l1Sub := 0, wakeN := false }) s) .link (by decide)
    exact ⟨_, exec_pcieLinkUp hnet hown hperst hspeed hwidth hlink, hl0, hs, hw, hwake⟩
  case perst =>
    intro s hperst hnet hphase hown
    exact ⟨_, exec_perstNRelease hperst hnet hphase hown, rfl, rfl⟩
  case read =>
    intro d s x hready hoff hlen
    exact ⟨_, exec_lagoonRead hready (lagoonChecks_pass hoff hlen), done_finishOk (live_putOut hready.live),
      putOut_finishOk (putOut_putOut hready.notMute), (only_finishPut .lagoon (by decide)).1⟩
  case write =>
    intro d s x data hready hoff hlen hinput
    refine ⟨_, exec_lagoonWrite hready (lagoonChecks_pass hoff hlen), done_finishOk (hready.live.of_descs rfl), ?_⟩
    rw [hinput]
    exact (only_finishOk .lagoon (by decide)).1
  case sysReset =>
    intro v s hnet hholm
    refine ⟨_, exec_sysResetWrite hnet hholm, ?_⟩
    unfold sysReset
    by_cases hv : v = 0xC0DE
    · rw [if_pos hv, if_pos (by rw [hv]; rfl)]
      exact ⟨assertSource_episode, assertSource_cause⟩
    · have hother : ¬v.toNat = 0xC0DE := fun h => hv (BitVec.eq_of_toNat_eq h)
      rw [if_neg hv, if_neg hother]
  case islCtrl =>
    intro n v s hnet hholm hep hn hup hbit
    exact ⟨_, exec_islCtrlReset hnet hholm, islCtrl_running hn.1 hn.2 hup hep hbit⟩
  case clearCause =>
    intro v s k hnet hholm hk _
    refine ⟨_, exec_resetCauseClear hnet hholm, ?_⟩
    have hkept : bit (v.toNat % 1024) k = bit v.toNat k := by
      rw [bit_eq_testBit, bit_eq_testBit, show (1024 : Nat) = 2 ^ 10 from rfl, Nat.testBit_mod_two_pow, decide_eq_true hk, Bool.true_and]
    exact (bit_andNot hk).trans (by rw [hkept])

end Sys2Proof.Machine
end

section
namespace Sys2Proof.Machine
open Sys2Proof

/-! ### What a command that waits keeps -/

theorem Waits.of_only {d : Nat} {l : List Part} {s t : State} (h : Waits d s) (ho : OnlyParts l s t) (hd : Part.descs ∉ l) : Waits d t := by
  unfold Waits descOf at *
  rw [(ho .descs hd).1]
  exact h

theorem WaitsDurable.of_only {d : Nat} {result : Bytes} {l : List Part} {s t : State} (h : WaitsDurable d result s) (ho : OnlyParts l s t)
    (hd : Part.descs ∉ l) (hj : Part.journal ∉ l) : WaitsDurable d result t := by
  obtain ⟨hwaits, hmem⟩ := h
  refine ⟨hwaits.of_only ho hd, ?_⟩
  rw [(ho .journal hj).1]
  exact hmem

/-! ### Commands that name a meter, and commands that change state (R140, R141, R398) -/

theorem checkFaults_append (l m : List Check) : checkFaults (l ++ m) = checkFaults l ++ checkFaults m := by
  unfold checkFaults
  rw [List.filter_append, List.map_append]

theorem checkFaults_inRange {v lo hi o : Nat} (hlo : lo ≤ v) (hhi : v ≤ hi) : checkFaults [(inRange v lo hi, o)] = [] := by
  simp [checkFaults, inRange, hlo, hhi]

/-- A command runs its change where the module may append a record of its own. -/
theorem changing_applies {d : Nat} {f : State → State} {s : State} (hs : isStandby s = false) (ha : mayAppend s = true) :
    changing d f s = f s := by
  unfold changing unlessStandby
  rw [if_neg (by simp [hs])]
  exact if_pos ha

section
variable {op d : Nat} {retired : Bool} {unknown : Nat × Nat} {checks : Bytes → List Check} {f : Desc → Nat → MEntry → State → State}
  {s : State} {x : Desc}

/-- A ready command whose reference may be looked up does its work on the entry that the reference names, or ends as its class has it. -/
theorem meterCmd_ready (h : Ready op d s x) (hr : checkFaults (refChecks x.bytes) = []) (hc : checkFaults (checks x.bytes) = [])
    (htbl : s.tbl.state ≠ 2 ∨ bit (u8 x.bytes 27) 7 = true) :
    (∀ k e, refMeter retired s x.bytes = some (k, e) → meterCmd op d retired unknown checks f s = f x k e s) ∧
      (refMeter retired s x.bytes = none → meterCmd op d retired unknown checks f s = finish d unknown.1 unknown.2 [] s) := by
  have hall : checkFaults (refChecks x.bytes ++ checks x.bytes) = [] := by rw [checkFaults_append, hr, hc]; rfl
  have hlook : ¬(s.tbl.state = 2 && !bit (u8 x.bytes 27) 7) = true := by
    rcases htbl with htbl | htbl
    · simp [htbl]
    · simp [htbl]
  unfold meterCmd
  rw [hostCmd_ready h hall, if_neg hlook]
  constructor
  · intro k e hm
    rw [hm]
  · intro hm
    rw [hm]

end

/-! ### The entry that a reference names (R131, R134, R141) -/

/-- A value found by a property is the one that its number holds, if that has the property too. -/
theorem Tab.get_find_value {α : Type} {t : Tab α} {q : α → Bool} {k : Nat} {v w : α} (hv : t.find? (fun p => q p.2) = some (k, v))
    (hw : Tab.get t k = some w) (hq : q w = true) : w = v := by
  unfold Tab.get at hw
  induction t with
  | nil => exact absurd hv (by simp)
  | cons p r ih =>
    rw [List.find?_cons] at hv hw
    cases hp : q p.2 with
    | true =>
      rw [hp] at hv
      obtain rfl := Option.some.inj hv
      rw [beq_self_eq_true] at hw
      exact (Option.some.inj hw).symm
    | false =>
      rw [hp] at hv
      cases hk : p.1 == k with
      | true =>
        rw [hk] at hw
        obtain rfl := Option.some.inj hw
        exact absurd (hp.symm.trans hq) Bool.false_ne_true
      | false =>
        rw [hk] at hw
        exact ih hv hw

/-- An entry found by its identity is the one that its short index holds, if that has the identity too. -/
theorem entryById_unique {s : State} {id k : Nat} {e y : MEntry} (h : entryById s id = some (k, e)) (hy : Tab.get s.db.entries k = some y)
    (hid : y.id = e.id) : y = e := by
  have he : (e.id == id) = true := List.find?_some (p := fun p : Nat × MEntry => p.2.id == id) h
  exact Tab.get_find_value (q := fun z : MEntry => z.id == id) h hy (hid ▸ he)

theorem refMeter_unique {retired : Bool} {s : State} {b : Bytes} {k : Nat} {e y : MEntry} (h : refMeter retired s b = some (k, e))
    (hy : Tab.get s.db.entries k = some y) (hid : y.id = e.id) : y = e := by
  unfold refMeter at h
  replace h := (Option.filter_eq_some_iff.mp h).1
  split at h
  · obtain ⟨z, hz, hpair⟩ := Option.map_eq_some_iff.mp h
    obtain ⟨rfl, rfl⟩ := Prod.mk.inj hpair
    exact Option.some.inj (hy.symm.trans hz)
  · exact entryById_unique h hy hid

/-- A record that edits the entry of a reference, where `mergeEntry` takes all of the edit, is merged to the edited entry. -/
theorem mergeEntry_edit {retired : Bool} {s : State} {b : Bytes} {k : Nat} {e f : MEntry} (h : refMeter retired s b = some (k, e))
    (hid : f.id = e.id) (hedit : mergeEntry (some e) f = f) : mergeEntry (Tab.get s.db.entries k) f = f := by
  cases hy : Tab.get s.db.entries k with
  | none => rfl
  | some y =>
    by_cases hsame : y.id = e.id
    · rw [refMeter_unique h hy hsame, hedit]
    · exact if_neg (fun hc => hsame (hc.trans hid))

theorem mergeEntry_retire (e : MEntry) : mergeEntry (some e) { e with retired := true } = { e with retired := true } := by
  simp [mergeEntry]

/-! ### The record of a table change (R142, R143, R247) -/

theorem mirrorOut_frame {r : JRec} {s : State} : (mirrorOut r s).db = s.db ∧ (mirrorOut r s).jr = s.jr ∧ (mirrorOut r s).host = s.host := by
  unfold mirrorOut
  split
  · exact ⟨rfl, rfl, rfl⟩
  · exact ⟨rfl, rfl, rfl⟩

section
variable {kind k flags : Nat} {body : JBody} {s : State}

theorem descs_appendMeter : (appendMeter kind k flags body s).host.descs = s.host.descs := by
  unfold appendMeter append
  rw [mirrorOut_frame.2.2]

theorem entries_appendMeter_table {e : MEntry} :
    (appendMeter 2 k flags (.table e false) s).db.entries = Tab.set s.db.entries k (mergeEntry (Tab.get s.db.entries k) e) := by
  unfold appendMeter append
  rw [mirrorOut_frame.1]
  rfl

theorem entries_appendMeter_purge {e : MEntry} : (appendMeter 2 k flags (.table e true) s).db.entries = Tab.del s.db.entries k := by
  unfold appendMeter append
  rw [mirrorOut_frame.1]
  rfl

end

section
variable {d k bill : Nat} {e : MEntry} {result : Bytes} {s : State}

theorem waits_tableChange (h : Live d s) : WaitsDurable d result (tableChange d k e bill result s) :=
  waits_finishDurable (h.of_descs descs_appendMeter)

theorem get_tableChange : Tab.get (tableChange d k e bill result s).db.entries k = some (mergeEntry (Tab.get s.db.entries k) e) := by
  show Tab.get (appendMeter 2 k bill (.table e false) s).db.entries k = _
  rw [entries_appendMeter_table, Tab.get_set_self]

end

end Sys2Proof.Machine
end

section
namespace Sys2Proof.Machine
open Sys2Proof

/-! ### Work items (R151, R157): what the scheduler leaves as it was -/

theorem only_onItem {slot : Nat} {f : Item → Item} {s : State} : OnlyParts [.sched] s (onItem slot f s) := only_onSch (by decide)

theorem only_takeLock {i : Item} {s : State} : OnlyParts [.sched] s (takeLock i s) := by
  unfold takeLock
  exact only_ite (only_refl _ _) (only_trans (only_onSch (by decide)) only_onItem)

theorem only_passLock {e : Nat} {s : State} : OnlyParts [.sched] s (passLock e s) := by
  unfold passLock
  split
  · exact only_takeLock
  · exact only_refl _ _

theorem only_releaseLock {slot : Nat} {s : State} : OnlyParts [.sched] s (releaseLock slot s) := by
  unfold releaseLock
  split
  · exact only_refl _ _
  · exact only_ite (only_trans (only_trans (only_onSch (by decide)) only_onItem) only_passLock) (only_refl _ _)

theorem only_chargeRun {i : Item} {s : State} : OnlyParts [.sched] s (chargeRun i s) := by
  unfold chargeRun
  split
  · exact only_trans (only_onSch (by decide)) only_onItem
  · exact only_refl _ _

theorem only_leaveCore {i : Item} {s : State} : OnlyParts [.sched] s (leaveCore i s) := by
  unfold leaveCore
  split
  · exact only_trans only_chargeRun (only_onSch (l := [.sched]) (by decide))
  · exact only_refl _ _

theorem only_runOn {i : Item} {c : Nat} {s : State} : OnlyParts [.sched] s (runOn i c s) := only_trans only_takeLock only_onItem

theorem only_seizeCore {i : Item} {c : Nat} {s : State} : OnlyParts [.sched, .cntSat] s (seizeCore i c s) := by
  unfold seizeCore
  refine only_step only_runOn (by decide) ?_
  split
  · exact only_step only_statSch (by decide) (only_mono (only_trans only_chargeRun only_onItem) (by decide))
  · exact only_refl _ _

theorem only_preempt {s : State} : OnlyParts [.sched, .cntSat] s (preempt s) := by
  unfold preempt
  split
  · exact only_refl _ _
  · refine only_ite (only_refl _ _) ?_
    split
    · exact only_seizeCore
    · exact only_refl _ _

/-- What the creation of a work item may change. -/
abbrev itemParts : List Part := [.sched, .cntSat, .free]

theorem only_insertItem {k : Nat} {i : Item} {s : State} : OnlyParts itemParts s (insertItem k i s) := by
  have hmade (c : Sched → Sched) : OnlyParts itemParts s (useFree (onSch c s)) := only_trans (only_onSch (by decide)) (only_useFree (by decide))
  have hshare (j : Item) (t : State) : OnlyParts [.sched, .cntSat] t (noteShare j t) := only_ite only_statSch (only_refl _ _)
  unfold insertItem
  refine only_step only_preempt (by decide) (only_step (hshare _ _) (by decide) ?_)
  split
  · exact only_ite (only_step only_statSch (by decide) (hmade _)) (hmade _)
  · exact hmade _

theorem only_placeItem {w : ItemWait} {s t : State} (h : placeItem w s = some t) : OnlyParts itemParts s t := by
  unfold placeItem at h
  split at h
  · exact absurd h (by simp)
  · split at h
    · exact absurd h (by simp)
    · split at h
      · exact Option.some.inj h ▸ only_insertItem
      · split at h
        · exact absurd h (by simp)
        · exact Option.some.inj h ▸ only_trans (only_onSch (by decide)) only_insertItem

theorem only_createWith {w : ItemWait} {s : State} : OnlyParts itemParts s (createWith w s) := by
  unfold createWith
  cases h : placeItem w s with
  | none =>
    rw [Option.getD_none]
    exact only_onSch (by decide)
  | some t => exact only_placeItem h

theorem only_retryAsks {s : State} : OnlyParts itemParts s (retryAsks s) := by
  unfold retryAsks
  exact only_trans (only_onSch (by decide)) (only_foldl (fun _ _ => only_ite (only_refl _ _) only_createWith) _ _)

theorem only_depFault {c : Nat} {s : State} : OnlyParts [.sched, .cntSat] s (depFault c s) :=
  only_step only_statSch (by decide) (only_onSch (by decide))

theorem only_notifyCounter {failed : Bool} {c : Nat} {s : State} : OnlyParts itemParts s (notifyCounter failed c s) := by
  have hset (f : Sched → Sched) : OnlyParts itemParts s (onSch f s) := only_onSch (by decide)
  unfold notifyCounter
  split
  · exact only_mono only_depFault (by decide)
  · refine only_ite (only_mono only_depFault (by decide)) (only_ite ?_ (hset _))
    dsimp only
    split
    · exact only_trans (only_step only_preempt (by decide) (only_step only_onItem (by decide) (hset _))) only_retryAsks
    · exact only_trans (hset _) only_retryAsks

theorem only_notifyOpt {failed : Bool} {c : Option Nat} {s : State} : OnlyParts itemParts s (notifyOpt failed c s) := by
  cases c with
  | none => exact only_refl _ _
  | some c => exact only_notifyCounter

theorem only_endItem {slot : Nat} {failed : Bool} {s : State} : OnlyParts (.health :: itemParts) s (endItem slot failed s) := by
  have hcrit (t : State) : OnlyParts [.health] t (onImg (fun m => { m with crit := bumpAt m.crit 3 }) t) := by
    apply only_onImg <;> simp [Part.same]
  have hdrop (t : State) : OnlyParts [.sched] t (dropItem slot t) := only_onSch (by decide)
  unfold endItem
  split
  · exact only_refl _ _
  · refine only_step only_retryAsks (by decide) (only_step only_notifyOpt (by decide) (only_step only_notifyOpt (by decide)
      (only_step (hcrit _) (by decide) (only_step only_statSch (by decide) (only_step (hdrop _) (by decide)
        (only_step only_leaveCore (by decide) (only_step only_releaseLock (by decide) ?_)))))))
    exact only_ite (only_mono only_statSch (by decide)) (only_refl _ _)

theorem only_endOwn {d : Nat} {s : State} : OnlyParts (.health :: itemParts) s (endOwn d s) := by
  unfold endOwn
  split
  · exact only_ite (only_refl _ _) only_endItem
  · exact only_refl _ _

theorem only_ensureItem {x : Desc} {s : State} : OnlyParts itemParts s (ensureItem x s) := by
  unfold ensureItem
  exact only_ite (only_refl _ _) only_createWith

/-- A command whose work item has its turn does its work, and its item ends (R152, R157). -/
theorem asItem_inTurn {x : Desc} {f : State → State} {s : State} (h : InTurn s x) : asItem x f s = endOwn x.id (f (ensureItem x s)) := by
  unfold asItem
  dsimp only
  cases hi : itemOfDesc (ensureItem x s) x.id with
  | none =>
    rw [InTurn, hi] at h
    exact absurd h Bool.false_ne_true
  | some i =>
    rw [InTurn, hi] at h
    exact if_pos h

end Sys2Proof.Machine
end

section
namespace Sys2Proof.Machine
open Sys2Proof

/-! ### METER_ENROL (R142) -/

theorem slots_notePressure {s : State} : (notePressure s).tbl.slots = s.tbl.slots := by
  have hraised : (raise 52 (ovfUsed s) (onTbl (fun t => { t with pressureArmed := false }) s)).tbl.slots = s.tbl.slots := by
    rw [only_raise .table (by decide)]
    rfl
  unfold notePressure
  split
  · dsimp only
    split
    · exact hraised
    · exact hraised
  · rfl

theorem only_notePressure {s : State} : OnlyParts [.out, .events, .msix, .arch, .table] s (notePressure s) := by
  have hraised : OnlyParts [.out, .events, .msix, .arch, .table] s
      (raise 52 (ovfUsed s) (onTbl (fun t => { t with pressureArmed := false }) s)) :=
    only_step only_raise (by decide) (only_onTbl (by decide))
  unfold notePressure
  exact only_ite (only_ite (only_trans hraised (only_onTbl (by decide))) hraised) (only_refl _ _)

/-- The lowest free short index is held by no entry. -/
theorem get_lowestIndex {s : State} {k : Nat} (h : lowestIndex s = some k) : Tab.get s.db.entries k = none := by
  have hfree := List.find?_some h
  simp only [indexTaken, Bool.and_eq_true, Bool.not_eq_true', Bool.or_eq_false_iff, Option.isSome_eq_false_iff, Option.isNone_iff_eq_none] at hfree
  obtain ⟨-, hentry, -⟩ := hfree
  exact hentry

/-- A new meter that has a profile, asks for no short index, and finds a free one and a place: its entry and its slot. -/
theorem enrolNew_placed {d id k asked home p : Nat} {homeSelf : Bool} {m : MSlot} {s : State} (hp : trieLookup s.db.pfxs 0 id = some p)
    (hk : lowestIndex s = some k) (hm : placeFor s k id = some m) :
    ∃ bill, enrolNew d id true asked home homeSelf s =
      notePressure (onTbl (fun t => { t with slots := t.slots ++ [m] }) (tableChange d k (newEntry s id k home homeSelf) bill (toLE 4 k) s)) := by
  unfold enrolNew
  simp only [hp, Option.isNone_some, Bool.not_true, Bool.false_and, Bool.false_eq_true, if_false, if_true, hk, hm]
  exact ⟨_, rfl⟩

theorem enrolNew_noProfile {d id asked home : Nat} {auto homeSelf : Bool} {s : State} (hp : trieLookup s.db.pfxs 0 id = none) :
    enrolNew d id auto asked home homeSelf s = finish d 0x24 0 [] s := by
  unfold enrolNew
  rw [hp]
  rfl

/-- METER_ENROL of an identity that is not in the table, where nothing stands against it before its profile is looked up. -/
theorem exec_meterEnrol_new {d : Nat} {s : State} {x : Desc} (h : Ready 0x10 d s x) (hid : 1 ≤ u64 x.bytes 16 ∧ u64 x.bytes 16 ≤ 2 ^ 64 - 2)
    (hhome : bit (u8 x.bytes 29) 7 = true ∨ s.arch.role = 1) (hs : isStandby s = false) (ha : mayAppend s = true) (htbl : s.tbl.state ≠ 2)
    (hnew : entryById s (u64 x.bytes 16) = none) (hasked : bit (u8 x.bytes 27) 6 = true → u24 x.bytes 24 % 2 ^ 20 = 0) :
    exec (.meterEnrol d) s = .next (enrolNew d (u64 x.bytes 16) (bit (u8 x.bytes 27) 6) (u24 x.bytes 24 % 2 ^ 20) (u16 x.bytes 28 % 4096)
      (bit (u8 x.bytes 29) 7) s) := by
  have hallowed : ¬(!bit (u8 x.bytes 29) 7 && s.arch.role != 1) = true := by
    rcases hhome with hhome | hhome
    · simp [hhome]
    · simp [hhome]
  have hfree : ¬(bit (u8 x.bytes 27) 6 && u24 x.bytes 24 % 2 ^ 20 != 0) = true := by
    simpa using hasked
  refine congrArg Host.Outcome.next ((hostCmd_ready h (checkFaults_inRange hid.1 hid.2)).trans ?_)
  dsimp only
  rw [if_neg hallowed, changing_applies hs ha, if_neg htbl, hnew]
  exact if_neg hfree

/-! ### METER_REMOVE (R143) -/

theorem only_freePlace {k : Nat} {s : State} : OnlyParts [.table] s (freePlace k s) := by
  unfold freePlace
  split
  · exact only_refl _ _
  · have hfreed (f : TableSt → TableSt) : OnlyParts [.table] s (onTbl f s) := only_onTbl (by decide)
    exact only_ite (only_trans (hfreed _) (only_onTbl (by decide))) (hfreed _)

/-- What a purge does beside its record: the options forget the meter, its place is freed and its cached key is dropped. -/
def forgetMeter (k : Nat) (s : State) : State :=
  onKeys (fun q => { q with cache := q.cache.filter (fun c => c.1 != k) })
    (freePlace k (saveOpt (fun o => { o with custody := o.custody.filter (fun p => p.2 != k) }) s))

theorem only_forgetMeter {k : Nat} {s : State} : OnlyParts [.keyState, .table, .options, .optStore] s (forgetMeter k s) := by
  have hcache (t : State) : OnlyParts [.keyState] t (onKeys (fun q => { q with cache := q.cache.filter (fun c => c.1 != k) }) t) := by
    apply only_onKeys <;> simp [Part.same]
  unfold forgetMeter
  exact only_step (hcache _) (by decide) (only_step only_freePlace (by decide) (only_saveOpt (by decide) (by decide)))

/-- A meter's removal with PURGE, as its work item does it. -/
def purgeMeter (d k : Nat) (e : MEntry) (s : State) : State :=
  finishDurable d [] (forgetMeter k (whenDurable (.freeIndex k) (appendMeter 2 k 0 (.table e true) s)))

theorem waits_purgeMeter {d k : Nat} {e : MEntry} {s : State} (h : Live d s) : Waits d (purgeMeter d k e s) := by
  have hlive : Live d (whenDurable (.freeIndex k) (appendMeter 2 k 0 (.table e true) s)) := h.of_descs descs_appendMeter
  exact (waits_finishDurable (hlive.of_only only_forgetMeter (by decide))).1

theorem jr_finishDurable {d : Nat} {result : Bytes} {s : State} :
    (finishDurable d result s).jr = { s.jr with waits := s.jr.waits ++ [(s.jr.next - 1, .complete d 0 0 result)] } := rfl

theorem db_finishDurable {d : Nat} {result : Bytes} {s : State} : (finishDurable d result s).db = s.db := rfl

theorem freeIndex_purgeMeter {d k : Nat} {e : MEntry} {s : State} :
    ((purgeMeter d k e s).jr.next - 1, DurAct.freeIndex k) ∈ (purgeMeter d k e s).jr.waits := by
  have hjr : (forgetMeter k (whenDurable (.freeIndex k) (appendMeter 2 k 0 (.table e true) s))).jr =
      (whenDurable (.freeIndex k) (appendMeter 2 k 0 (.table e true) s)).jr := (only_forgetMeter .journal (by decide)).1
  rw [purgeMeter, jr_finishDurable, hjr]
  exact List.mem_append_left _ (List.mem_append_right _ (List.mem_singleton.mpr rfl))

theorem entries_purgeMeter {d k : Nat} {e : MEntry} {s : State} : (purgeMeter d k e s).db.entries = Tab.del s.db.entries k := by
  have hforgot : (forgetMeter k (whenDurable (.freeIndex k) (appendMeter 2 k 0 (.table e true) s))).db.entries =
      (appendMeter 2 k 0 (.table e true) s).db.entries := (only_forgetMeter .meters (by decide)).1
  exact hforgot.trans entries_appendMeter_purge

/-- METER_REMOVE of a meter whose flow has come to its item: what it does, and its item ends. -/
theorem exec_meterRemove {d k : Nat} {e : MEntry} {s : State} {x : Desc} (h : Ready 0x11 d s x) (hr : checkFaults (refChecks x.bytes) = [])
    (htbl : s.tbl.state ≠ 2) (hm : refMeter true s x.bytes = some (k, e)) (hs : isStandby s = false) (ha : mayAppend s = true)
    (hturn : InTurn s x) (hkept : bit (u8 x.bytes 28) 0 = false → e.retired = false) :
    exec (.meterRemove d) s = .next (endOwn d (
      if bit (u8 x.bytes 28) 0 then purgeMeter d k e (ensureItem x s)
      else tableChange d k { e with retired := true } 0 [] (ensureItem x s))) := by
  refine congrArg Host.Outcome.next (((meterCmd_ready h hr rfl (.inl htbl)).1 k e hm).trans ?_)
  rw [changing_applies hs ha, asItem_inTurn hturn, descOf_id h.1]
  cases hpurge : bit (u8 x.bytes 28) 0 with
  | false => simp [hkept hpurge]
  | true => rfl

/-! ### ROUTE_PIN (R141) -/

/-- The entry that ROUTE_PIN leaves: LINK 15 clears PINNED only. -/
def pinnedEntry (e : MEntry) (link route : Nat) : MEntry :=
  if link = 15 then { e with pinned := false } else { e with pinned := true, link := link, route := route }

theorem mergeEntry_pinned (e : MEntry) (link route : Nat) : mergeEntry (some e) (pinnedEntry e link route) = pinnedEntry e link route := by
  unfold pinnedEntry
  split
  · simp [mergeEntry]
  · simp [mergeEntry]

theorem pinnedEntry_id (e : MEntry) (link route : Nat) : (pinnedEntry e link route).id = e.id := by
  unfold pinnedEntry
  split
  · rfl
  · rfl

theorem exec_routePin {d k : Nat} {e : MEntry} {s : State} {x : Desc} (h : Ready 0x13 d s x) (hr : checkFaults (refChecks x.bytes) = [])
    (hlink : u8 x.bytes 28 / 16 ≤ 7 ∨ (u8 x.bytes 28 / 16 = 15 ∧ u16 x.bytes 30 = 0)) (htbl : s.tbl.state ≠ 2)
    (hm : refMeter false s x.bytes = some (k, e)) (hs : isStandby s = false) (ha : mayAppend s = true) :
    exec (.routePin d) s = .next (tableChange d k (pinnedEntry e (u8 x.bytes 28 / 16) (u16 x.bytes 30)) 0 [] s) := by
  have hchecks : checkFaults
      [(u8 x.bytes 28 / 16 ≤ 7 || u8 x.bytes 28 / 16 == 15, 28), (u8 x.bytes 28 / 16 != 15 || u16 x.bytes 30 == 0, 30)] = [] := by
    rcases hlink with hlow | ⟨hnone, hroute⟩
    · have hother : u8 x.bytes 28 / 16 ≠ 15 := by omega
      simp [checkFaults, hlow, hother]
    · simp [checkFaults, hnone, hroute]
  refine congrArg Host.Outcome.next (((meterCmd_ready h hr hchecks (.inl htbl)).1 k e hm).trans ?_)
  rw [changing_applies hs ha]
  exact (apply_ite (fun f => tableChange d k f 0 [] s) _ _ _).symm

/-! ### METER_QUERY (R141, R149) -/

theorem addrCheck_aligned {b : Bytes} {o align : Nat} (h : u64 b o % align = 0) : checkFaults [addrCheck b o align] = [] := by
  simp [checkFaults, addrCheck, h]

/-! ### PROFILE_SET (R146, R147) -/

section
variable {c : CfgChange} {s : State}

theorem db_appendLater : (appendLater c s).db = s.db := by
  unfold appendLater
  exact mirrorOut_frame.1

theorem host_appendLater : (appendLater c s).host = s.host := by
  unfold appendLater
  exact mirrorOut_frame.2.2

theorem next_appendLater : (appendLater c s).jr.next = s.jr.next + 1 := by
  unfold appendLater
  exact congrArg Journal.next mirrorOut_frame.2.1

/-- The record of a configuration change (R247). -/
def configRec (c : CfgChange) (s : State) : JRec :=
  { kind := 11, seq := s.jr.next, global := true, channel := 0, short := 0, time := stamp s, flags := 0, body := .config c }

theorem open_appendLater : (appendLater c s).jr.open_ = s.jr.open_ ++ [configRec c s] := by
  unfold appendLater
  exact congrArg Journal.open_ mirrorOut_frame.2.1

/-- The change is the body of the last record, also where its command waits for that record. -/
theorem lastBody_appendLater {d : Nat} {result : Bytes} : LastBody (.config c) (finishDurable d result (appendLater c s)) := by
  unfold LastBody
  rw [jr_finishDurable, open_appendLater, List.getLast?_concat]
  rfl

end

theorem auditProfile_noCustody {id : Nat} {s : State} (h : s.db.cust = []) : auditProfile id s = s := by
  unfold auditProfile
  rw [h]
  rfl

section
variable {d : Nat} {s : State} {x : Desc} {data : Bytes}

/-- PROFILE_SET of a body that has a fault: the least offset in fault, beside the mark that it counts in the body (R147, R200). -/
theorem exec_profileSet_fault {o : Nat} (h : Ready 0x14 d s x) (hrange : u16 x.bytes 16 ≤ 1023) (hdata : x.input = some data)
    (hs : isStandby s = false) (ha : mayAppend s = true)
    (hfault : profileFault (u16 x.bytes 16) (fun t => (Tab.get s.db.virials t).isSome) (data.take 1024) = some o) :
    exec (.profileSet d) s = .next (badParam d (0x8000 + o) s) := by
  refine congrArg Host.Outcome.next ((hostCmd_ready h (checkFaults_inRange (Nat.zero_le _) hrange)).trans ?_)
  rw [changing_applies hs ha, hdata]
  dsimp only [Option.getD_some]
  rw [hfault]

/-- PROFILE_SET of a sound body, where no reading holds the copy before the last and no other change is coming (R146). -/
theorem exec_profileSet_ready (h : Ready 0x14 d s x) (hrange : u16 x.bytes 16 ≤ 1023) (hdata : x.input = some data)
    (hs : isStandby s = false) (ha : mayAppend s = true)
    (hfault : profileFault (u16 x.bytes 16) (fun t => (Tab.get s.db.virials t).isSome) (data.take 1024) = none)
    (hold : oldCopyInUse s (u16 x.bytes 16) = false) (hcoming : profileComing s (u16 x.bytes 16) = false) (hcust : s.db.cust = []) :
    exec (.profileSet d) s = .next (finishDurable d [] (appendLater (.profile (u16 x.bytes 16) (data.take 1024)) s)) := by
  refine congrArg Host.Outcome.next ((hostCmd_ready h (checkFaults_inRange (Nat.zero_le _) hrange)).trans ?_)
  rw [changing_applies hs ha, hdata]
  dsimp only [Option.getD_some]
  rw [hfault, hold, hcoming, auditProfile_noCustody hcust]
  rfl

end

/-! ### What the commands on meter entries, routes and profiles do -/

theorem db_finish {d status detail : Nat} {result : Bytes} {s : State} : (finish d status detail result s).db = s.db := by
  rw [finish_host]

theorem out_finish {d status detail : Nat} {result : Bytes} {s : State} : (finish d status detail result s).out = s.out := by
  rw [finish_host]

/-- Settles O32: each command reaches the operation of its rule, and that operation's lemmas give the results. An entry that is edited is merged
with the one its short index holds, which the reference has named. -/
theorem meterEntries : Obligations.MeterEntries := by
  unfold Obligations.MeterEntries
  refine ⟨?enrol, ?noProfile, ?remove, ?purge, ?query, ?unknown, ?pin, ?profile, ?fault⟩
  case enrol =>
    intro d s x k m p h hid hhome hs ha htbl hnew hp hauto hasked hk hm
    obtain ⟨bill, henrol⟩ := enrolNew_placed (d := d) (asked := u24 x.bytes 24 % 2 ^ 20) (home := u16 x.bytes 28 % 4096)
      (homeSelf := bit (u8 x.bytes 29) 7) hp hk hm
    refine ⟨_, exec_meterEnrol_new h hid hhome hs ha htbl hnew (fun _ => hasked), ?_⟩
    rw [hauto, henrol]
    refine ⟨(waits_tableChange h.live).of_only (only_step only_notePressure (m := [.out, .events, .msix, .arch, .table]) (by decide)
      (only_onTbl (by decide))) (by decide) (by decide), ?_, ?_⟩
    · rw [(only_notePressure .meters (by decide)).1, onTbl_db, get_tableChange, get_lowestIndex hk]
      rfl
    · rw [slots_notePressure]
      exact List.mem_append_right _ (List.mem_singleton.mpr rfl)
  case noProfile =>
    intro d s x h hid hself hs ha htbl hnew hp hauto
    have hasked (hc : bit (u8 x.bytes 27) 6 = true) : u24 x.bytes 24 % 2 ^ 20 = 0 := absurd (hauto.symm.trans hc) Bool.false_ne_true
    refine ⟨_, exec_meterEnrol_new h hid (.inl hself) hs ha htbl hnew hasked, ?_⟩
    rw [enrolNew_noProfile hp]
    exact ⟨done_finish h.live, db_finish⟩
  case remove =>
    intro d s x k e h hr htbl hm hs ha hturn hkeep hretired
    refine ⟨_, exec_meterRemove h hr htbl hm hs ha hturn (fun _ => hretired), ?_⟩
    rw [hkeep, if_neg Bool.false_ne_true]
    refine ⟨(waits_tableChange (h.live.of_only only_ensureItem (by decide))).of_only only_endOwn (by decide) (by decide), ?_⟩
    rw [(only_endOwn .meters (by decide)).1, get_tableChange, (only_ensureItem .meters (by decide)).1,
      mergeEntry_edit (f := { e with retired := true }) hm rfl (mergeEntry_retire e)]
  case purge =>
    intro d s x k e h hr htbl hm hs ha hturn hpurge
    refine ⟨_, exec_meterRemove h hr htbl hm hs ha hturn (fun hc => absurd (hc.symm.trans hpurge) Bool.false_ne_true), ?_⟩
    rw [if_pos hpurge]
    refine ⟨(waits_purgeMeter (h.live.of_only only_ensureItem (by decide))).of_only only_endOwn (by decide), ?_, ?_⟩
    · rw [(only_endOwn .meters (by decide)).1, entries_purgeMeter, Tab.get_del_self]
    · rw [(only_endOwn .journal (by decide)).1]
      exact freeIndex_purgeMeter
  case query =>
    intro d s x k e h hr haddr htbl hm
    exact ⟨_, congrArg Host.Outcome.next ((meterCmd_ready h hr (addrCheck_aligned haddr) htbl).1 k e hm), done_finishOk (live_putOut h.live),
      putOut_finishOk (putOut_putOut h.notMute)⟩
  case unknown =>
    intro d s x h hr haddr htbl hm
    exact ⟨_, congrArg Host.Outcome.next ((meterCmd_ready h hr (addrCheck_aligned haddr) htbl).2 hm), done_finish h.live, out_finish⟩
  case pin =>
    intro d s x k e h hr hlink htbl hm hs ha
    refine ⟨_, exec_routePin h hr hlink htbl hm hs ha, waits_tableChange h.live, ?_⟩
    rw [get_tableChange, mergeEntry_edit hm (pinnedEntry_id ..) (mergeEntry_pinned ..)]
    rfl
  case profile =>
    intro d s x data h hrange hdata hs ha hfault hold hcoming hcust
    refine ⟨_, exec_profileSet_ready h hrange hdata hs ha hfault hold hcoming hcust,
      waits_finishDurable (h.live.of_descs (congrArg HostIf.descs host_appendLater)), lastBody_appendLater, ?_, ?_⟩
    · rw [db_finishDurable, db_appendLater]
    · rw [jr_finishDurable, next_appendLater]
  case fault =>
    intro d s x data o h hrange hdata hs ha hfault
    exact ⟨_, exec_profileSet_fault h hrange hdata hs ha hfault, done_badParam h.live, db_finish⟩

end Sys2Proof.Machine
end

section
namespace Sys2Proof.Machine
open Sys2Proof

/-! ### TABLE_SWEEP (R150) -/

/-- The age of an entry exceeds the AGE_LIMIT of its profile, and no pin keeps it (R150). -/
def overAge (s : State) (e : MEntry) : Bool :=
  !e.pinned && pfAgeLimit (bodyFor s e.id) != 0 && decide (pfAgeLimit (bodyFor s e.id) < ageOf s e)

/-- An entry after a sweep: one that is too old is marked STALE, without LINK and ALT_LINK, and with the ALT_QUALITY of none (R130, R150). -/
def sweptEntry (s : State) (e : MEntry) : MEntry :=
  if overAge s e then { e with stale := true, link := 15, altLink := 15, altQuality := -128 } else e

theorem releaseTei_db {short id : Nat} {s : State} : (releaseTei short id s).db = s.db := by
  unfold releaseTei
  split
  · rfl
  · rfl

theorem releaseChild_db {short : Nat} {s : State} : (releaseChild short s).db = s.db := by
  unfold releaseChild
  split
  · rfl
  · rfl

theorem releaseAll_db {l : Tab MEntry} {s : State} :
    (l.foldl (fun s p => releaseChild p.1 (releaseTei p.1 p.2.id s)) s).db = s.db := by
  induction l generalizing s with
  | nil => rfl
  | cons p r ih => rw [List.foldl_cons, ih, releaseChild_db, releaseTei_db]

/-- A table whose values are all changed holds at each number the changed value. -/
theorem Tab.get_map {α : Type} (t : Tab α) (f : α → α) (k : Nat) : Tab.get (t.map fun p => (p.1, f p.2)) k = (Tab.get t k).map f := by
  unfold Tab.get
  rw [List.find?_map, Option.map_map, Option.map_map]
  rfl

theorem exec_tableSweep {s : State} {k : Nat} {e : MEntry} (hup : isUp s 5 = true) (he : Tab.get s.db.entries k = some e) :
    ∃ t, exec .tableSweep s = .next t ∧ Tab.get t.db.entries k = some (sweptEntry s e) := by
  have hexec : exec .tableSweep s = execTableSweep s := rfl
  unfold execTableSweep at hexec
  rw [hup] at hexec
  refine ⟨_, hexec, ?_⟩
  show Tab.get (((s.db.entries.filter (overAge s ·.2)).foldl (fun s p => releaseChild p.1 (releaseTei p.1 p.2.id s)) s).db.entries.map
    fun p => (p.1, sweptEntry s p.2)) k = _
  rw [releaseAll_db, Tab.get_map, he]
  rfl

/-- The meter of the worked example after R150, at operating second 5,088,001: link 3, with link 1 as ALT_LINK at 14 dB. -/
def silentMeter : MEntry :=
  { id := 77, short := 3, home := 0, stale := false, pinned := false, homeSelf := true, retired := false, link := 3, altLink := 1, route := 0
    lastHeard := 5001600, quality := 17, altQuality := 14, switches := 1, linkHeard := 5001600 }

/-- Its profile: AGE_LIMIT is 86,400 s. -/
def dayProfile : Profile := { body := [0, 0, 0, 0] ++ toLE 4 86400 ++ List.replicate 1016 0, version := 1, old := none }

def beforeSweep : State :=
  onDb (fun d => { d with
      entries := [(3, silentMeter)], profiles := [(18, dayProfile)], pfxs := [{ table := 0, len := 0, key := 0, value := 18 }] })
    (onRs (fun r => { r with opSeconds := 5088001 }) (onIsl 5 (fun i => { i with phase := .running }) State.reset))

/-- Refutes O33: its clause on TABLE_SWEEP leaves ALT_QUALITY of an entry that is marked STALE as it was, but the sweep sets it to -128, the
value of R130 for no ALT_LINK: in `beforeSweep` it was 14. -/
theorem not_tableMaintenance : ¬ Obligations.TableMaintenance := by
  unfold Obligations.TableMaintenance
  rintro ⟨-, -, -, -, -, -, -, -, -, -, hSweep⟩
  have hup : isUp beforeSweep 5 = true := by decide
  have hold : overAge beforeSweep silentMeter = true := by decide
  obtain ⟨t, hexec, hclaimed⟩ := hSweep beforeSweep 3 silentMeter hup rfl
  obtain ⟨u, hexec', hswept⟩ := exec_tableSweep (s := beforeSweep) (k := 3) hup rfl
  obtain rfl : t = u := Host.Outcome.next.inj (hexec.symm.trans hexec')
  have hentry : sweptEntry beforeSweep silentMeter = { silentMeter with stale := true, link := 15, altLink := 15 } :=
    Option.some.inj (hswept.symm.trans (hclaimed.trans (congrArg some (if_pos hold))))
  rw [sweptEntry, if_pos hold] at hentry
  exact absurd hentry (by decide)

end Sys2Proof.Machine
end

section
namespace Sys2Proof.Machine
open Sys2Proof

/-! ### Ingest queues (R168 to R173) -/

theorem only_onQueue {n : Nat} {f : Queue → Queue} {s : State} : OnlyParts [.queues] s (onQueue n f s) := by
  apply only_onIk <;> simp [Part.same]

/-- What leaves the queues alone leaves each of them. -/
theorem queueOf_of_only {l : List Part} {n : Nat} {s t : State} (h : OnlyParts l s t) (hl : Part.queues ∉ l) : queueOf t n = queueOf s n := by
  unfold queueOf
  rw [(h .queues hl).1]

theorem queueOf_onQueue {n : Nat} {f : Queue → Queue} {s : State} (h : n < s.ik.queues.length) :
    queueOf (onQueue n f s) n = f (queueOf s n) :=
  getD_modAt_self s.ik.queues n f Queue.reset h

theorem length_onQueue {n : Nat} {f : Queue → Queue} {s : State} : (onQueue n f s).ik.queues.length = s.ik.queues.length :=
  length_modAt ..

theorem only_forgetOwed {f : Bytes} {s : State} : OnlyParts [.arch] s (forgetOwed f s) := only_onArch (by decide)

theorem only_settleForward {id counter disp : Nat} {answer : Bytes} {s : State} :
    OnlyParts [.out, .arch] s (settleForward id counter disp answer s) := by
  unfold settleForward
  split
  · exact only_refl _ _
  · exact only_trans (only_onArch (by decide)) only_sendAcked

theorem only_ebbWake {s : State} : OnlyParts [.power, .sched] s (ebbWake s) := by
  unfold ebbWake
  exact only_ite (only_trans (only_onPw (by decide)) only_setCores) (only_refl _ _)

/-- A flush of a queue leaves no frame in it that is not taken (R173). -/
theorem frames_flushQueue {n : Nat} {s : State} (h : n < s.ik.queues.length) : (queueOf (flushQueue n s) n).frames = [] := by
  have hcount (k : Nat) (u : State) (f : QFrame) : OnlyParts [.arch, .intake, .cntSat] u (statIk k (if n = 7 then forgetOwed f.bytes u else u)) :=
    only_step only_statIk (by decide) (only_ite (only_mono only_forgetOwed (by decide)) (only_refl _ _))
  have hcounts := only_trans (only_foldl (hcount (6 * n + 3)) (queueOf s n).frames s) (only_foldl (hcount (6 * n + 2)) (queueOf s n).coming _)
  unfold flushQueue
  rw [queueOf_onQueue (by rw [(hcounts .queues (by decide)).1]; exact h)]

section
variable {q : Nat} {s : State} {f : QFrame} {r : List QFrame}

/-- A complete frame that has room is kept (R169, R171). -/
theorem exec_frameArrival_kept (hup : isUp s 4 = true) (hc : (queueOf s q).coming = f :: r)
    (hroom : wordsUsed (queueOf s q) + frameWords f ≤ queueSize q) :
    exec (.frameArrival q false) s = .next (ebbWake (statIk (6 * q)
      (onQueue q (fun x => { x with frames := x.frames ++ [f] }) (onQueue q (fun x => { x with coming := r }) s)))) := by
  show execFrameArrival q false s = _
  unfold execFrameArrival
  dsimp only
  rw [hc]
  dsimp only
  rw [hup, if_neg (by decide), if_neg (by decide), if_neg (Nat.not_lt.mpr hroom)]

/-- A frame that is aborted or has no room is counted, and nothing of it is kept (R171, R172). -/
theorem exec_frameArrival_lost {aborted : Bool} (hup : isUp s 4 = true) (hc : (queueOf s q).coming = f :: r)
    (hlost : aborted = true ∨ queueSize q < wordsUsed (queueOf s q) + frameWords f) :
    ∃ t, exec (.frameArrival q aborted) s = .next t ∧ OnlyParts [.intake, .cntSat, .out, .arch] (onQueue q (fun x => { x with coming := r }) s) t := by
  have hrefuse (k : Nat) (u : State) : OnlyParts [.intake, .cntSat, .out, .arch] u (if q = 7 then refuseForward f.bytes (statIk k u) else statIk k u) :=
    only_ite (only_step only_settleForward (by decide) (only_mono only_statIk (by decide))) (only_mono only_statIk (by decide))
  show ∃ t, execFrameArrival q aborted s = _ ∧ _
  unfold execFrameArrival
  dsimp only
  rw [hc]
  dsimp only
  rw [hup, if_neg (by decide)]
  cases aborted with
  | true => exact ⟨_, rfl, hrefuse _ _⟩
  | false =>
    rw [if_pos (hlost.resolve_left Bool.false_ne_true)]
    exact ⟨_, rfl, hrefuse _ _⟩

theorem exec_queuePoll_taken (hup : isUp s 4 = true) (hatoll : isUp s 9 = true) (hf : (queueOf s q).frames = f :: r)
    (hslot : (freeSlot s (poolOf true 0)).isSome = true) :
    exec (.queuePoll q .none true) s = .next (onQueue q (fun x => { x with frames := x.frames.drop 1, taken := x.taken ++ [f] }) s) := by
  show execQueuePoll q .none true s = _
  unfold execQueuePoll
  rw [hf]
  dsimp only
  rw [hup, hatoll, if_neg (by simp [Option.isNone_iff_eq_none, Option.isSome_iff_ne_none.mp hslot])]
  rfl

end

end Sys2Proof.Machine
end

section
namespace Sys2Proof.Machine
open Sys2Proof

/-! ### Giving up the token (R396), which a diagnosis of the module's own may begin (R24) -/

theorem Raised.of_only {n : Nat} {l : List Part} {s t : State} (h : Raised n s) (ho : OnlyParts l s t) (hl : Part.events ∉ l) : Raised n t := by
  unfold Raised
  rw [(ho .events hl).1]
  exact h

theorem only_onPoll {k : Nat} {f : PollEntry → PollEntry} {s : State} : OnlyParts [.polls] s (onPoll k f s) := by
  apply only_onDb <;> simp [Part.same]

theorem only_takeChange {port : Nat} {t : WiredTx} {s : State} : OnlyParts [.polls] s (takeChange port t s) := by
  unfold takeChange
  split
  · apply only_onDb <;> simp [Part.same]
  · exact only_refl _ _

/-- The result of a poll is noted: before the source that it may raise, no event changes. -/
theorem noteResult_cases {port address result exc : Nat} {s : State} :
    ∃ u, OnlyParts [.polls, .wired, .cntSat] s u ∧
      (noteResult port address result exc s = u ∨ noteResult port address result exc s = raise 51 (5 + port) u) := by
  unfold noteResult
  split
  · exact ⟨s, only_refl _ _, .inl rfl⟩
  · have hnoted (k : Nat) (f : PollEntry → PollEntry) :
        OnlyParts [.polls, .wired, .cntSat] s (onPoll k f (if result = 0 then s else statWir port result s)) :=
      only_step only_onPoll (by decide) (only_ite (only_refl _ _) (only_mono only_statWir (by decide)))
    refine ⟨_, ?_, iteInduction (motive := fun t => t = _ ∨ t = raise 51 (5 + port) _) (fun _ => .inr rfl) (fun _ => .inl rfl)⟩
    exact hnoted _ _

/-- What the end of a poll may change. -/
abbrev pollParts : List Part := [.out, .events, .msix, .polls, .wired, .arch, .cntSat]

theorem only_noteResult {port address result exc : Nat} {s : State} : OnlyParts pollParts s (noteResult port address result exc s) := by
  obtain ⟨u, hu, h | h⟩ := noteResult_cases (port := port) (address := address) (result := result) (exc := exc) (s := s)
  · exact h ▸ only_mono hu (by decide)
  · exact h ▸ only_step only_raise (by decide) (only_mono hu (by decide))

theorem raised_noteResult {n port address result exc : Nat} {s : State} (h : Raised n s) : Raised n (noteResult port address result exc s) := by
  obtain ⟨u, hu, e | e⟩ := noteResult_cases (port := port) (address := address) (result := result) (exc := exc) (s := s)
  · exact e ▸ h.of_only hu (by decide)
  · exact e ▸ raised_other (h.of_only hu (by decide))

/-- The transaction of a port is dropped, with its result noted as the gate's. -/
theorem cutWired_cases {port : Nat} {s : State} :
    cutWired port s = s ∨ ∃ address, OnlyParts [.polls, .wired] (noteResult port address 7 0 s) (cutWired port s) := by
  unfold cutWired dropTx
  cases h : txOf s port with
  | none => exact .inl rfl
  | some t =>
    dsimp only
    rw [h]
    exact .inr ⟨t.address, only_step only_takeChange (by decide) (only_onWir (l := [.polls, .wired]) (by decide))⟩

theorem only_cutWired {port : Nat} {s : State} : OnlyParts pollParts s (cutWired port s) := by
  obtain h | ⟨address, h⟩ := cutWired_cases (port := port) (s := s)
  · rw [h]
    exact only_refl _ _
  · exact only_step h (by decide) only_noteResult

theorem raised_cutWired {n port : Nat} {s : State} (h : Raised n s) : Raised n (cutWired port s) := by
  obtain e | ⟨address, ho⟩ := cutWired_cases (port := port) (s := s)
  · rw [e]
    exact h
  · exact (raised_noteResult h).of_only ho (by decide)

/-- What a change of the pair's state may change. -/
abbrev tokenParts : List Part := pollParts ++ [.plc, .pair, .campaigns]

/-- Broadcasts and campaigns end with the token. -/
theorem only_endBroadcasts {s : State} :
    OnlyParts [.plc, .campaigns] s (onPlc (fun p => { p with bcast := [] }) (onImg (fun i => { i with campaigns := [] }) s)) := by
  refine only_step (only_onPlc (l := [.plc]) (by decide)) (by decide) ?_
  apply only_onImg <;> simp [Part.same]

theorem only_setPairState {st : PairState} {s : State} : OnlyParts tokenParts s (setPairState st s) := by
  have hcut : OnlyParts tokenParts s (cutWired 1 (cutWired 0 (cutMedia s))) :=
    only_step only_cutWired (by decide) (only_step only_cutWired (by decide) (only_mono only_cutMedia (by decide)))
  unfold setPairState
  refine only_ite (only_refl _ _) (only_step only_raise (by decide) (only_step (only_onPair (l := [.pair]) (by decide)) (by decide) ?_))
  have hgate := only_ite (c := (s.pair.gate && !gateIn st) = true) hcut (only_refl _ _)
  exact only_ite hgate (only_step only_endBroadcasts (by decide) hgate)

theorem raised_setPairState {n : Nat} {st : PairState} {s : State} (h : Raised n s) : Raised n (setPairState st s) := by
  have hcut : Raised n (cutWired 1 (cutWired 0 (cutMedia s))) := raised_cutWired (raised_cutWired (h.of_only only_cutMedia (by decide)))
  have hgate : Raised n (if s.pair.gate && !gateIn st then cutWired 1 (cutWired 0 (cutMedia s)) else s) := by
    split
    · exact hcut
    · exact h
  unfold setPairState
  split
  · exact h
  · refine raised_other (Raised.of_only (l := [.plc, .campaigns, .pair]) hgate ?_ (by decide))
    exact only_step (only_onPair (l := [.pair]) (by decide)) (by decide) (only_ite (only_refl _ _) (only_mono only_endBroadcasts (by decide)))

/-- RELEASE is sent after the state has changed. -/
theorem only_releaseAfter {s : State} : ∃ u, OnlyParts [.pair] s u ∧ OnlyParts [.out, .pair, .cntSat] (setPairState .standby u) (releaseToken s) :=
  ⟨_, only_onPair (by decide), only_step only_isthmusSend (by decide) (only_mono only_statPair (by decide))⟩

theorem only_deferRelease {s : State} : OnlyParts [.pair, .cntSat] s (statPair 4 (onPair (fun p => { p with owesRelease := true }) s)) :=
  only_step only_statPair (by decide) (only_onPair (by decide))

theorem only_giveUp {why : GiveUp} {s : State} : OnlyParts tokenParts s (giveUp why s) := by
  obtain ⟨u, hu, hrel⟩ := only_releaseAfter (s := s)
  unfold giveUp
  exact only_ite (only_refl _ _) (only_ite (only_ite (only_refl _ _) (only_mono only_deferRelease (by decide)))
    (only_step hrel (by decide) (only_trans (only_mono hu (by decide)) only_setPairState)))

theorem raised_giveUp {n : Nat} {why : GiveUp} {s : State} (h : Raised n s) : Raised n (giveUp why s) := by
  obtain ⟨u, hu, hrel⟩ := only_releaseAfter (s := s)
  unfold giveUp
  split
  · exact h
  · split
    · split
      · exact h
      · exact h.of_only only_deferRelease (by decide)
    · exact (raised_setPairState (h.of_only hu (by decide))).of_only hrel (by decide)

/-! ### An uncorrectable error is logged and raised (R24, R27) -/

theorem only_eccUncorrectable {island kind wher : Nat} {s : State} :
    OnlyParts (.eccCounts :: .eccLog :: tokenParts) s (eccUncorrectable island kind wher s) := by
  unfold eccUncorrectable
  refine only_step only_giveUp (by decide) (only_step only_raise (by decide) (only_step only_cntSat (by decide) ?_))
  have hlog (u : State) : OnlyParts [.eccLog] u (eccLogged island kind 63 2 wher u) := by
    apply only_onTel <;> simp [Part.same]
  refine only_step (hlog _) (by decide) ?_
  apply only_onFab <;> simp [Part.same]

theorem raised_eccUncorrectable {island kind wher : Nat} {s : State} : Raised 36 (eccUncorrectable island kind wher s) :=
  raised_giveUp (raised_raise (by decide))

/-- A frame whose tag does not check is dropped from its queue, and raises ECC_UNCORRECTABLE (R170). -/
theorem exec_queuePoll_badTag {q : Nat} {e : Ecc} {s : State} {f : QFrame} {r : List QFrame} (hup : isUp s 4 = true) (hatoll : isUp s 9 = true)
    (hf : (queueOf s q).frames = f :: r) (hslot : (freeSlot s (poolOf true 0)).isSome = true) :
    ∃ t, exec (.queuePoll q e false) s = .next t ∧ Raised 36 t ∧
      OnlyParts (.intake :: .eccCounts :: .eccLog :: tokenParts) (onQueue q (fun x => { x with frames := x.frames.drop 1 }) s) t := by
  have hecc (u : State) : OnlyParts (.intake :: .eccCounts :: .eccLog :: tokenParts) u (eccUncorrectable 4 3 q (statIk (6 * q + 5) u)) :=
    only_step only_eccUncorrectable (by decide) (only_mono only_statIk (by decide))
  show ∃ t, execQueuePoll q e false s = _ ∧ _
  unfold execQueuePoll
  rw [hf]
  dsimp only
  rw [hup, hatoll, if_neg (by simp [Option.isNone_iff_eq_none, Option.isSome_iff_ne_none.mp hslot]), if_pos (by decide)]
  refine ⟨_, rfl, ?_, ?_⟩
  · split
    · exact raised_eccUncorrectable.of_only only_forgetOwed (by decide)
    · exact raised_eccUncorrectable
  · exact only_ite (only_step only_forgetOwed (by decide) (hecc _)) (hecc _)

end Sys2Proof.Machine
end

section
namespace Sys2Proof.Machine
open Sys2Proof

/-! ### The item of a reading (R29, R157) -/

theorem itemAt_of_only {l : List Part} {slot : Nat} {s t : State} (h : OnlyParts l s t) (hl : Part.sched ∉ l) : itemAt t slot = itemAt s slot := by
  unfold itemAt
  rw [h .sched hl]

theorem itemAt_onItem {slot : Nat} {f : Item → Item} {s : State} (hf : ∀ i, (f i).slot = i.slot) :
    itemAt (onItem slot f s) slot = (itemAt s slot).map f := by
  show (modWhere (fun i => i.slot == slot) f s.sch.items).find? (fun i => i.slot == slot) = (s.sch.items.find? (fun i => i.slot == slot)).map f
  rw [find_modWhere _ _ _ _ (fun i => by rw [hf i])]
  cases h : s.sch.items.find? (fun i => i.slot == slot) with
  | none => rfl
  | some i => rw [Option.map_some, Option.map_some, if_pos (List.find?_some (p := fun i : Item => i.slot == slot) h)]

theorem only_parkItem {slot : Nat} {step : ItemStep} {s : State} : OnlyParts [.sched] s (parkItem slot step s) := by
  unfold parkItem
  split
  · exact only_refl _ _
  · exact only_trans only_leaveCore only_onItem

/-- A parked item is on no core: only its step changes. -/
theorem itemAt_parkItem {slot : Nat} {step : ItemStep} {s : State} {i : Item} (h : itemAt s slot = some i) (hp : i.state = .parked) :
    itemAt (parkItem slot step s) slot = some { i with state := .parked, step := step } := by
  have hleave : leaveCore i s = s := by
    unfold leaveCore
    rw [hp]
  unfold parkItem
  rw [h]
  dsimp only
  rw [hleave]
  refine Eq.trans (itemAt_onItem fun _ => rfl) ?_
  rw [h, Option.map_some]

theorem mayAppend_notStandby {s : State} (h : mayAppend s = true) : isStandby s = false := by
  unfold mayAppend at h
  simpa using (Bool.and_eq_true_iff.mp h).2

/-! ### What an accepted frame teaches (R148, R277 to R280) -/

theorem only_useKey {short id : Nat} {s : State} : OnlyParts [.keyState, .keyStats, .cntSat] s (useKey short id s) := by
  have hcache (f : Keys → List (Nat × Bytes)) : OnlyParts [.keyState, .keyStats, .cntSat] s (onKeys (fun k => { k with cache := f k }) s) := by
    apply only_onKeys <;> simp [Part.same]
  unfold useKey
  refine only_ite (only_refl _ _) ?_
  dsimp only
  split
  · exact only_ite (hcache _) (only_step only_statKey (by decide) (hcache _))
  · exact only_ite (only_step only_statKey (by decide) (only_mono only_statKey (by decide))) (only_refl _ _)

theorem only_queueFrame {link short id : Nat} {frame : Bytes} {s : State} :
    OnlyParts [.plc, .radio, .table] s (queueFrame link short id frame s) := by
  unfold queueFrame
  refine only_ite ?_ (only_ite (only_onRad (by decide)) (only_ite (only_onTbl (by decide)) (only_refl _ _)))
  unfold queuePlc
  split
  · exact only_refl _ _
  · exact only_onPlc (by decide)

theorem only_flushHeld {link short id : Nat} {s : State} : OnlyParts [.plc, .radio, .table] s (flushHeld link short id s) := by
  unfold flushHeld
  exact only_ite (only_trans (only_onTbl (by decide)) (only_foldl (fun _ _ => only_queueFrame) _ _)) (only_refl _ _)

theorem only_learnFrame {short : Nat} {body meta16 : Bytes} {s : State} :
    OnlyParts [.meters, .plc, .radio, .table] s (learnFrame short body meta16 s) := by
  unfold learnFrame
  split
  · exact only_refl _ _
  · refine only_step only_flushHeld (by decide) ?_
    apply only_onDb <;> simp [Part.same]

/-- What the measurements of a frame may change. -/
abbrev measParts : List Part := [.indicators, .balance, .journal, .checkpoint, .out, .pair, .ledgerStats, .cntSat, .events, .msix, .arch]

theorem only_onInd {short : Nat} {f : Ind → Ind} {s : State} : OnlyParts [.indicators] s (onInd short f s) := by
  apply only_onDb <;> simp [Part.same]

theorem only_reportRecord {rs : List Report} {s : State} :
    OnlyParts [.balance, .journal, .checkpoint, .out, .pair] s (appendGlobal 8 0 (.report rs) s) := by
  refine only_append (by decide) (fun r hr => ?_)
  apply only_onDb <;> simp [Part.same, applyRec, applyBody, hr]

theorem only_wrapReports {n : Nat} {s : State} : OnlyParts [.ledgerStats, .cntSat] s (wrapReports n s) :=
  only_foldl (fun _ _ => only_statBal) _ _

theorem only_reportInds {short : Nat} {l : List IndSet} {s : State} : OnlyParts measParts s (reportInds short l s) := by
  have hraise (t : State) (x : IndSet) : OnlyParts measParts t (raise (indSource x.bit_) x.info (statBal 6 t)) :=
    only_step only_raise (by decide) (only_mono only_statBal (by decide))
  unfold reportInds
  exact only_ite (only_refl _ _)
    (only_trans (only_step only_reportRecord (by decide) (only_mono only_wrapReports (by decide))) (only_foldl hraise _ _))

theorem only_reportOnInd {short : Nat} {l : List IndSet} {f : Ind → Ind} {s : State} :
    OnlyParts measParts s (reportInds short l (onInd short f s)) :=
  only_trans (only_mono only_onInd (by decide)) only_reportInds

theorem only_indicate {short : Nat} {body : Bytes} {x : IndSet} {s : State} : OnlyParts measParts s (indicate short body x s) := by
  unfold indicate
  split
  · exact only_reportOnInd
  · exact only_refl _ _

theorem only_hearPlc {short : Nat} {body : Bytes} {cls : Nat} {mags : List Nat} {timing : Int} {phase conf : Nat} {s : State} :
    OnlyParts measParts s (hearPlc short body cls mags timing phase conf s) := by
  have hfps (k : Nat) (r : FpRef) : OnlyParts measParts s (onDb (fun db => { db with fps := Tab.set db.fps k r }) s) := by
    apply only_onDb <;> simp [Part.same]
  unfold hearPlc
  dsimp only
  refine only_trans ?_ only_reportOnInd
  split
  · exact hfps _ _
  · exact only_refl _ _

theorem only_hearRadio {short : Nat} {body : Bytes} {rssi cfo : Int} {s : State} : OnlyParts measParts s (hearRadio short body rssi cfo s) := by
  unfold hearRadio
  exact only_ite only_reportOnInd (only_refl _ _)

theorem only_hearSkew {short : Nat} {body : Bytes} {ms : Int} {s : State} : OnlyParts measParts s (hearSkew short body ms s) := by
  have hind (f : Ind → Ind) : OnlyParts measParts s (onInd short f s) := only_mono only_onInd (by decide)
  unfold hearSkew
  exact only_ite (only_ite (hind _) (only_ite (only_trans (hind _) only_indicate) (hind _))) (only_refl _ _)

theorem only_applyMeas {short link channel : Nat} {body : Bytes} {m : Meas} {s : State} :
    OnlyParts measParts s (applyMeas short link channel body m s) := by
  have hheard : OnlyParts measParts s
      (if link < 3 then
        match m.mags, (entryOf s short).bind (fun e => stationOf s e.id) with
        | some (g, t), some st => hearPlc short body (channel % 4) g t st.phase st.conf s
        | _, _ => s
      else if link < 5 then hearRadio short body m.rssi m.cfo s
      else s) := by
    refine only_ite ?_ (only_ite only_hearRadio (only_refl _ _))
    split
    · exact only_hearPlc
    · exact only_refl _ _
  unfold applyMeas
  dsimp only
  split
  · exact only_trans hheard only_hearSkew
  · exact hheard

/-! ### AUTH_DONE (R181, R182) -/

/-- A counter above the last accepted one: the reading goes on, with its plaintext (R182). -/
theorem itemAt_stepCounter_accepted {slot : Nat} {rd : Reading} {s : State} (hs : isStandby s = false)
    (hrekey : (mstateOf s rd.short).rekey = false) (hc : (mstateOf s rd.short).lastCounter < frameCounter rd.frame) :
    itemAt (stepCounter slot rd s) slot =
      (itemAt s slot).map (fun i => { i with reading := i.reading.map (fun _ => rd), step := .authed }) := by
  unfold stepCounter
  dsimp only
  rw [hs, hrekey, if_neg Bool.false_ne_true, if_neg Bool.false_ne_true, if_pos hc]
  refine Eq.trans (itemAt_onItem fun _ => rfl) ?_
  refine Eq.trans (congrArg _ (itemAt_onItem fun _ => rfl)) ?_
  rw [Option.map_map, itemAt_of_only only_applyMeas (by decide), itemAt_of_only only_learnFrame (by decide)]
  rfl

section
variable {slot : Nat} {s : State} {i : Item} {rd : Reading}

theorem next_appendMeter {kind k flags : Nat} {body : JBody} : (appendMeter kind k flags body s).jr.next = s.jr.next + 1 := by
  unfold appendMeter append
  rw [mirrorOut_frame.2.1]

theorem sch_appendMeter {kind k flags : Nat} {body : JBody} : (appendMeter kind k flags body s).sch = s.sch := by
  unfold appendMeter append
  rw [only_mirrorOut .sched (by decide)]

/-- What AUTH_DONE asks of the state before it does anything. -/
theorem authDone_ready (hstep : i.step = .authWait) (hst : i.state = .parked)
    (hup : isUp s 2 = true ∧ isUp s 4 = true ∧ mayAppend s = true) :
    (i.step != .authWait || i.state != .parked || !isUp s 2 || !isUp s 4 || !(mayAppend s || isStandby s)) = false := by
  rw [hstep, hst, hup.1, hup.2.1, hup.2.2]
  rfl

theorem exec_authDone_opened {plain : Bytes} (hi : itemAt s slot = some i) (hrd : i.reading = some rd) (hstep : i.step = .authWait)
    (hst : i.state = .parked) (hup : isUp s 2 = true ∧ isUp s 4 = true ∧ mayAppend s = true) (hkey : keyless s = false)
    (hopen : openUnder s rd.short (frameId rd.frame) rd.frame = some (plain, false)) :
    exec (.authDone slot) s = .next (stepCounter slot { rd with plain := plain } (useKey rd.short (frameId rd.frame) s)) := by
  show execAuthDone slot s = _
  unfold execAuthDone
  rw [hi]
  dsimp only
  rw [hrd]
  dsimp only
  rw [authDone_ready hstep hst hup, hkey, if_neg Bool.false_ne_true, if_neg Bool.false_ne_true, hopen]
  rfl

theorem exec_authDone_keyless (hi : itemAt s slot = some i) (hrd : i.reading = some rd) (hstep : i.step = .authWait)
    (hst : i.state = .parked) (hup : isUp s 2 = true ∧ isUp s 4 = true ∧ mayAppend s = true) (hkey : keyless s = true) :
    exec (.authDone slot) s = .next (storeKeyless slot rd s) := by
  show execAuthDone slot s = _
  unfold execAuthDone
  rw [hi]
  dsimp only
  rw [hrd]
  dsimp only
  rw [authDone_ready hstep hst hup, hkey, if_neg Bool.false_ne_true, if_pos rfl]

/-- A keyless frame that is new and has room is stored by one record, and its path is over (R191). -/
theorem storeKeyless_stored (hs : isStandby s = false) (hreplay : rd.replay = false)
    (hnew : s.ik.keylessLast.any (fun p => p.1 == frameId rd.frame && p.2 == rd.frame) = false) (hroom : keylessCount s < keylessLimit) :
    ∃ u, storeKeyless slot rd s = pathOver slot u ∧ u.sch = s.sch ∧ u.jr.next = s.jr.next + 1 ∧
      u.ik.keylessLast.head? = some (frameId rd.frame, rd.frame) := by
  unfold storeKeyless
  dsimp only
  generalize hs1 : (if metaLink rd.meta16 = 7 then forgetOwed rd.frame s else s) = s1
  have ho : OnlyParts [.arch] s s1 := hs1 ▸ only_ite only_forgetOwed (only_refl _ _)
  have hstandby : isStandby s1 = false := by
    unfold isStandby holdsToken
    rw [ho .pair (by decide)]
    exact hs
  have hcount : keylessCount s1 = keylessCount s := by
    unfold keylessCount
    rw [ho .quarantine (by decide), (ho .journal (by decide)).1]
  rw [hstandby, hreplay, (ho .queues (by decide)).2, hnew, hcount, if_neg (by decide), if_neg (by decide), if_neg (Nat.not_le.mpr hroom)]
  refine ⟨_, rfl, ?_, ?_, ?_⟩
  · rw [only_statIk .sched (by decide), onIk_sch, only_whenDurable .sched (by decide), sch_appendMeter, ho .sched (by decide)]
  · rw [(only_statIk .journal (by decide)).1, onIk_jr]
    show (appendMeter 11 _ 0 _ s1).jr.next = _
    rw [next_appendMeter, (ho .journal (by decide)).1]
  · rw [(only_statIk .queues (by decide)).2]
    rfl

end

end Sys2Proof.Machine
end

section
namespace Sys2Proof.Machine
open Sys2Proof

/-! ### Validation and its windows (R185, R187, R189) -/

theorem exec_validationDone {slot : Nat} {s : State} {i : Item} {rd : Reading} {b : Bool} (hi : itemAt s slot = some i)
    (hrd : i.reading = some rd) (hstep : i.step = .validWait) (hst : i.state = .parked) (hpick : pickCalc s = some b)
    (hserves : calcServes s rd.onB = true) :
    exec (.validationDone slot) s = .next (onItem slot (fun i => { i with
      reading := some (validate s rd)
      step := if (validate s rd).reason = 0 || isCustody s (validate s rd) then .convWait else .postWait }) s) := by
  show execValidationDone slot s = _
  unfold execValidationDone
  rw [hi]
  dsimp only
  rw [hrd, hpick]
  dsimp only
  rw [hstep, hst, hserves, if_neg (by decide), if_pos rfl]

/-- The window that stands after a window's end is that of the operating seconds, and a new one begins its counts at 0. -/
theorem atWindow_current {s : State} : (atWindow s).ik.replayWindow = windowNow (atWindow s) ∧
    ((atWindow s).ik.replayWindow ≠ s.ik.replayWindow → (atWindow s).ik.replayCount = 0 ∧ (atWindow s).ik.valCount = 0) := by
  unfold atWindow
  split
  case isTrue h => exact ⟨h, fun hne => absurd rfl hne⟩
  case isFalse => exact ⟨rfl, fun _ => ⟨rfl, rfl⟩⟩

/-! ### The quarantine (R193, R194) -/

/-- What a read of the quarantine finds: the bytes of the entries from the SEQ asked for, their number, and the SEQ of the next. -/
def quarFound (s : State) (b : Bytes) : Bytes × Nat × Nat := quarFill (s.db.quars.filter (fun q => u64 b 16 ≤ q.seq)) (u32 b 32) [] 0

section
variable {d : Nat} {s : State} {x : Desc}

theorem exec_quarRead (h : Ready 0xB0 d s x) (hc : checkFaults (logChecks x.bytes 64) = []) :
    exec (.quarRead d) s = .next (finishOk d (toLE 4 (quarFound s x.bytes).2.1 ++ toLE 8 (quarFound s x.bytes).2.2)
      (if (quarFound s x.bytes).1.isEmpty then s else putOut d (u64 x.bytes 24) (quarFound s x.bytes).1 s)) :=
  congrArg Host.Outcome.next (hostCmd_ready h hc)

theorem exec_quarRelease_removed {q : Quar} (h : Ready 0xB1 d s x) (hs : isStandby s = false) (ha : mayAppend s = true)
    (hq : s.db.quars.find? (fun q => q.seq == u64 x.bytes 16) = some q) (hdrop : bit (u8 x.bytes 24) 0 = true) :
    exec (.quarRelease d) s = .next (finishDurable d [] (appendGlobal 11 0 (.config (.quarRemove q.seq)) s)) := by
  refine congrArg Host.Outcome.next ((hostCmd_ready h rfl).trans ?_)
  rw [changing_applies hs ha, hq]
  exact if_pos hdrop

theorem exec_quarRelease_unknown (h : Ready 0xB1 d s x) (hs : isStandby s = false) (ha : mayAppend s = true)
    (hq : s.db.quars.find? (fun q => q.seq == u64 x.bytes 16) = none) : exec (.quarRelease d) s = .next (finish d 0x20 0 [] s) := by
  refine congrArg Host.Outcome.next ((hostCmd_ready h rfl).trans ?_)
  rw [changing_applies hs ha, hq]

end

/-- The record of a configuration change takes its place in the journal, and acts on the checkpointed structures at once. -/
theorem appendGlobal_config {c : CfgChange} {s : State} :
    (appendGlobal 11 0 (.config c) s).db = applyRec s.db (configRec c s) ∧
      (appendGlobal 11 0 (.config c) s).jr.open_ = s.jr.open_ ++ [configRec c s] ∧ (appendGlobal 11 0 (.config c) s).host = s.host := by
  obtain ⟨hdb, hjr, hhost⟩ := mirrorOut_frame (r := configRec c s) (s :=
    { s with
      db := applyRec s.db (configRec c s)
      jr := { s.jr with next := s.jr.next + 1, open_ := s.jr.open_ ++ [configRec c s] }
      fl := { s.fl with cpJournal := s.fl.cpJournal + recLen (configRec c s) } })
  exact ⟨hdb, congrArg Journal.open_ hjr, hhost⟩

theorem lastBody_appendGlobal_config {d : Nat} {result : Bytes} {c : CfgChange} {s : State} :
    LastBody (.config c) (finishDurable d result (appendGlobal 11 0 (.config c) s)) := by
  unfold LastBody
  rw [jr_finishDurable, appendGlobal_config.2.1, List.getLast?_concat]
  rfl

/-! ### Limits and counters of INTAKE (R195) -/

section
variable {d : Nat} {s : State} {x : Desc}

/-- The settings that INTAKE_SET carries. -/
def intakeSetOf (b : Bytes) : IntakeSet := { replayLimit := u16 b 16, valLimit := u16 b 18, nakHoldoff := u16 b 20 }

theorem exec_intakeSet (h : Ready 0xB3 d s x) (hreplay : 0 < u16 x.bytes 16) (hval : 0 < u16 x.bytes 18)
    (hnak : 1 ≤ u16 x.bytes 20 ∧ u16 x.bytes 20 ≤ 3600) :
    exec (.intakeSet d) s = .next (finishOk d []
      (saveOpt (fun o => { o with intake := intakeSetOf x.bytes }) (onIk (fun i => { i with set := intakeSetOf x.bytes }) s))) := by
  have hrange : inRange (u16 x.bytes 20) 1 3600 = true := by
    unfold inRange
    simp [hnak]
  refine congrArg Host.Outcome.next ((hostCmd_ready h rfl).trans (if_neg ?_))
  simp [hrange]
  omega

/-- A read of INTAKE's counters, with the clear that its CLEAR bit asks for. -/
def intakeStatsDone (d : Nat) (x : Desc) (s : State) : State :=
  let sat := (satGroup 0xB2).any (fun g => bit s.tel.cntSat g)
  let s1 := putOut d (u64 x.bytes 24) (padTo 512 (s.ik.stats.flatMap (toLE 4))) s
  if bit (u8 x.bytes 16) 0 then
    onDesc d (fun y => { y with undo := .counts s.ik.stats sat }) (cntClear 0 (onIk (fun i => { i with stats := List.replicate 70 0 }) s1))
  else s1

theorem exec_intakeStats (h : Ready 0xB2 d s x) (haddr : u64 x.bytes 24 % 64 = 0) :
    exec (.intakeStats d) s = .next (finishOk d [] (intakeStatsDone d x s)) :=
  congrArg Host.Outcome.next (hostCmd_ready h (addrCheck_aligned haddr))

end

end Sys2Proof.Machine
end

section
namespace Sys2Proof.Machine
open Sys2Proof

/-! ### What the commands of intake, validation and quarantine do -/

theorem live_intakeStatsDone {d : Nat} {s : State} {x : Desc} (h : Live d s) : Live d (intakeStatsDone d x s) := by
  have hread := live_putOut (addr := u64 x.bytes 24) (data := padTo 512 (s.ik.stats.flatMap (toLE 4))) h
  unfold intakeStatsDone
  dsimp only
  split
  · refine Live.onDesc (hread.of_only (l := [.cntSat, .intake]) (only_step only_cntClear (by decide) ?_) (by decide)) (fun _ => ⟨rfl, id, rfl⟩)
    apply only_onIk <;> simp [Part.same]
  · exact hread

theorem putOut_intakeStatsDone {d : Nat} {s : State} {x : Desc} (h : isMute s d = false) :
    PutOut s (u64 x.bytes 24) (padTo 512 (s.ik.stats.flatMap (toLE 4))) (intakeStatsDone d x s) := by
  unfold intakeStatsDone
  dsimp only
  split
  · exact putOut_putOut h
  · exact putOut_putOut h

theorem stats_intakeStatsDone {d : Nat} {s : State} {x : Desc} :
    (intakeStatsDone d x s).ik.stats = if bit (u8 x.bytes 16) 0 then List.replicate 70 0 else s.ik.stats := by
  unfold intakeStatsDone
  dsimp only
  split
  · rfl
  · exact (only_putOut .intake (by decide)).1

/-- Settles O35: each command reaches the operation its rule names. What follows that operation (counters, sources, messages, the token given up
at an uncorrectable error) leaves the queues and the items of readings alone. -/
theorem intakeCommands : Obligations.IntakeCommands := by
  unfold Obligations.IntakeCommands
  refine ⟨?flush, ?arrival, ?lost, ?poll, ?pollTag, ?auth, ?keyless, ?valid, ?window, ?quarNone, ?quarSome, ?remove, ?unknown, ?set, ?stats⟩
  case flush =>
    intro q s hnet hup hq hlen
    exact ⟨_, congrArg Host.Outcome.next (if_pos (by simp [regOpen, hnet, hup, hq])), frames_flushQueue (by omega)⟩
  case arrival =>
    intro q s f r hup hq hc hroom
    have hafter (k : Nat) (u : State) : OnlyParts [.intake, .cntSat, .power, .sched] u (ebbWake (statIk k u)) :=
      only_step only_ebbWake (by decide) (only_mono only_statIk (by decide))
    refine ⟨_, exec_frameArrival_kept hup hc hroom, ?_⟩
    rw [queueOf_of_only (hafter _ _) (by decide), queueOf_onQueue (by rw [length_onQueue]; exact hq), queueOf_onQueue hq]
    exact ⟨rfl, rfl⟩
  case lost =>
    intro q aborted s f r hup hq hc hlost
    obtain ⟨t, hexec, ho⟩ := exec_frameArrival_lost hup hc hlost
    refine ⟨t, hexec, ?_⟩
    rw [queueOf_of_only ho (by decide), queueOf_onQueue hq]
    exact ⟨rfl, rfl⟩
  case poll =>
    intro q s f r hup hatoll hq hf hslot
    refine ⟨_, exec_queuePoll_taken hup hatoll hf hslot, ?_⟩
    rw [queueOf_onQueue hq, hf]
    exact ⟨rfl, rfl⟩
  case pollTag =>
    intro q s e f r hup hatoll hq hf hslot
    obtain ⟨t, hexec, hraised, ho⟩ := exec_queuePoll_badTag (e := e) hup hatoll hf hslot
    refine ⟨t, hexec, ?_⟩
    rw [queueOf_of_only ho (by decide), queueOf_onQueue hq, hf]
    exact ⟨rfl, rfl, hraised⟩
  case auth =>
    intro slot s i rd plain hi hrd hstep hst hup hkey hopen hrekey hcounter
    have ho : OnlyParts [.keyState, .keyStats, .cntSat] s (useKey rd.short (frameId rd.frame) s) := only_useKey
    have hm : mstateOf (useKey rd.short (frameId rd.frame) s) rd.short = mstateOf s rd.short := by
      unfold mstateOf
      rw [(ho .meters (by decide)).2.2.1]
    have hstandby : isStandby (useKey rd.short (frameId rd.frame) s) = false := by
      unfold isStandby holdsToken
      rw [ho .pair (by decide)]
      exact mayAppend_notStandby hup.2.2
    refine ⟨_, exec_authDone_opened hi hrd hstep hst hup hkey hopen, ?_⟩
    rw [itemAt_stepCounter_accepted hstandby (hm ▸ hrekey) (hm ▸ hcounter), itemAt_of_only ho (by decide), hi, Option.map_some, Option.map_some, hrd]
    rfl
  case keyless =>
    intro slot s i rd hi hrd hstep hst hup hkey hreplay hnew hroom
    obtain ⟨u, hstore, hsch, hnext, hlast⟩ := storeKeyless_stored (slot := slot) (mayAppend_notStandby hup.2.2) hreplay hnew hroom
    have hiu : itemAt u slot = some i := by
      unfold itemAt
      rw [hsch]
      exact hi
    refine ⟨_, exec_authDone_keyless hi hrd hstep hst hup hkey, ?_⟩
    rw [hstore, pathOver, itemAt_parkItem hiu hst, (only_parkItem .journal (by decide)).1, (only_parkItem .queues (by decide)).2]
    exact ⟨rfl, hnext, hlast⟩
  case valid =>
    intro slot s i rd b hi hrd hstep hst hpick hserves
    refine ⟨_, exec_validationDone hi hrd hstep hst hpick hserves, ?_⟩
    refine Eq.trans (itemAt_onItem fun _ => rfl) ?_
    rw [hi, Option.map_some]
    simp only [Bool.or_eq_true, decide_eq_true_eq]
  case window =>
    intro s
    have hpassed : (passOp (60 * (s.ik.replayWindow + 1)) s).ik.replayWindow = s.ik.replayWindow := (only_passOp .intake (by decide)).2.2.1
    obtain ⟨hcurrent, hcounts⟩ := atWindow_current (s := passOp (60 * (s.ik.replayWindow + 1)) s)
    exact ⟨_, rfl, hcurrent, fun hne => hcounts (hpassed.symm ▸ hne)⟩
  case quarNone =>
    intro d s x h hc _ hnone
    have hfound : quarFound s x.bytes = ([], 0, 0) := by
      unfold quarFound
      rw [hnone]
      rfl
    refine ⟨_, exec_quarRead h hc, ?_⟩
    rw [hfound]
    exact ⟨done_finishOk h.live, out_finish⟩
  case quarSome =>
    intro d s x h hc hsome
    refine ⟨_, exec_quarRead h hc, ?_⟩
    rw [if_neg (by rw [List.isEmpty_iff]; exact hsome)]
    exact ⟨done_finishOk (live_putOut h.live), putOut_finishOk (putOut_putOut h.notMute)⟩
  case remove =>
    intro d s x q h hs ha hq hdrop
    obtain ⟨hdb, -, hhost⟩ := appendGlobal_config (c := .quarRemove q.seq) (s := s)
    refine ⟨_, exec_quarRelease_removed h hs ha hq hdrop, waits_finishDurable (h.live.of_descs (congrArg HostIf.descs hhost)),
      lastBody_appendGlobal_config, ?_⟩
    rw [db_finishDurable, hdb]
    rfl
  case unknown =>
    intro d s x h hs ha hq
    exact ⟨_, exec_quarRelease_unknown h hs ha hq, done_finish h.live, db_finish⟩
  case set =>
    intro d s x h hreplay hval hnak
    refine ⟨_, exec_intakeSet h hreplay hval hnak, done_finishOk (h.live.of_descs rfl), ?_, ?_⟩
    · rw [finishOk, finish_host]
      rfl
    · rw [finishOk, finish_host]
      rfl
  case stats =>
    intro d s x h haddr
    refine ⟨_, exec_intakeStats h haddr, done_finishOk (live_intakeStatsDone h.live), putOut_finishOk (putOut_intakeStatsDone h.notMute), ?_⟩
    rw [(only_finishOk .intake (by decide)).1, stats_intakeStatsDone]

end Sys2Proof.Machine
end

section
namespace Sys2Proof.Machine
open Sys2Proof

/-! ### CONV_TEST on the firmware path (R217) -/

/-- CONV_TEST that asks for the firmware path, PATHS bit 2, while ATOLL is not running: PATH_UNAVAILABLE, and no path has run (R217). -/
theorem exec_convTest_firmwareDown {d : Nat} {s : State} {x : Desc} {data : Bytes} (h : Ready 0xB9 d s x) (haddr : u64 x.bytes 24 % 64 = 0)
    (hdata : x.input = some data) (hsound : (testFaults s data).min? = none) (hfirmware : bit (u8 data 2) 2 = true) (hdown : isUp s 9 = false) :
    exec (.convTest d) s = .next (finish d 0x25 0 [] s) := by
  refine congrArg Host.Outcome.next ((hostCmd_ready h (addrCheck_aligned haddr)).trans ?_)
  rw [hdata]
  dsimp only [Option.getD_some]
  rw [hsound]
  exact if_pos (by rw [hfirmware, hdown]; exact Bool.or_true _)

/-- An input block that is sound: profile 0, the firmware path alone, one element. -/
def firmwareTest : Bytes := [0, 0, 4, 1] ++ List.replicate 1020 0

/-- CONV_TEST as descriptor 0, started, with that block. -/
def firmwareTestDesc : Desc :=
  { id := 0, ring := 0, slot := 0, bytes := 0xB9 :: List.replicate 63 0, stage := .started, input := some firmwareTest, status := 0, detail := 0
    result := [], writes := 0, orphan := false, mute := false, undo := .none }

/-- NET runs and ATOLL does not; profile 0 is there, and CONV_TEST has started. -/
def atollDown : State :=
  onHost (fun h => { h with descs := [firmwareTestDesc] })
    (onDb (fun d => { d with profiles := [(0, { body := List.replicate 1024 0, version := 1, old := none })] })
      (onIsl 10 (fun i => { i with phase := .running }) State.reset))

theorem reservedFaults_firmwareTestDesc : reservedFaults firmwareTestDesc.bytes = [] := by decide

theorem ready_atollDown : Ready 0xB9 0 atollDown firmwareTestDesc :=
  ⟨rfl, rfl, rfl, rfl, reservedFaults_firmwareTestDesc, by decide, .inl rfl, .inl rfl, rfl, fun _ => rfl⟩

theorem testFaults_atollDown : (testFaults atollDown firmwareTest).min? = none := by decide

/-- Refutes O36: its clause on CONV_TEST asks of the paths wanted that CALC_A and CALC_B serve, but not that ATOLL runs where the firmware path
is wanted. In `atollDown` only that path is wanted and ATOLL is not running, so the command ends PATH_UNAVAILABLE, 0x25, and not with status 0. -/
theorem not_conversionCommands : ¬ Obligations.ConversionCommands := by
  unfold Obligations.ConversionCommands
  rintro ⟨-, -, -, -, hTest, -⟩
  obtain ⟨t, hexec, hclaimed, -⟩ := hTest 0 atollDown firmwareTestDesc firmwareTest ready_atollDown (by decide) rfl testFaults_atollDown (by decide)
  rw [exec_convTest_firmwareDown ready_atollDown (by decide) rfl testFaults_atollDown (by decide) (by decide)] at hexec
  obtain rfl := Host.Outcome.next.inj hexec
  have hended : Done 0 0x25 0 [] (finish 0 0x25 0 [] atollDown) := done_finish ready_atollDown.live
  have hsame := Option.some.inj (hended.symm.trans hclaimed)
  exact absurd (congrArg (·.2.1) hsame) (by decide)

end Sys2Proof.Machine
end

section
namespace Sys2Proof.Machine
open Sys2Proof

/-! ### Prepayment while the meter table is rebuilt (R140, R260) -/

/-- A ready command that names its meter by identity ends TABLE_REBUILDING while the table is rebuilt, whatever its class would do (R140). -/
theorem meterCmd_rebuilding {op d : Nat} {retired : Bool} {unknown : Nat × Nat} {checks : Bytes → List Check}
    {f : Desc → Nat → MEntry → State → State} {s : State} {x : Desc} (h : Ready op d s x) (hr : checkFaults (refChecks x.bytes) = [])
    (hc : checkFaults (checks x.bytes) = []) (htbl : s.tbl.state = 2) (hid : bit (u8 x.bytes 27) 7 = false) :
    meterCmd op d retired unknown checks f s = finish d 0x29 0 [] s := by
  have hall : checkFaults (refChecks x.bytes ++ checks x.bytes) = [] := by rw [checkFaults_append, hr, hc]; rfl
  exact (hostCmd_ready h hall).trans (if_pos (by simp [htbl, hid]))

theorem exec_prepayRead_rebuilding {d : Nat} {s : State} {x : Desc} (h : Ready 0x34 d s x) (hr : checkFaults (refChecks x.bytes) = [])
    (htbl : s.tbl.state = 2) (hid : bit (u8 x.bytes 27) 7 = false) : exec (.prepayRead d) s = .next (finish d 0x29 0 [] s) :=
  congrArg Host.Outcome.next (meterCmd_rebuilding h hr rfl htbl hid)

/-- A profile that allows prepayment: byte 448, bit 0 (R252). -/
def prepayProfile : Profile := { body := List.replicate 448 0 ++ 1 :: List.replicate 575 0, version := 1, old := none }

/-- PREPAY_READ as descriptor 0, started; it names meter 77 by identity (R141). -/
def prepayReadDesc : Desc :=
  { id := 0, ring := 0, slot := 0, bytes := 0x34 :: List.replicate 15 0 ++ toLE 8 77 ++ List.replicate 40 0, stage := .started, input := none
    status := 0, detail := 0, result := [], writes := 0, orphan := false, mute := false, undo := .none }

/-- Its work item, alone on the meter's flow (R152). -/
def prepayReadItem : Item := { blankItem 0 0 0 77 0 with desc := some 0 }

/-- LEDGER, ATOLL and NET run, meter 77 is enrolled with prepayment allowed, and its table is Rebuilding as PREPAY_READ has its turn. -/
def rebuildingTable : State :=
  onHost (fun h => { h with descs := [prepayReadDesc] })
    (onSch (fun c => { c with items := [prepayReadItem] })
      (onTbl (fun t => { t with state := 2 })
        (onDb (fun d => { d with
            entries := [(3, silentMeter)], profiles := [(18, prepayProfile)], pfxs := [{ table := 0, len := 0, key := 0, value := 18 }] })
          (onIsl 8 (fun i => { i with phase := .running })
            (onIsl 9 (fun i => { i with phase := .running }) (onIsl 10 (fun i => { i with phase := .running }) State.reset))))))

theorem reservedFaults_prepayReadDesc : reservedFaults prepayReadDesc.bytes = [] := by decide

theorem ready_rebuildingTable : Ready 0x34 0 rebuildingTable prepayReadDesc :=
  ⟨rfl, rfl, rfl, rfl, reservedFaults_prepayReadDesc, by decide, .inr (by decide), .inr (by decide), rfl, by decide⟩

theorem inTurn_rebuildingTable : InTurn rebuildingTable prepayReadDesc := by decide

theorem refMeter_rebuildingTable : refMeter false rebuildingTable prepayReadDesc.bytes = some (3, silentMeter) := by decide

theorem prepayRefusal_rebuildingTable : prepayRefusal rebuildingTable 3 silentMeter false = none := by decide

/-- Refutes O39: its clause on PREPAY_READ does not ask that an identity can be looked up. In `rebuildingTable` the command names its meter by
identity while the table is Rebuilding, so it ends TABLE_REBUILDING, 0x29 (R140), and not with status 0. -/
theorem not_prepaymentCommands : ¬ Obligations.PrepaymentCommands := by
  unfold Obligations.PrepaymentCommands
  rintro ⟨-, -, -, -, -, -, -, -, hRead, -⟩
  have href : checkFaults (refChecks prepayReadDesc.bytes) = [] := by decide
  obtain ⟨t, hexec, hclaimed⟩ := hRead 0 rebuildingTable prepayReadDesc 3 silentMeter ready_rebuildingTable inTurn_rebuildingTable href
    refMeter_rebuildingTable prepayRefusal_rebuildingTable
  rw [exec_prepayRead_rebuilding ready_rebuildingTable href rfl (by decide)] at hexec
  obtain rfl := Host.Outcome.next.inj hexec
  have hended : Done 0 0x29 0 [] (finish 0 0x29 0 [] rebuildingTable) := done_finish ready_rebuildingTable.live
  have hsame := Option.some.inj (hended.symm.trans hclaimed)
  exact absurd (congrArg (·.2.1) hsame) (by decide)

end Sys2Proof.Machine
end
